-- ==== Sys2Proof/Word.lean ====
section
/-! DEFINITION. The word and byte types, sparse tables, and the plainest integer arithmetic of the model. -/
namespace Sys2Proof

/-- A register word (R42: registers are 32 bits wide). -/
abbrev Word := BitVec 32

/-- A byte. -/
abbrev Byte := BitVec 8

/-- A table keyed by number: only entries that differ from the table's default are listed, keys rising. -/
abbrev Sparse (α : Type) := List (Nat × α)

/-- Division rounded up; 0 for a divisor of 0. -/
abbrev cdiv (a b : Nat) : Nat := if b = 0 then 0 else (a + b - 1) / b

end Sys2Proof
end

