-- ==== Sys2Proof/Syntax.lean ====
section
/-! DEFINITION. The commands of the block: one constructor per row of the table of operations and events.
Every command carries `dt`, the wall time in ns since the command before it (notes/assumptions/1), and what the
surroundings deliver with it. -/
namespace Sys2Proof

/-- What bring-up finds of the DIMM of a channel: the channel, its organisation as a word of MCn.RANKS, the serial number of
its SPD hub, whether the device supports it (R254), the set points that end trained, the delay bank entries by DLY_IDX, and
whether it was swept in full (R397). -/
structure Dimm where
  channel   : Nat
  ranks     : Nat
  serial    : Nat
  supported : Bool
  trained   : Nat
  banks     : List (Nat × Nat)
  swept     : Bool
  deriving DecidableEq, Repr

/-- What a media port receives: a frame from its destination address to its FCS, how many RS-FEC codewords were corrected since the
frame before, and whether one could not be (R367). -/
structure MediaRx where
  bytes         : List Byte
  corrected     : Nat
  uncorrectable : Bool
  deriving DecidableEq, Repr

/-- What the poll of the DIMM sensors reads: the temperature of each sensor that answers, two to a DIMM, and the channels whose
DRAM devices ask for the doubled refresh rate (R266, R379). -/
structure DimmPoll where
  temps : List (Option Int)
  fast  : BitVec 8
  deriving DecidableEq, Repr

/-- A command to the block. -/
inductive Instr
  /-- REGISTER_WRITE (R46): A register write to a register with no row of its own is judged field by field and
    lands, or is refused and reported in PG_VIOL. -/
  | registerWrite (dt : Nat) (req : Nat) (off : Nat) (size : Nat) (v : BitVec 64)
  /-- READ_CLEAR (R47): A read of an RC register returns its value and then clears every RC bit of that register
    together. -/
  | readClear (dt : Nat) (req : Nat) (off : Nat) (size : Nat)
  /-- PG_LOCK_WRITE (R44): A write of 1 to PG_LOCK locks every LK field of the page until power-on reset or
    RESET_N. -/
  | pgLockWrite (dt : Nat) (req : Nat) (page : Nat) (v : Word)
  /-- PG_LATCH_WRITE (R51): A write to PG_LATCH moves the page and its pending registers to another Latch group
    or changes EN; it is refused while either group is held. -/
  | pgLatchWrite (dt : Nat) (req : Nat) (page : Nat) (v : Word)
  /-- POWER_ON_RESET (R307): VIN below 8.6 V for 10 µs resets the device, which restarts once VIN has risen to
    9.0 V. -/
  | powerOnReset (dt : Nat) (straps : Nat) (vbat : Bool)
  /-- RESET_N (R390): Holding RESET_N low for at least 10 µs resets the device and the straps are sampled at its
    release. -/
  | resetN (dt : Nat) (straps : Nat)
  /-- SOFT_RESET (R390): A W1P write to DEV.SOFT_RESET resets the core while locks, trained banks and DRAM
    contents are kept. -/
  | softReset (dt : Nat) (req : Nat)
  /-- PCIE_RESET (R390): PERST#, a hot reset or a link down resets only the PCIE page and configuration space,
    and the wall keeps running. -/
  | pcieReset (dt : Nat) (kind : Fin 3)
  /-- FIRE (R53): A W1P write of a group mask to LATCH.FIRE arms those groups, takes a sequence number and
    passes them to the Ward. -/
  | fire (dt : Nat) (req : Nat) (v : Word) (begun : List Nat)
  /-- TIME_TRIGGER_ARM (R53): Writing ARM = 1 in LATCH.TTt_CTRL arms the masked groups for a wall-time fire and
    passes them to the Ward. -/
  | timeTriggerArm (dt : Nat) (req : Nat) (t : Fin 4) (v : Word)
  /-- LINE_TRIGGER_ARM (R53): Writing ARM = 1 in LATCH.LTt arms the masked groups to fire at a canvas
    composition start and passes them to the Ward. -/
  | lineTriggerArm (dt : Nat) (req : Nat) (t : Fin 4) (v : Word)
  /-- WARD_VERDICT (R33): The Ward ends an evaluation and accepts the commit, or refuses it with a reason code,
    KIND and INDEX and releases the hold. -/
  | wardVerdict (dt : Nat) (begun : List Nat)
  /-- TIME_TRIGGER_FIRE (R53): Wall time reaches LATCH.TTt and the accepted groups of the time trigger fire. -/
  | timeTriggerFire (dt : Nat) (t : Fin 4) (begun : List Nat)
  /-- TUMBLER_LATCH_LINE (R57): A Tumbler crosses the Latch line of a fired group and applies the group's SL
    registers before that line. -/
  | tumblerLatchLine (dt : Nat) (cv : Fin 4) (tmb : Fin 9)
  /-- CEIL_WRITE (R40): A write to WARD.CEIL sets the DRAM admission ceiling and starts a re-admission. -/
  | ceilWrite (dt : Nat) (req : Nat) (v : Word)
  /-- RETX_WRITE (R40): A write to WARD.RETX sets the retransmission reserve and starts a re-admission. -/
  | retxWrite (dt : Nat) (req : Nat) (v : Word)
  /-- MARGIN_WRITE (R40): A write to WARD.MARGIN sets the composition margin and starts a re-admission. -/
  | marginWrite (dt : Nat) (req : Nat) (v : Word)
  /-- READMISSION_VERDICT (R36): The re-admission ends: layers, then canvases, then DMA reservations are shed
    until the configuration passes, and pending commits are re-evaluated. -/
  | readmissionVerdict (dt : Nat) (begun : List Nat)
  /-- RESTORATION (R38): At most once per frame, the Ward tries to restore the next shed canvas or layer as an
    admission of its own. -/
  | restoration (dt : Nat)
  /-- COMPOSITION_START (R65): A canvas starts composing a frame; SF registers apply, readiness is decided and
    line triggers fire. -/
  | compositionStart (dt : Nat) (cv : Fin 4) (tie : Bool) (begun : List Nat)
  /-- LATCH_INSTANT (R71): Wall time reaches L_N: the tiles show frame N and the bank of frame N−2 is released. -/
  | latchInstant (dt : Nat) (cv : Fin 4)
  /-- WAIT_LIMIT (R67): A composition start held by a WAIT layer reaches T_max − T_min past its due instant and
    happens without the layer. -/
  | waitLimit (dt : Nat) (cv : Fin 4) (begun : List Nat)
  /-- DELIVERY_COMPLETE (R68): Delivery of frame N completes at D_N, and the generator sets the latch time L_N. -/
  | deliveryComplete (dt : Nat) (cv : Fin 4)
  /-- LATCH_REPEAT (R204): 2,000 ns after the first copy, the device sends the second copy of a LATCH. -/
  | latchRepeat (dt : Nat) (cv : Fin 4)
  /-- FRAME_DEADLINE (R73): A frame that is not delivered by its deadline is aborted and its void latch is set
    at L_(N−1) + T_max. -/
  | frameDeadline (dt : Nat) (cv : Fin 4)
  /-- VOID_LATCH (R73): Wall time reaches the void latch of an aborted frame, which releases its bank. -/
  | voidLatch (dt : Nat) (cv : Fin 4)
  /-- UNDERRUN (R74): In through mode, scan-out reaches a line that has not been composed; the frame is aborted
    and the tiles receive HOLD. -/
  | underrun (dt : Nat) (cv : Fin 4)
  /-- VOTE (R384): A Hasp VOTE arrives carrying another device's candidate latch time, or ABORT, for a voting
    canvas. -/
  | vote (dt : Nat) (port : Fin 2) (frame : List Byte)
  /-- VOTE_TIMEOUT (R72): A vote is still missing 10,000 ns after the latest deadline of the ring, so the frame
    is aborted on every device. -/
  | voteTimeout (dt : Nat) (cv : Fin 4)
  /-- FRAME_PULSE (R69): A rising edge on the FRAME_IN pin is timestamped and yields PULSE genlock instants. -/
  | framePulse (dt : Nat)
  /-- HINGE_START (R79): A write of 1 to CVn.HINGE.START arms a mode hinge that carries the canvas's staged tile
    placements. -/
  | hingeStart (dt : Nat) (req : Nat) (cv : Fin 4) (v : Word)
  /-- HINGE_RECONFIG_DONE (R80): At instant S, register apply and vault relayout are done; CONFIG writes begin
    and the generator restarts. -/
  | hingeReconfigDone (dt : Nat) (cv : Fin 4)
  /-- HINGE_DEADLINE (R81): At the hinge deadline H, tiles that have not acknowledged their CONFIG writes are
    told to blank and set BLANKED. -/
  | hingeDeadline (dt : Nat) (cv : Fin 4)
  /-- HOLD_REPEAT (R205): 2,000 ns after the first copy, the device sends the second copy of a HOLD. -/
  | holdRepeat (dt : Nat) (cv : Fin 4)
  /-- BIND_CUTOFF (R187): A Tumbler that is waiting for BIND samples reaches cutoff K and takes the layer's
    policy for the rest of the line. -/
  | bindCutoff (dt : Nat) (cv : Fin 4) (layer : Fin 64) (line : Nat) (x : Nat)
  /-- COEF_DATA_WRITE (R121): A write to COEFn.DATA stores a coefficient at the indexed entry and advances
    ENTRY, or is discarded for an active or in-use bank. -/
  | coefDataWrite (dt : Nat) (req : Nat) (set : Fin 8) (v : Word)
  /-- COEF_DATA_READ (R121): A read of COEFn.DATA returns the indexed coefficient and advances ENTRY under
    AUTOINC. -/
  | coefDataRead (dt : Nat) (req : Nat) (set : Fin 8)
  /-- TONE_DATA_WRITE (R154): A write to TONE.DATA stores a knot or matrix entry and advances the index, or is
    refused as for COEF. -/
  | toneDataWrite (dt : Nat) (req : Nat) (v : Word)
  /-- TONE_DATA_READ (R154): A read of TONE.DATA returns the addressed entry and advances the index under
    AUTOINC. -/
  | toneDataRead (dt : Nat) (req : Nat)
  /-- LUT_DATA_WRITE (R153): A write to CVCn.LUT_DATA stores an encode LUT entry, or is discarded for an active,
    pending or in-use bank. -/
  | lutDataWrite (dt : Nat) (req : Nat) (cv : Fin 4) (v : Word)
  /-- LUT_DATA_READ (R153): A read of CVCn.LUT_DATA returns the entry and advances ENTRY under AUTOINC. -/
  | lutDataRead (dt : Nat) (req : Nat) (cv : Fin 4)
  /-- SWEEP_PASS_START (R165): A wear sweep pass starts at its due whole millisecond, with credited interval Δ
    since the previous start. -/
  | sweepPassStart (dt : Nat)
  /-- WEAR_VISIT (R167): The sweep visits one wear entry, samples the lamp codes and adds the dithered credit. -/
  | wearVisit (dt : Nat) (newest : Option (List Byte)) (other : Option (List Byte))
  /-- SWEEP_PASS_END (R171): At the end of a pass, new wear gains are computed and staged for every tile of
    every live canvas. -/
  | sweepPassEnd (dt : Nat)
  /-- CHECKPOINT_DUE (R172): Wall time reaches a multiple of INTERVAL and a checkpoint of the wear table falls
    due. -/
  | checkpointDue (dt : Nat)
  /-- CKPT_NOW (R172): A write of 1 to CKPT_CTRL.NOW makes a checkpoint due at once. -/
  | ckptNow (dt : Nat) (req : Nat)
  /-- CKPT_ERASE_DONE (R173): All blocks of the checkpoint slot are erased and the writer begins the body. -/
  | ckptEraseDone (dt : Nat)
  /-- CKPT_BLOCK_FAIL (R173): An erase or program fails; the block is marked bad and the writer continues at the
    next good block, or fails with NO_SPACE. -/
  | ckptBlockFail (dt : Nat) (block : Nat)
  /-- CKPT_BODY_DONE (R173): All N_tab entries are programmed, and the record is programmed into page 0 and read
    back. -/
  | ckptBodyDone (dt : Nat)
  /-- CKPT_RECORD_READBACK (R173): The read-back of the record completes; a valid record sets DONE and the slot
    becomes the newest copy, otherwise FAIL. -/
  | ckptRecordReadback (dt : Nat) (valid : Bool)
  /-- CKPT_RESTORE (R174): A write of 1 to CKPT_CTRL.RESTORE while the sweep is idle restores the wear table
    from the newer valid checkpoint. -/
  | ckptRestore (dt : Nat) (req : Nat)
  /-- CKPT_RESTORE_DONE (R174): The restore ends, setting the pass count, CKPT_LAST and RESTORED. -/
  | ckptRestoreDone (dt : Nat) (slotA : List Byte) (slotB : List Byte)
  /-- GRANULE_RELOCATION (R178): A vault granule above the charged tiers is copied down while its bank is not
    being written, and its map switches. -/
  | granuleRelocation (dt : Nat)
  /-- VAULT_ERROR (R182): A vault read meets a corrected or an uncorrectable word; an uncorrectable word
    withholds the packet, poisons a capture or reads as code 0 for the sweep. -/
  | vaultError (dt : Nat) (addr : Nat) (uncorrectable : Bool) (port : Fin 64)
  /-- SECTION_SPARE_COPY (R182): A retired vault section is copied into its spare row group at the first instant
    when none of it is being written. -/
  | sectionSpareCopy (dt : Nat) (sec : Fin 128)
  /-- VAULT_SCRUB (R182): The background scrub reads vault words and rewrites the corrected ones. -/
  | vaultScrub (dt : Nat) (errors : List Nat)
  /-- BAR4_READ (R184): A host read of BAR4 returns vault bytes, raw or in canvas raster order, from capacity
    the higher classes leave. -/
  | bar4Read (dt : Nat) (req : Nat) (off : Nat) (len : Nat)
  /-- BAR4_WRITE (R184): A host write to BAR4 is discarded and sets VAULT.STAT.BAR4_WRITE. -/
  | bar4Write (dt : Nat) (req : Nat) (off : Nat) (data : List Byte)
  /-- THROUGH_LINE_START (R185): A through-mode Tumbler begins line y once the frame has started, line y − n has
    ended and line y − L has been sent on every port. -/
  | throughLineStart (dt : Nat) (cv : Fin 4) (line : Nat)
  /-- THROUGH_DELIVERY_START (R186): The lead lines of a through-mode frame are composed at D0, and its pixel
    packets may start. -/
  | throughDeliveryStart (dt : Nat) (cv : Fin 4)
  /-- READBACK_VERDICT (R191): The near-end read-back of a pixel packet completes; a bad FCS or a CRC mismatch
    queues a resend and counts a chain-port event. -/
  | readbackVerdict (dt : Nat) (port : Fin 64) (echo : List Byte)
  /-- LINK_UP (R213): A chain port's link comes up and the port sends DISCOVER. -/
  | linkUp (dt : Nat) (port : Fin 64) (grid : Nat)
  /-- LINK_DOWN (R221): A chain port's link goes down; on a looped chain this is evidence of a break. -/
  | linkDown (dt : Nat) (port : Fin 64)
  /-- DISCOVER_TIMER (R213): Once a second, while any tile on the port is unassigned, the device sends DISCOVER. -/
  | discoverTimer (dt : Nat) (port : Fin 64)
  /-- ANNOUNCE (R214): A tile's ANNOUNCE reaches a port; the device assigns a number, lists the tile ID, marks a
    conflict or takes an ASSIGN answer. -/
  | announce (dt : Nat) (port : Fin 64) (frame : List Byte)
  /-- ASSIGN_TIMEOUT (R214): An ASSIGN goes unanswered for 10 ms; it is repeated up to three times, and then the
    entry reverts and is listed with reason 5. -/
  | assignTimeout (dt : Nat) (tile : Fin 4096)
  /-- CONFLICT_SETTLE (R214): Only one ID of a conflict has been heard for 300 ms, and the entry returns to
    RESERVED. -/
  | conflictSettle (dt : Nat) (tile : Fin 4096)
  /-- TIME_PERIOD (R208): At each multiple of the port's TIME period, a TIME frame is enqueued in LQ7 and
    stamped with ORIGIN as it leaves. -/
  | timePeriod (dt : Nat) (port : Fin 64)
  /-- ECHO_ROUND (R209): Each tile is measured once a second, in round-robin order, with an ECHO request. -/
  | echoRound (dt : Nat)
  /-- ECHO (R209): An ECHO reply arrives; the device computes the one-way delay and writes it to the tile when
    it has changed by more than 2 ns. -/
  | echo (dt : Nat) (port : Fin 64) (frame : List Byte) (t4 : Nat)
  /-- CONFIG_REPLY (R216): A CONFIG-write or CONFIG-read reply arrives from a tile; an OK reply to a COMMIT
    acknowledges the tile. -/
  | configReply (dt : Nat) (port : Fin 64) (frame : List Byte)
  /-- CONFIG_RETRY (R217): Unanswered CONFIG writes are repeated every 2 ms until the hinge deadline, and once
    per frame after it. -/
  | configRetry (dt : Nat) (cv : Fin 4)
  /-- STATUS (R219): A tile's STATUS arrives; the device stores it in TTBL space 3 and sets PRT STAT bits from
    its flags. -/
  | status (dt : Nat) (port : Fin 64) (frame : List Byte)
  /-- EVENT (R219): A tile's EVENT arrives and is stored and reflected like a STATUS; it may evidence a loop
    break. -/
  | event (dt : Nat) (port : Fin 64) (frame : List Byte)
  /-- NACK (R219): A tile's NACK arrives and each of its entries becomes a resend request. -/
  | nack (dt : Nat) (port : Fin 64) (frame : List Byte)
  /-- TILE_LOST (R219): A tile has been heard neither in STATUS nor in EVENT for three TELEM_PERIODs and becomes
    LOST. -/
  | tileLost (dt : Nat) (tile : Fin 4096)
  /-- LOOP_TIME_MISS (R221): Three consecutive head TIMEs fail to reach the loop partner, which is evidence of a
    break. -/
  | loopTimeMiss (dt : Nat) (port : Fin 64)
  /-- FAILOVER_SWEEP_DONE (R221): The failover ECHO sweep ends, and tiles that only the partner reaches become
    partner-served. -/
  | failoverSweepDone (dt : Nat) (port : Fin 64)
  /-- FAILOVER_SWITCH (R221): At the partner's next gate-cycle start, partner-served tiles take their packets
    there, with lost packets resent first. -/
  | failoverSwitch (dt : Nat) (port : Fin 64)
  /-- REVERT (R222): After 10 s without a break, service returns to the head port at its next composition start. -/
  | revert (dt : Nat) (port : Fin 64)
  /-- TTBL_READ (R228): TTBL.CMD.READ loads DATA0–DATA15 from the addressed object. -/
  | ttblRead (dt : Nat) (req : Nat)
  /-- TTBL_WRITE (R230): TTBL.CMD.WRITE stores the software-owned fields of the object, reserving IDs and
    staging placements. -/
  | ttblWrite (dt : Nat) (req : Nat)
  /-- RELEASE (R228): TTBL.CMD.RELEASE frees tile number INDEX and sends the tile ASSIGN 0xFFFF, unless the tile
    is placed on a live canvas. -/
  | release (dt : Nat) (req : Nat)
  /-- DISCOVER (R228): TTBL.CMD.DISCOVER sends DISCOVER on every port with DISC_EN. -/
  | discover (dt : Nat) (req : Nat)
  /-- TWRITE (R231): TTBL.CMD.TWRITE sends a CONFIG-write from space 4 to tile INDEX with ACK_REQ and epoch 0. -/
  | twrite (dt : Nat) (req : Nat)
  /-- TREAD (R231): TTBL.CMD.TREAD sends a CONFIG-read from space 4 to tile INDEX. -/
  | tread (dt : Nat) (req : Nat)
  /-- CLR_ANN (R228): TTBL.CMD.CLR_ANN empties the announcement list. -/
  | clrAnn (dt : Nat) (req : Nat)
  /-- TTBL_ECHO (R228): TTBL.CMD.ECHO measures tile INDEX at once. -/
  | ttblEcho (dt : Nat) (req : Nat)
  /-- TILE_ACCESS_TIMEOUT (R228): A tile access gets no reply within 10 ms, which sets TERR and DATA15 to 0xFF. -/
  | tileAccessTimeout (dt : Nat)
  /-- FRAME_ENQUEUE (R233): A frame is enqueued to a link queue, or dropped as OVERSIZE if it fits no window. -/
  | frameEnqueue (dt : Nat) (port : Fin 64) (queue : Fin 8) (frame : List Byte)
  /-- FRAME_TX_END (R234): A frame's transmission ends, the wire becomes free and the port takes a decision. -/
  | frameTxEnd (dt : Nat) (port : Fin 64)
  /-- GATE_CHANGE (R235): A gate list entry boundary is reached, the gates change and the port takes a decision. -/
  | gateChange (dt : Nat) (port : Fin 64)
  /-- SHAPER_REFILL (R246): A shaper bucket refill lets a waiting RED head go, and the port takes a decision. -/
  | shaperRefill (dt : Nat) (port : Fin 64)
  /-- GATE_DATA_WRITE (R241): A write to GATE_DATA stores an admin gate list entry, or is refused while the
    group is held or a takeover is pending. -/
  | gateDataWrite (dt : Nat) (req : Nat) (port : Fin 64) (v : Word)
  /-- GATE_DATA_READ (R253): A read of GATE_DATA returns the addressed gate entry and advances ENTRY under
    AUTOINC. -/
  | gateDataRead (dt : Nat) (req : Nat) (port : Fin 64)
  /-- TAKEOVER (R243): At instant T, the admin list is copied into the operational list and entry 0 begins. -/
  | takeover (dt : Nat) (port : Fin 64)
  /-- LOAD (R253): GATE_CMD.LOAD copies the operational list into the admin list, and is refused while a
    takeover is pending. -/
  | load (dt : Nat) (req : Nat) (port : Fin 64)
  /-- RESTART (R251): QSAMPLE_SEL.RESTART restarts the maxima of the selected queue. -/
  | restart (dt : Nat) (req : Nat) (v : Word)
  /-- SHAPER_DATA_WRITE (R252): A write to SCHED.SHAPER_DATA goes to the shadow of the addressed shaper word and
    marks it pending. -/
  | shaperDataWrite (dt : Nat) (req : Nat) (v : Word)
  /-- MEMORY_REQUEST (R260): A memory request arrives at a channel port, with its class and urgency target. -/
  | memoryRequest (dt : Nat) (port : Fin 8) (addr : Nat) (data : Option (List Byte))
  /-- COMMAND_SLOT (R261): At a command slot, the subchannel issues the first ready command in priority order. -/
  | commandSlot (dt : Nat) (mc : Fin 8) (sub : Fin 2) (errors : List Nat)
  /-- REFRESH_DUE (R265): A rank's refresh falls due at tREFI; it may be postponed up to the limit and is then
    forced. -/
  | refreshDue (dt : Nat) (mc : Fin 8) (rank : Fin 8)
  /-- FSP_START (R271): A write of START to MEM.FSP_CTRL requests a set-point change, or is refused with a code. -/
  | fspStart (dt : Nat) (req : Nat) (v : Word)
  /-- FSP_CHANGE_DONE (R272): The set-point change sequence completes and waiting requests are served. -/
  | fspChangeDone (dt : Nat) (begun : List Nat)
  /-- WRITE_READ (R269): The training assist writes pattern bursts and compares them on read. -/
  | writeRead (dt : Nat) (req : Nat) (v : Word)
  /-- TRAIN_READ (R269): The training assist compares reads against the DRAM's internal pattern. -/
  | trainRead (dt : Nat) (req : Nat) (v : Word)
  /-- CA_LOOP (R269): The training assist runs command and address loopback through the RCD. -/
  | caLoop (dt : Nat) (req : Nat) (v : Word)
  /-- MRW (R269): The training assist writes a mode register. -/
  | mrw (dt : Nat) (req : Nat) (v : Word)
  /-- MRR (R269): The training assist reads a mode register into RESULT. -/
  | mrr (dt : Nat) (req : Nat) (v : Word)
  /-- TRAINING_DONE (R269): A training run completes, setting RESULT and clearing RUN. -/
  | trainingDone (dt : Nat) (fails : Nat) (errors : Nat)
  /-- DLY_DATA_WRITE (R270): A write to MTRN.DLY_DATA sets a delay bank entry, or is discarded with KIND 1 if
    the bank is trained. -/
  | dlyDataWrite (dt : Nat) (req : Nat) (v : Word)
  /-- TRAINED_WRITE (R270): A write to MTRN.TRAINED marks set points of channels trained. -/
  | trainedWrite (dt : Nat) (req : Nat) (v : Word)
  /-- ILV_WRITE (R257): A write to MEM.ILVk changes an interleave set, or is discarded if it breaks a map rule. -/
  | ilvWrite (dt : Nat) (req : Nat) (k : Fin 4) (v : Word)
  /-- SPARE_WRITE (R256): A write to MCn.SPARE designates a spare rank, and is refused on a single-rank DIMM. -/
  | spareWrite (dt : Nat) (req : Nat) (mc : Fin 8) (v : Word)
  /-- MIGRATION_UNIT (R275): One 256-byte unit of a retired rank is copied to the spare and the mark advances. -/
  | migrationUnit (dt : Nat) (mc : Fin 8) (errors : List Nat)
  /-- PATROL_SCRUB (R277): The patrol scrub reads a mapped burst and handles any errors it finds. -/
  | patrolScrub (dt : Nat) (errors : List Nat)
  /-- SR_REQUEST (R278): A write of REQ = 1 asks for self-refresh, or is refused with ADMITTED. -/
  | srRequest (dt : Nat) (req : Nat) (mc : Fin 8) (v : Word)
  /-- SR_ENTRY (R279): The queues are empty and the kept ranks enter self-refresh, the others entering maximum
    power saving mode if PASR = 1. -/
  | srEntry (dt : Nat) (mc : Fin 8)
  /-- SR_EXIT_DONE (R280): The exit timing is met and the waiting requests are served. -/
  | srExitDone (dt : Nat) (mc : Fin 8)
  /-- SR_IDLE (R279): No request has arrived for SR_CTRL.IDLE µs with REQ = 1, and entry starts again. -/
  | srIdle (dt : Nat) (mc : Fin 8)
  /-- ZEROING_DONE (R281): A rank leaving maximum power saving mode has been zeroed and is mapped again. -/
  | zeroingDone (dt : Nat) (mc : Fin 8) (rank : Fin 8)
  /-- START (R294): A write of 1 to DMAnn.START starts the channel's chain, or becomes one pending start. -/
  | start (dt : Nat) (req : Nat) (ch : Fin 64)
  /-- ABORT (R296): A write to DMAnn.ABORT ends the chain at the next burst boundary and writes back the
    residue. -/
  | abort (dt : Nat) (req : Nat) (ch : Fin 64)
  /-- EVENT_TIMER (R294): A DMA event timer fires at a wall-time multiple of its period and starts the channels
    it triggers. -/
  | eventTimer (dt : Nat) (timer : Fin 16)
  /-- REQUEST_LINE (R295): A DMA event request line is asserted, for example at a flow buffer's completion, and
    starts its channel. -/
  | requestLine (dt : Nat) (line : Nat)
  /-- UNIT_ACCEPTED (R285): A DMA write unit is accepted by its destination; HALF is raised when half the bytes
    are in. -/
  | unitAccepted (dt : Nat) (ch : Fin 64) (data : List Byte)
  /-- UNIT_FAILURE (R297): A DMA unit fails; it is retried up to RETRY times and then the channel halts with a
    code. -/
  | unitFailure (dt : Nat) (ch : Fin 64) (code : Nat)
  /-- DESCRIPTOR_END (R293): A descriptor ends: STATUS is written back, the fence count is incremented and the
    chain continues or ends. -/
  | descriptorEnd (dt : Nat) (ch : Fin 64)
  /-- NEXT_WRITE (R301): A write to NEXT_LO/HI sets the shadow chain and FRESH, or is discarded with OVERRUN
    while VALID = 1. -/
  | nextWrite (dt : Nat) (req : Nat) (ch : Fin 64) (lo : Word) (hi : Word)
  /-- NEXT_VALID_WRITE (R301): A WM write of NEXT_VALID sets or cancels the shadow chain. -/
  | nextValidWrite (dt : Nat) (req : Nat) (ch : Fin 64) (v : Word)
  /-- RESERVE (R299): RSV_BW with OP = 1 asks the Ward to grant a channel reserved bandwidth. -/
  | reserve (dt : Nat) (req : Nat) (v : Word)
  /-- RESERVATION_VERDICT (R299): The Ward grants the reservation or refuses it with a code. -/
  | reservationVerdict (dt : Nat)
  /-- RSV_RELEASE (R299): RSV_BW with OP = 2 releases a grant at once. -/
  | rsvRelease (dt : Nat) (req : Nat) (v : Word)
  /-- SPARES_WRITE (R302): A write to DMAG.CTRL.SPARES withholds or releases idle channels as spares. -/
  | sparesWrite (dt : Nat) (req : Nat) (v : Word)
  /-- VIN_LOW (R305): VIN stays below 18.0 V for 1 ms; the envelope drops to 110 W and a re-admission runs. -/
  | vinLow (dt : Nat) (mv : Nat)
  /-- VIN_NORMAL (R305): VIN stays at or above 18.5 V for 1 s; the envelope rises and a re-admission runs. -/
  | vinNormal (dt : Nat) (mv : Nat)
  /-- VIN_OVER (R305): VIN rises above 60 V and SENS.STAT.VIN_OVER is set. -/
  | vinOver (dt : Nat) (mv : Nat)
  /-- DOMAIN_NEED (R308): A user needs a domain that is OFF or DRAINING, and the domain switches on or the drain
    is cancelled. -/
  | domainNeed (dt : Nat) (dom : Fin 53)
  /-- DOMAIN_IDLE (R308): A domain's off condition has held for 10 ms, and its DMA users are asked to pause. -/
  | domainIdle (dt : Nat) (dom : Fin 53)
  /-- DOMAIN_DRAINED (R308): Every DMA user of the domain has paused, and the domain switches off. -/
  | domainDrained (dt : Nat) (dom : Fin 53)
  /-- DOMAIN_WAKE_DONE (R309): A domain's wake time elapses, and its waiting users are released. -/
  | domainWakeDone (dt : Nat) (dom : Fin 53)
  /-- SENSOR_SAMPLE (R311): The forty junction sensors are sampled, and HOT, sensor failures and TJ_MAX are
    updated. -/
  | sensorSample (dt : Nat) (temps : List Int) (vin : Nat) (iin : Nat) (pin : Nat)
  /-- THERMAL_CUT (R312): A sensor stays above T + 5 °C for 1 s; the thermal budget is cut to 95 % of PDEMAND
    and a re-admission runs. -/
  | thermalCut (dt : Nat)
  /-- THERMAL_BUDGET_RISE (R312): Every 10 s while the sensors are cool, the thermal budget rises by 5 % of
    PLIMIT. -/
  | thermalBudgetRise (dt : Nat)
  /-- EMERGENCY_END (R313): Every sensor has read T − 10 °C or below for 10 s; the emergency ends and the budget
    is lifted. -/
  | emergencyEnd (dt : Nat)
  /-- DECISION_TIMER (R314): With no canvas live, the Keeper decides every 10,000,000 ns. -/
  | decisionTimer (dt : Nat) (begun : List Nat)
  /-- VCORE_REACHED (R316): VCORE reaches the raised voltage of an operating-point move, and the new point is
    selected. -/
  | vcoreReached (dt : Nat) (begun : List Nat)
  /-- BG_FORCED (R318): Background class 1–3 has been held for 60 s and is granted for 10 s regardless. -/
  | bgForced (dt : Nat) (cls : Fin 4)
  /-- ENERGY_PACE (R323): At each whole second, the Keeper adjusts the energy term ke against the remaining
    daily allowance. -/
  | energyPace (dt : Nat)
  /-- DAY_ROLL (R323): At local midnight, ENERGY_USED is cleared and ke returns to 65,535. -/
  | dayRoll (dt : Nat)
  /-- SCHEDULE_MINUTE (R324): At each local minute, every matching schedule entry fires in index order. -/
  | scheduleMinute (dt : Nat)
  /-- VCOMMIT_WRITE (R325): A write to KEEP.VCOMMIT sets the committed voltage, and is discarded while any
    canvas is live. -/
  | vcommitWrite (dt : Nat) (req : Nat) (v : Word)
  /-- SCHED_DATA_WRITE (R325): A write to KEEP.SCHED_DATA goes to the shadow of the addressed schedule word. -/
  | schedDataWrite (dt : Nat) (req : Nat) (v : Word)
  /-- FAULT_EVENT (R327): An error event of a resource is counted; a crossing retires the resource and engages a
    spare or loses it. -/
  | faultEvent (dt : Nat) (cls : Fin 7) (index : Nat)
  /-- LEAK_TICK (R328): At a multiple of a class's leak period, every non-zero counter of the class loses 1. -/
  | leakTick (dt : Nat) (cls : Fin 7)
  /-- SHADOW_CHECK (R337): The spare Tumbler compares a checked line's CRC and recomposes on a mismatch to
    assign the event. -/
  | shadowCheck (dt : Nat) (cv : Fin 4) (line : Nat) (live : Nat) (spare : Nat) (again : Nat)
  /-- PHASE_SPARE_ON (R333): The spare phase of a converter group switches on within 50 µs of a retirement. -/
  | phaseSpareOn (dt : Nat) (grp : Nat)
  /-- LIFETIME_WRITE (R341): At each hour, or within 1 s of a retirement, spare engagement or loss, the lifetime
    record is written. -/
  | lifetimeWrite (dt : Nat)
  /-- LT_NOW (R341): A write of 1 to FAULT.CTRL.LT_NOW writes the lifetime record now. -/
  | ltNow (dt : Nat) (req : Nat)
  /-- LIFETIME_WRITE_DONE (R341): A lifetime record write completes with LT_DONE, or fails with LT_FAIL. -/
  | lifetimeWriteDone (dt : Nat) (ok : Bool)
  /-- LT_RESTORE (R342): A write of 1 to LT_RESTORE loads the newer valid lifetime record and applies its maps. -/
  | ltRestore (dt : Nat) (req : Nat) (slotA : List Byte) (slotB : List Byte)
  /-- FAULT_N_RELEASE (R344): A write of RELEASE frees FAULT_N from its event hold when no masked STAT bit is
    set. -/
  | faultNRelease (dt : Nat) (req : Nat) (v : Word)
  /-- HOP (R348): A write that changes PLLn.CTRL.ACTIVE moves the PLL to another profile slot and relocks it. -/
  | hop (dt : Nat) (req : Nat) (pll : Fin 4) (v : Word)
  /-- PLL_LOCK (R349): A PLL locks from its stored band or a full search, and its outputs are released after
    their start delays. -/
  | pllLock (dt : Nat) (pll : Fin 4) (band : Nat)
  /-- BAND_MISS (R350): A stored-band lock has not locked after 19,000 ns and continues as a full search. -/
  | bandMiss (dt : Nat) (pll : Fin 4)
  /-- LOSS_OF_LOCK (R353): A PLL loses lock; its outputs are held low, a core event is counted and it relocks. -/
  | lossOfLock (dt : Nat) (pll : Fin 4)
  /-- RELOCK_TIMEOUT (R353): A relock is not complete after 400,000 ns; the core crosses its budget and the PLL
    switches to its second core. -/
  | relockTimeout (dt : Nat) (pll : Fin 4)
  /-- DIV_WRITE (R351): A write to PLLn.DIV changes a divider or enables or holds an output. -/
  | divWrite (dt : Nat) (req : Nat) (pll : Fin 4) (v : Word)
  /-- BAND_WRITE (R361): A software write to PLLn.BAND, which loses to a hardware store with OVERRUN. -/
  | bandWrite (dt : Nat) (req : Nat) (pll : Fin 4) (v : Word)
  /-- REF_LOST (R361): FREF is absent for 10 µs, and PLL0 holds its last control word. -/
  | refLost (dt : Nat)
  /-- SERVO_OFFSET (R356): A PTP or Hasp offset reaches the time-base servo and is applied as a step or a slew. -/
  | servoOffset (dt : Nat) (hasp : Bool) (offset : Int)
  /-- SET (R357): A write of TIME.SET_HI applies a correction SET − NOW, as a step or a slew. -/
  | set (dt : Nat) (req : Nat) (v : Word)
  /-- LEAP_SECOND (R359): An inserted or deleted leap second passes in the calendar. -/
  | leapSecond (dt : Nat)
  /-- BACKUP_COPY (R360): At each whole second, wall time and calendar state are copied into the backup domain. -/
  | backupCopy (dt : Nat)
  /-- CONFIGURATION_REQUEST (R394): A PCIe configuration request is answered with retry status until READY, and
    normally after it. -/
  | configurationRequest (dt : Nat) (off : Nat) (data : Option Word)
  /-- BAR2_ACCESS (R364): A host access through BAR2 reaches DRAM through the HOST port, using slack bandwidth. -/
  | bar2Access (dt : Nat) (req : Nat) (off : Nat) (data : Option (List Byte)) (len : Nat)
  /-- WRITE_REG (R366): The MSPI WRITE_REG command writes 4-byte words to BAR0 offsets. -/
  | writeReg (dt : Nat) (addr : Nat) (data : List Byte) (clkMHz : Nat)
  /-- READ_REG (R366): The MSPI READ_REG command returns BAR0 words after the marker byte. -/
  | readReg (dt : Nat) (addr : Nat) (words : Nat)
  /-- WRITE_MEM (R366): The MSPI WRITE_MEM command writes words to device physical addresses. -/
  | writeMem (dt : Nat) (addr : Nat) (data : List Byte)
  /-- READ_MEM (R366): The MSPI READ_MEM command returns DRAM words after the marker byte. -/
  | readMem (dt : Nat) (addr : Nat) (words : Nat)
  /-- READ_STAT (R366): The MSPI READ_STAT command returns the READY, interrupt and error byte. -/
  | readStat (dt : Nat)
  /-- MEDIA_FRAME (R369): A media port receives a frame; it is matched to a flow, policed, merged and its
    segments written to the buffer. -/
  | mediaFrame (dt : Nat) (port : Fin 2) (frame : MediaRx)
  /-- PATH_LOST (R371): One path of an ST 2022-7 pair delivers nothing for SKEW µs. -/
  | pathLost (dt : Nat) (flow : Fin 16) (path : Fin 2)
  /-- FLOW_READ (R372): FLOW.CMD.READ loads DATA from the addressed flow object. -/
  | flowRead (dt : Nat) (req : Nat)
  /-- FLOW_WRITE (R372): FLOW.CMD.WRITE stores the object as a whole, or refuses it with ERR; a charged change
    re-admits. -/
  | flowWrite (dt : Nat) (req : Nat)
  /-- ARP_REQUEST (R368): An ARP request for the port's own IPv4 address is answered with an ARP reply. -/
  | arpRequest (dt : Nat) (port : Fin 2) (frame : List Byte)
  /-- PTP_ANNOUNCE (R375): A PTP Announce arrives and the best master clock algorithm runs. -/
  | ptpAnnounce (dt : Nat) (port : Fin 2) (frame : List Byte)
  /-- PTP_SYNC (R374): A PTP Sync or Follow_Up arrives and yields an offset for the time base. -/
  | ptpSync (dt : Nat) (port : Fin 2) (frame : List Byte) (rx : Nat)
  /-- DELAY_REQ (R374): At each Delay_Req interval, the client sends a Delay_Req. -/
  | delayReq (dt : Nat) (port : Fin 2)
  /-- DELAY_RESP (R374): A Delay_Resp arrives and completes a path delay measurement. -/
  | delayResp (dt : Nat) (port : Fin 2) (frame : List Byte)
  /-- ANNOUNCE_TIMEOUT (R375): No Announce has arrived for three intervals; LOST is set and the time base enters
    holdover. -/
  | announceTimeout (dt : Nat)
  /-- XSPI_READ (R377): The xSPI READ command moves LEN bytes from flash into the FIFO. -/
  | xspiRead (dt : Nat) (req : Nat) (data : List Byte)
  /-- XSPI_PROGRAM (R377): The xSPI PROGRAM command writes LEN bytes to flash page by page. -/
  | xspiProgram (dt : Nat) (req : Nat)
  /-- XSPI_ERASE (R377): The xSPI ERASE command erases the sector or block at ADDR. -/
  | xspiErase (dt : Nat) (req : Nat)
  /-- XSPI_RAW (R377): The xSPI RAW command sends CTRL.OP with no address. -/
  | xspiRaw (dt : Nat) (req : Nat)
  /-- XSPI_DONE (R377): A flash command completes after status polling, setting DONE or ERR. -/
  | xspiDone (dt : Nat) (status : Nat) (timeout : Bool)
  /-- SBUS_READ (R378): The SBUS READ command reads a sideband device register over I3C. -/
  | sbusRead (dt : Nat) (req : Nat)
  /-- SBUS_WRITE (R378): The SBUS WRITE command writes a sideband device register over I3C. -/
  | sbusWrite (dt : Nat) (req : Nat)
  /-- TEMP_POLL (R379): Every 16 ms the DIMM sensors are read, DIMM_Tc is updated and refresh doubling may
    change. -/
  | tempPoll (dt : Nat) (poll : DimmPoll)
  /-- PMIC_ALERT (R379): A PMIC in-band interrupt arrives and sets PMIC_ALERT. -/
  | pmicAlert (dt : Nat) (dimm : Fin 8)
  /-- HELLO (R383): A Hasp HELLO arrives, updating ring membership, the link delay and election ranks. -/
  | hello (dt : Nat) (port : Fin 2) (frame : List Byte)
  /-- HELLO_TIMER (R383): Every 1 ms, each Hasp port sends HELLO. -/
  | helloTimer (dt : Nat)
  /-- MEMBER_TIMEOUT (R387): A member's HELLO has not arrived for 3 ms; it drops out of the ring, and a lost
    master reruns the election. -/
  | memberTimeout (dt : Nat) (pos : Fin 16)
  /-- HASP_TIME (R383): A Hasp TIME from the master arrives and yields a follower offset. -/
  | haspTime (dt : Nat) (port : Fin 2) (frame : List Byte) (rx : Nat)
  /-- HASP_TIME_TIMER (R383): Every 1 ms, the time master sends Hasp TIME. -/
  | haspTimeTimer (dt : Nat)
  /-- COMMIT (R385): A Hasp COMMIT arrives, or is sent at a WALL group fire, and arms the same groups on every
    member. -/
  | commit (dt : Nat) (port : Fin 2) (frame : List Byte)
  /-- VERDICT (R385): A member's Hasp VERDICT for a wall commit arrives. -/
  | verdict (dt : Nat) (port : Fin 2) (frame : List Byte)
  /-- COMMIT_VERDICT_DEADLINE (R385): At T_FIRE − 20 µs, a wall commit without every verdict at code 0 is
    refused on every device. -/
  | commitVerdictDeadline (dt : Nat)
  /-- COMMIT_FIRE (R385): At T_FIRE, an accepted wall commit applies on every device. -/
  | commitFire (dt : Nat) (begun : List Nat)
  /-- TUN_READ (R386): HASP TUN_CMD.READ sends a TUN_REQ read to the target device. -/
  | tunRead (dt : Nat) (req : Nat) (port : Fin 2)
  /-- TUN_WRITE (R386): HASP TUN_CMD.WRITE sends a TUN_REQ write to the target device. -/
  | tunWrite (dt : Nat) (req : Nat) (port : Fin 2)
  /-- TUN_REQ (R386): A TUN_REQ arrives at its target and is served as one more register requester. -/
  | tunReq (dt : Nat) (port : Fin 2) (frame : List Byte)
  /-- TUN_RSP (R386): A TUN_RSP arrives and completes the tunnel with TDONE. -/
  | tunRsp (dt : Nat) (port : Fin 2) (frame : List Byte)
  /-- TUNNEL_TIMEOUT (R386): No tunnel reply arrives within 100 µs, which sets TERR. -/
  | tunnelTimeout (dt : Nat) (port : Fin 2)
  /-- HASP_LINK_DOWN (R387): A Hasp link goes down and the ring becomes a line. -/
  | haspLinkDown (dt : Nat) (port : Fin 2)
  /-- GPIO_EDGE (R388): A rising edge on a GPIO input sets its IRQ bit. -/
  | gpioEdge (dt : Nat) (pin : Fin 16)
  /-- BRING_UP_PHASE (R393): A Turnkey bring-up phase completes and the next phase starts. -/
  | bringUpPhase (dt : Nat) (copies : List (List Byte)) (sizes : Nat) (life : List (List Byte)) (dimms : List Dimm)
  /-- ENUMERATE_PORT_STEP (R398): Enumeration of a port ends on no link at 50 ms, 150 ms of quiet or 3 s, and
    moves to the next port. -/
  | enumeratePortStep (dt : Nat) (port : Fin 64) (loopOf : Option (Fin 64))
  /-- DEFAULT_WAIT_EXPIRY (R401): DEFAULT_WAIT passes with no doorbell and default behaviour starts. -/
  | defaultWaitExpiry (dt : Nat)
  /-- CONTENT_CHANGE (R403): A content item's DURATION ends and a line-triggered commit shows the next item. -/
  | contentChange (dt : Nat)
  /-- VERSION (R405): The mailbox VERSION command returns the ROM version and image SEQ. -/
  | version (dt : Nat)
  /-- BOOT_STATUS (R405): The mailbox BOOT_STATUS command returns phases completed, failed sections and failed
    channels. -/
  | bootStatus (dt : Nat)
  /-- ENUMERATE (R405): The mailbox ENUMERATE command enumerates the masked ports under R398. -/
  | enumerate (dt : Nat)
  /-- AUTOMAP (R405): The mailbox AUTOMAP command commits the auto-map and default canvas and returns the Ward
    code. -/
  | automap (dt : Nat)
  /-- STOP_DEFAULT (R404): The mailbox STOP_DEFAULT command ends default behaviour and leaves registers as they
    stand. -/
  | stopDefault (dt : Nat)
  /-- START_DEFAULT (R405): The mailbox START_DEFAULT command starts default behaviour at once. -/
  | startDefault (dt : Nat)
  /-- RETRAIN (R405): The mailbox RETRAIN command runs a full training sweep and rewrites the cache. -/
  | retrain (dt : Nat) (dimms : List Dimm)
  /-- COMPOSITION_END (R65): The Tumblers of a canvas finish composing frame N, which lets its delivery start if
    L_(N−1) has passed and lets a held composition start go. -/
  | compositionEnd (dt : Nat) (cv : Fin 4)
  /-- HEAD_TIME_AT_PARTNER (R221): A head port's TIME frame arrives at its loop partner after passing every
    tile, proving the loop whole. -/
  | headTimeAtPartner (dt : Nat) (port : Fin 64) (frame : List Byte)
  /-- MEDIA_LINK_UP (R367): A media port's PCS aligns and its link comes up, setting MEDn.STAT.LINK_UP. -/
  | mediaLinkUp (dt : Nat) (port : Fin 2)
  /-- MEDIA_LINK_DOWN (R367): A media port's link goes down, setting MEDn.STAT.LINK_DOWN, and its flows stop
    arriving. -/
  | mediaLinkDown (dt : Nat) (port : Fin 2)
  /-- HASP_LINK_UP (R387): A Hasp port's lanes align and its FEC locks, setting HASPn.STAT.LINK_UP, so that the
    ring can close again. -/
  | haspLinkUp (dt : Nat) (port : Fin 2)
  /-- PERST_DEASSERT (R394): PERST# is deasserted, and PCIE.STAT.READY is set at the later of this and the end
    of bring-up phase 2. -/
  | perstDeassert (dt : Nat)
  /-- PCIE_LINK_UP (R363): The PCIe link finishes training and its data link comes up, setting PCIE.STAT.DL_UP,
    SPEED and WIDTH. -/
  | pcieLinkUp (dt : Nat) (speed : Nat) (width : Nat)
  /-- MSPI_CS_HIGH (R366): The management SPI CS rises, ending the transaction and discarding a partly received
    word with FRAME_ERR. -/
  | mspiCsHigh (dt : Nat) (bits : Nat)
  /-- SBUS_TRANSFER_DONE (R379): An I3C sideband transfer completes, setting SBUS.STAT.DONE or NACK and
    releasing a command that waited behind a polling transfer. -/
  | sbusTransferDone (dt : Nat) (data : Nat) (nack : Bool)
  /-- FLASH_FIFO_LEVEL (R295): A flash FIFO level request line (16 or 17) is asserted, letting a privileged DMA
    channel issue a space-2 unit. -/
  | flashFifoLevel (dt : Nat) (line : Fin 2)
  /-- FREF_RETURN (R361): The FREF house reference returns after having been absent, and PLL0 resumes tracking
    it. -/
  | frefReturn (dt : Nat)
  /-- GPIO_PULSE_END (R388): A FRAME_OUT pulse ends 1 µs after its latch, or a PPS pulse ends 100 µs after its
    whole second, and the pin falls. -/
  | gpioPulseEnd (dt : Nat) (pin : Fin 16)
  deriving DecidableEq, Repr

end Sys2Proof
end

