-- ==== Sys2Proof/Decode.lean ====
section
/-! DEFINITION. The command that a word of the table's bits spells. No row of the table gives bits to its command: a
command comes from outside as an event with its operands, and no word spells one. -/
namespace Sys2Proof

/-- The command that the `nbits` bits `_w` spell: none, as the table gives no row any bits. -/
def decodeTableWord (_nbits _w : Nat) : Option Instr := none

end Sys2Proof
end

