-- ==== Sys2Proof/Config.lean ====
section
/-! DEFINITION. What one implementation fixes and the spec leaves open: constants with no body, so that no
proof can see a value of them (the free values of the model). -/
namespace Sys2Proof

/-- The next free value: what a result the spec calls undefined, unspecified or does not state comes out as.
Applied to a counter in `State` that each use advances (notes/assumptions/4). -/
opaque Config.freeValue : Nat → Nat

/-- R63: the 64-bit die serial number, fused at manufacture (notes/assumptions/5). -/
opaque Config.serial : BitVec 64

/-- R140: the signal value from which on a faithfully rounded transfer function returns the upper of the two L20
codes that enclose the exact result, per function and lower code: any threshold is faithful and monotone
(notes/assumptions/6). -/
opaque Config.upFrom : Nat → Nat → Nat

/-- R405: the version of the Turnkey's ROM (notes/assumptions/4). -/
opaque Config.romVersion : BitVec 32

/-- R363: where a register of a PCIe capability lies in configuration space: 0 MSI-X Message Control, 1 the Resizable BAR
control register of BAR2 (notes/assumptions/96). -/
opaque Config.capAt : Nat → Nat

end Sys2Proof
end

