-- ==== Sys2Proof/Machine/RegMap.lean ====
section
/-! DEFINITION. The register map: every page kind, register and field of the device (R44, R64 and the
field maps R40, R62, R63, R84, R110, R129, R130, R155-R157, R175, R193, R194, R226, R228, R252, R253,
R282-R284, R303, R304, R325, R326, R345, R346, R361, R362, R363-R389, R406). -/
namespace Sys2Proof.Machine

/-- R47: how a field answers reads and writes. -/
inductive Access | rw | ro | rc | wm | w1p
  deriving DecidableEq, Repr

/-- R49: when a write takes effect (LK is a flag of the field). -/
inductive TimingClass | im | sl | sf
  deriving DecidableEq, Repr

/-- A field map row: bits [hi:lo], access kind, class, LK, and the values its field map accepts
(an empty list accepts every value; any other value is "discarded", R46). -/
structure Field where
  hi  : Nat
  lo  : Nat
  acc : Access
  cls : TimingClass
  lk  : Bool
  ok  : List (Nat × Nat)
  deriving DecidableEq, Repr

/-- A register: offset within its page, how many instances at which stride, reset word, fields. -/
structure RegDef where
  off    : Nat
  count  : Nat
  stride : Nat
  reset  : Nat
  fields : List Field
  deriving DecidableEq, Repr

/-- The kinds of page of R64. -/
inductive PageKind
  | dev | latch | ward | keep | fault | time | pll | mbox | sens | cv | cvc | lay | coef | tone | tmb | lamp | vault | scn | prt | sched | ttbl | mc | mem | mtrn | dmag | dma | med | flow | ptp | pcie | mspi | xspi | sbus | hasp | gpio
  deriving DecidableEq, Repr

/-- The kind and instance of a page number, and the first page of its kind; none: not implemented (R41, R64). -/
def pageKind (page : Nat) : Option (PageKind × Nat) :=
  if page = 0x0 then some (.dev, page - 0x0)
  else if page = 0x1 then some (.latch, page - 0x1)
  else if page = 0x2 then some (.ward, page - 0x2)
  else if page = 0x3 then some (.keep, page - 0x3)
  else if page = 0x4 then some (.fault, page - 0x4)
  else if page = 0x5 then some (.time, page - 0x5)
  else if page = 0x6 then some (.pll, page - 0x6)
  else if page = 0x7 then some (.mbox, page - 0x7)
  else if page = 0x8 then some (.sens, page - 0x8)
  else if 0x10 ≤ page ∧ page < 0x14 then some (.cv, page - 0x10)
  else if 0x18 ≤ page ∧ page < 0x1C then some (.cvc, page - 0x18)
  else if 0x20 ≤ page ∧ page < 0x60 then some (.lay, page - 0x20)
  else if 0x60 ≤ page ∧ page < 0x68 then some (.coef, page - 0x60)
  else if page = 0x68 then some (.tone, page - 0x68)
  else if 0x70 ≤ page ∧ page < 0x79 then some (.tmb, page - 0x70)
  else if page = 0x80 then some (.lamp, page - 0x80)
  else if page = 0x88 then some (.vault, page - 0x88)
  else if 0x90 ≤ page ∧ page < 0x94 then some (.scn, page - 0x90)
  else if 0xA0 ≤ page ∧ page < 0xE0 then some (.prt, page - 0xA0)
  else if page = 0xE0 then some (.sched, page - 0xE0)
  else if page = 0xE8 then some (.ttbl, page - 0xE8)
  else if 0x100 ≤ page ∧ page < 0x108 then some (.mc, page - 0x100)
  else if page = 0x108 then some (.mem, page - 0x108)
  else if page = 0x109 then some (.mtrn, page - 0x109)
  else if page = 0x110 then some (.dmag, page - 0x110)
  else if 0x140 ≤ page ∧ page < 0x180 then some (.dma, page - 0x140)
  else if 0x180 ≤ page ∧ page < 0x182 then some (.med, page - 0x180)
  else if page = 0x182 then some (.flow, page - 0x182)
  else if page = 0x183 then some (.ptp, page - 0x183)
  else if page = 0x188 then some (.pcie, page - 0x188)
  else if page = 0x189 then some (.mspi, page - 0x189)
  else if page = 0x18A then some (.xspi, page - 0x18A)
  else if page = 0x18B then some (.sbus, page - 0x18B)
  else if 0x18C ≤ page ∧ page < 0x18E then some (.hasp, page - 0x18C)
  else if page = 0x18E then some (.gpio, page - 0x18E)
  else none

/-- The first page of a kind: PG_ID.TYPE (R44). -/
def firstPage : PageKind → Nat
  | .dev => 0x0
  | .latch => 0x1
  | .ward => 0x2
  | .keep => 0x3
  | .fault => 0x4
  | .time => 0x5
  | .pll => 0x6
  | .mbox => 0x7
  | .sens => 0x8
  | .cv => 0x10
  | .cvc => 0x18
  | .lay => 0x20
  | .coef => 0x60
  | .tone => 0x68
  | .tmb => 0x70
  | .lamp => 0x80
  | .vault => 0x88
  | .scn => 0x90
  | .prt => 0xA0
  | .sched => 0xE0
  | .ttbl => 0xE8
  | .mc => 0x100
  | .mem => 0x108
  | .mtrn => 0x109
  | .dmag => 0x110
  | .dma => 0x140
  | .med => 0x180
  | .flow => 0x182
  | .ptp => 0x183
  | .pcie => 0x188
  | .mspi => 0x189
  | .xspi => 0x18A
  | .sbus => 0x18B
  | .hasp => 0x18C
  | .gpio => 0x18E

/-- A field that accepts every value, class IM. -/
def fi (hi lo : Nat) (acc : Access) : Field := ⟨hi, lo, acc, .im, false, []⟩
/-- A field with class, lock flag and accepted values. -/
def fx (hi lo : Nat) (acc : Access) (cls : TimingClass) (lk : Bool) (ok : List (Nat × Nat)) : Field :=
  ⟨hi, lo, acc, cls, lk, ok⟩

/-- The registers of the DEV page (R63). -/
def regsDev : List RegDef := [
  ⟨0x040, 1, 4, 0x8240B000, [fi 31 0 .ro]⟩,
  ⟨0x044, 1, 4, 0x0, [fi 31 0 .ro]⟩,
  ⟨0x048, 1, 4, 0x0, [fi 31 0 .ro]⟩,
  ⟨0x04C, 1, 4, 0x0, [fi 0 0 .w1p]⟩,
  ⟨0x050, 1, 4, 0x0, [fi 0 0 .rc, fi 1 1 .rc]⟩,
  ⟨0x054, 1, 4, 0x0, [fi 27 0 .ro]⟩,
  ⟨0x058, 1, 4, 0x0, [fi 27 0 .rw]⟩,
  ⟨0x080, 28, 4, 0x0, [fi 6 0 .rw, fi 8 8 .rw]⟩]

/-- The registers of the LATCH page (R62). -/
def regsLatch : List RegDef := [
  ⟨0x040, 1, 4, 0x0, [fi 15 0 .w1p]⟩,
  ⟨0x044, 1, 4, 0x0, [fi 0 0 .rw, fi 1 1 .rw, fi 2 2 .rw]⟩,
  ⟨0x048, 1, 4, 0x0, [fi 0 0 .rc, fi 1 1 .rc, fi 2 2 .rc, fi 3 3 .rc,
      fi 4 4 .rc, fi 5 5 .rc, fi 6 6 .rc]⟩,
  ⟨0x04C, 1, 4, 0x0, [fi 15 0 .ro]⟩,
  ⟨0x050, 1, 4, 0x0, [fi 15 0 .ro]⟩,
  ⟨0x054, 1, 4, 0x0, [fi 15 0 .ro]⟩,
  ⟨0x060, 16, 4, 0x0, [fi 1 0 .rw, fi 15 2 .rw, fi 16 16 .rw]⟩,
  ⟨0x0A0, 4, 16, 0x0, [fi 31 0 .rw]⟩,
  ⟨0x0A4, 4, 16, 0x0, [fi 31 0 .rw]⟩,
  ⟨0x0A8, 4, 16, 0x0, [fi 15 0 .rw, fi 31 31 .rw]⟩,
  ⟨0x0E0, 4, 4, 0x0, [fi 15 0 .rw, fi 17 16 .rw, fi 31 31 .rw]⟩]

/-- The registers of the WARD page (R40). -/
def regsWard : List RegDef := [
  ⟨0x040, 1, 4, 0xA, [fx 0 0 .wm .im true [], fi 1 1 .wm, fi 2 2 .wm, fi 3 3 .wm]⟩,
  ⟨0x044, 1, 4, 0x46, [fx 6 0 .rw .im true [(50, 80)]]⟩,
  ⟨0x048, 1, 4, 0x32, [fx 9 0 .rw .im false [(0, 500)]]⟩,
  ⟨0x04C, 1, 4, 0xFA0, [fx 15 0 .rw .im false [(2000, 65535)]]⟩,
  ⟨0x050, 1, 4, 0x0, [fi 3 0 .ro, fi 6 4 .ro, fi 15 8 .ro, fi 16 16 .ro,
      fi 20 17 .ro, fi 31 31 .ro]⟩,
  ⟨0x054, 1, 4, 0x0, [fi 15 0 .ro]⟩,
  ⟨0x058, 1, 4, 0x0, [fi 0 0 .rc, fi 1 1 .rc, fi 2 2 .rc, fi 3 3 .rc,
      fi 4 4 .rc, fi 5 5 .rc, fi 6 6 .rc, fi 7 7 .rc,
      fi 8 8 .rc]⟩,
  ⟨0x05C, 1, 4, 0x0, [fi 31 0 .rw]⟩,
  ⟨0x060, 1, 4, 0x0, [fi 31 0 .rw]⟩,
  ⟨0x064, 1, 4, 0x0, [fi 31 0 .rw]⟩,
  ⟨0x068, 1, 4, 0x0, [fi 31 0 .ro]⟩,
  ⟨0x06C, 1, 4, 0x0, [fi 31 0 .ro]⟩,
  ⟨0x070, 1, 4, 0x0, [fi 3 0 .ro]⟩,
  ⟨0x074, 1, 4, 0x0, [fi 31 0 .ro]⟩,
  ⟨0x078, 1, 4, 0x0, [fi 12 0 .ro]⟩,
  ⟨0x07C, 1, 4, 0xF, [fi 3 0 .ro]⟩,
  ⟨0x080, 1, 4, 0x4844, [fi 15 0 .ro]⟩,
  ⟨0x084, 1, 4, 0x0, [fi 15 0 .ro]⟩,
  ⟨0x088, 1, 4, 0x8, [fi 3 0 .ro]⟩,
  ⟨0x08C, 1, 4, 0x0, [fi 31 0 .ro]⟩,
  ⟨0x090, 4, 4, 0x0, [fi 31 0 .ro]⟩,
  ⟨0x0A0, 9, 4, 0x0, [fi 13 0 .ro, fi 27 14 .ro, fi 29 28 .ro, fi 31 31 .ro]⟩,
  ⟨0x0C4, 1, 4, 0x0, [fi 5 0 .rw]⟩,
  ⟨0x0C8, 1, 4, 0x0, [fi 9 0 .ro]⟩,
  ⟨0x0D0, 8, 4, 0x0, [fi 15 0 .ro, fi 31 16 .ro]⟩]

/-- The registers of the KEEP page (R325). -/
def regsKeep : List RegDef := [
  ⟨0x040, 1, 4, 0x0, [fi 0 0 .rw, fi 1 1 .rw, fi 2 2 .rw, fi 3 3 .rw,
      fi 4 4 .rw, fi 5 5 .rw, fi 6 6 .rw, fi 7 7 .rw]⟩,
  ⟨0x044, 1, 4, 0x50, [fx 6 0 .rw .im true []]⟩,
  ⟨0x048, 1, 4, 0x5050, [fi 6 0 .ro, fi 14 8 .ro]⟩,
  ⟨0x04C, 1, 4, 0x0, [fi 8 0 .ro, fi 19 16 .ro, fi 22 20 .ro, fi 31 31 .ro]⟩,
  ⟨0x050, 1, 4, 0x0, [fi 1 0 .ro, fi 2 2 .ro, fi 6 4 .ro]⟩,
  ⟨0x054, 1, 4, 0x0, [fx 15 0 .rw .sf false []]⟩,
  ⟨0x058, 1, 4, 0x4844, [fx 15 0 .rw .im true [(1000, 18500)]]⟩,
  ⟨0x05C, 1, 4, 0x73, [fx 7 0 .rw .im true [(95, 115)]]⟩,
  ⟨0x060, 1, 4, 0x0, [fx 7 0 .rw .sf false [], fx 15 8 .rw .sf false [], fx 23 16 .rw .sf false [], fx 31 24 .rw .sf false []]⟩,
  ⟨0x064, 1, 4, 0x0, [fx 15 0 .rw .sf false [], fx 23 16 .rw .sf false [], fx 24 24 .rw .sf false []]⟩,
  ⟨0x068, 1, 4, 0x0, [fi 31 0 .ro]⟩,
  ⟨0x06C, 1, 4, 0x0, [fi 0 0 .rc, fi 1 1 .rc, fi 2 2 .rc, fi 3 3 .rc,
      fi 4 4 .rc, fi 5 5 .rc, fi 6 6 .rc, fi 7 7 .rc,
      fi 8 8 .rc, fi 9 9 .rc, fi 10 10 .rc, fi 11 11 .rc,
      fi 12 12 .rc, fi 13 13 .rc, fi 14 14 .rc, fi 15 15 .rc,
      fi 16 16 .rc]⟩,
  ⟨0x070, 1, 4, 0x0, [fi 31 0 .ro]⟩,
  ⟨0x074, 1, 4, 0x0, [fi 20 0 .ro]⟩,
  ⟨0x080, 1, 4, 0x0, [fx 6 0 .rw .im false [(0, 67)], fi 7 7 .rw]⟩,
  ⟨0x084, 1, 4, 0x0, [fx 31 0 .rw .sf false []]⟩]

/-- The registers of the FAULT page (R345). -/
def regsFault : List RegDef := [
  ⟨0x040, 1, 4, 0x0, [fi 9 0 .rw, fi 10 10 .rw, fi 11 11 .rw, fi 12 12 .rw,
      fi 13 13 .rw, fi 31 22 .rw]⟩,
  ⟨0x044, 1, 4, 0x0, [fi 0 0 .rc, fi 1 1 .rc, fi 2 2 .rc, fi 3 3 .rc,
      fi 4 4 .rc, fi 5 5 .rc, fi 6 6 .rc, fi 7 7 .rc,
      fi 8 8 .rc, fi 9 9 .rc]⟩,
  ⟨0x048, 1, 4, 0x0, [fi 31 0 .rw]⟩,
  ⟨0x04C, 1, 4, 0x0, [fi 7 0 .rw, fi 9 8 .rw, fi 10 10 .rw, fi 31 24 .ro]⟩,
  ⟨0x050, 1, 4, 0x0, [fi 31 0 .ro]⟩,
  ⟨0x054, 1, 4, 0x0, [fx 2 0 .rw .im false [(0, 6)], fi 14 8 .rw]⟩,
  ⟨0x058, 1, 4, 0x0, [fi 15 0 .ro, fi 16 16 .ro, fi 17 17 .ro, fi 18 18 .ro,
      fi 19 19 .ro, fi 26 20 .ro, fi 31 31 .ro]⟩,
  ⟨0x05C, 1, 4, 0x0, [fx 15 0 .rw .im true [(1, 65535)]]⟩,
  ⟨0x060, 1, 4, 0x0, [fx 19 0 .rw .im true [(1, 1048575)]]⟩,
  ⟨0x064, 1, 4, 0x7F, [fi 6 0 .ro, fi 14 8 .ro, fi 22 16 .ro]⟩,
  ⟨0x068, 1, 4, 0x3000A, [fi 9 0 .rw, fi 16 16 .rw, fi 17 17 .rw, fi 24 24 .w1p,
      fi 31 31 .ro]⟩]

/-- The registers of the TIME page (R362). -/
def regsTime : List RegDef := [
  ⟨0x040, 1, 4, 0x0, [fi 31 0 .ro]⟩,
  ⟨0x044, 1, 4, 0x0, [fi 31 0 .ro]⟩,
  ⟨0x048, 1, 4, 0x0, [fi 31 0 .rw]⟩,
  ⟨0x04C, 1, 4, 0x0, [fi 31 0 .rw]⟩,
  ⟨0x050, 1, 4, 0x16404, [fi 0 0 .rw, fi 1 1 .rw, fi 2 2 .rw, fi 3 3 .rw,
      fx 15 8 .rw .im false [(1, 255)], fx 23 16 .rw .im false [(1, 255)]]⟩,
  ⟨0x054, 1, 4, 0x0, [fi 0 0 .rc, fi 1 1 .rc, fi 2 2 .rc, fi 3 3 .rc,
      fi 4 4 .rc, fi 5 5 .rc, fi 27 27 .ro, fi 28 28 .ro,
      fi 29 29 .ro, fi 30 30 .ro, fi 31 31 .ro]⟩,
  ⟨0x058, 1, 4, 0x0, [fi 15 0 .ro, fi 16 16 .ro, fi 17 17 .ro, fi 31 31 .ro]⟩,
  ⟨0x05C, 1, 4, 0x0, [fx 11 0 .rw .im false [(0, 900), (3196, 4095)]]⟩,
  ⟨0x060, 1, 4, 0x0, [fi 4 0 .ro, fi 8 5 .ro, fi 11 9 .ro, fi 27 12 .ro]⟩,
  ⟨0x064, 1, 4, 0x0, [fi 5 0 .ro, fi 11 6 .ro, fi 16 12 .ro, fi 26 17 .ro]⟩,
  ⟨0x068, 1, 4, 0x8013, [fi 1 0 .rw, fi 4 4 .rw, fi 15 8 .rw]⟩]

/-- The registers of the PLL page (R361). -/
def regsPll : List RegDef := [
  ⟨0x040, 4, 32, 0x0, [fi 1 0 .rw, fi 3 2 .rw, fi 4 4 .rw, fi 5 5 .rw,
      fi 8 8 .ro]⟩,
  ⟨0x044, 4, 32, 0x0, [fx 0 0 .rw .im true [], fx 5 2 .rw .im true [(1, 15)], fx 15 6 .rw .im true [(16, 1023)], fx 31 16 .rw .im true []]⟩,
  ⟨0x048, 4, 32, 0x18001800, [fx 7 0 .rw .im false [(1, 255)], fi 11 8 .rw, fi 12 12 .rw, fi 13 13 .ro,
      fx 23 16 .rw .im false [(1, 255)], fi 27 24 .rw, fi 28 28 .rw, fi 29 29 .ro]⟩,
  ⟨0x04C, 4, 32, 0x40000000, [fi 0 0 .rc, fi 1 1 .rc, fi 2 2 .rc, fi 3 3 .rc,
      fi 4 4 .rc, fi 5 5 .rc, fi 6 6 .rc, fi 28 28 .ro,
      fi 29 29 .ro, fi 30 30 .ro]⟩,
  ⟨0x050, 4, 32, 0x0, [fi 7 0 .rw, fi 15 8 .rw, fi 31 31 .rw]⟩,
  ⟨0x054, 4, 32, 0x1F00, [fx 0 0 .rw .im true [], fx 1 1 .rw .im true [], fx 5 2 .rw .im true [], fx 15 8 .rw .im true [(30, 33)]]⟩]

/-- The registers of the MBOX page (R406). -/
def regsMbox : List RegDef := [
  ⟨0x040, 1, 4, 0x0, [fi 0 0 .w1p]⟩,
  ⟨0x044, 1, 4, 0x0, [fi 0 0 .rc, fi 1 1 .rc, fi 2 2 .rc, fi 3 3 .rc,
      fi 15 8 .ro, fi 23 16 .ro, fi 30 30 .ro, fi 31 31 .ro]⟩,
  ⟨0x080, 32, 4, 0x0, [fi 31 0 .rw]⟩,
  ⟨0x100, 32, 4, 0x0, [fi 31 0 .ro]⟩]

/-- The registers of the SENS page (R326). -/
def regsSens : List RegDef := [
  ⟨0x040, 1, 4, 0x0, [fi 15 0 .ro, fi 21 16 .ro]⟩,
  ⟨0x044, 1, 4, 0x0, [fx 5 0 .rw .im false [(0, 39)]]⟩,
  ⟨0x048, 1, 4, 0x0, [fi 15 0 .ro, fi 31 31 .ro]⟩,
  ⟨0x04C, 1, 4, 0x0, [fi 15 0 .ro]⟩,
  ⟨0x050, 1, 4, 0x0, [fi 15 0 .ro]⟩,
  ⟨0x054, 1, 4, 0x0, [fi 15 0 .ro]⟩,
  ⟨0x058, 1, 4, 0x0, [fi 0 0 .rc, fi 1 1 .rc, fi 2 2 .rc, fi 3 3 .rc,
      fi 4 4 .rc]⟩]

/-- The registers of the CV page (R84). -/
def regsCv : List RegDef := [
  ⟨0x040, 1, 4, 0x0, [fx 0 0 .rw .sf false [], fx 1 1 .rw .sf false [], fx 2 2 .rw .sf false [], fx 3 3 .rw .sf false []]⟩,
  ⟨0x044, 1, 4, 0x0, [fx 15 0 .rw .sf false [], fx 31 16 .rw .sf false []]⟩,
  ⟨0x048, 1, 4, 0xFE502B, [fx 25 0 .rw .sf false [(4166666, 41708334)]]⟩,
  ⟨0x04C, 1, 4, 0xFE502B, [fx 25 0 .rw .sf false [(4166666, 41708334)]]⟩,
  ⟨0x050, 1, 4, 0x3D090, [fx 20 0 .rw .sf false [(20000, 2000000)]]⟩,
  ⟨0x054, 1, 4, 0x0, [fx 2 0 .rw .sf false [(0, 3)], fx 6 3 .rw .sf false [], fx 10 7 .rw .sf false [], fx 13 11 .rw .sf false [],
      fx 31 16 .rw .sf false []]⟩,
  ⟨0x058, 1, 4, 0x4, [fx 3 0 .rw .im false [(3, 15)]]⟩,
  ⟨0x05C, 1, 4, 0x0, [fi 0 0 .w1p]⟩,
  ⟨0x060, 1, 4, 0x0, [fi 31 0 .ro]⟩,
  ⟨0x064, 1, 4, 0x0, [fi 31 0 .ro]⟩,
  ⟨0x068, 1, 4, 0x0, [fi 31 0 .ro]⟩,
  ⟨0x06C, 1, 4, 0x0, [fi 0 0 .rc, fi 1 1 .rc, fi 2 2 .rc, fi 3 3 .rc,
      fi 4 4 .rc, fi 5 5 .rc, fi 6 6 .rc, fi 7 7 .rc,
      fi 8 8 .rc, fi 9 9 .rc, fi 10 10 .rc, fi 11 11 .rc,
      fi 29 29 .ro, fi 30 30 .ro, fi 31 31 .ro]⟩,
  ⟨0x070, 1, 4, 0x0, [fi 31 0 .rw]⟩,
  ⟨0x074, 1, 4, 0x0, [fi 31 0 .rw]⟩,
  ⟨0x078, 1, 4, 0x0, [fi 15 0 .ro]⟩]

/-- The registers of the CVC page (R157). -/
def regsCvc : List RegDef := [
  ⟨0x040, 1, 4, 0x0, [fx 0 0 .rw .sl false [], fx 1 1 .rw .sl false []]⟩,
  ⟨0x044, 9, 4, 0x0, [fx 31 0 .rw .sl false []]⟩,
  ⟨0x068, 1, 4, 0x0, [fx 15 0 .rw .sl false []]⟩,
  ⟨0x06C, 1, 4, 0x0, [fx 1 0 .rw .sl false [(0, 2)], fx 2 2 .rw .sl false [], fx 6 4 .rw .sl false [(0, 6)], fx 31 16 .rw .sl false []]⟩,
  ⟨0x070, 1, 4, 0x0, [fi 10 0 .rw, fi 11 11 .rw, fi 16 16 .rw]⟩,
  ⟨0x074, 1, 4, 0x0, [fi 15 0 .rw]⟩,
  ⟨0x078, 1, 4, 0x0, [fx 0 0 .rw .sl false [], fi 1 1 .ro, fi 3 2 .ro]⟩]

/-- The registers of the LAY page (R110, R129, R155). -/
def regsLay : List RegDef := [
  ⟨0x040, 1, 4, 0x0, [fx 0 0 .rw .sf false [], fx 2 1 .rw .sf false [], fx 3 3 .rw .sf false [], fx 7 4 .rw .sf false [],
      fx 13 8 .rw .sf false []]⟩,
  ⟨0x044, 1, 4, 0x0, [fx 7 0 .rw .sf false []]⟩,
  ⟨0x048, 1, 4, 0x1, [fx 1 0 .rw .sf false [(0, 2)]]⟩,
  ⟨0x04C, 1, 4, 0x0, [fx 1 0 .rw .sf false [(0, 1)], fx 7 2 .rw .sf false [], fx 15 8 .rw .sf false []]⟩,
  ⟨0x050, 1, 4, 0x0, [fx 31 6 .rw .sf false []]⟩,
  ⟨0x054, 1, 4, 0x0, [fx 8 0 .rw .sf false []]⟩,
  ⟨0x058, 1, 4, 0x0, [fx 31 6 .rw .sf false []]⟩,
  ⟨0x05C, 1, 4, 0x0, [fx 8 0 .rw .sf false []]⟩,
  ⟨0x060, 1, 4, 0x0, [fx 23 6 .rw .sf false []]⟩,
  ⟨0x064, 1, 4, 0x0, [fx 23 6 .rw .sf false []]⟩,
  ⟨0x068, 1, 4, 0x0, [fx 15 0 .rw .sf false [], fx 31 16 .rw .sf false []]⟩,
  ⟨0x06C, 1, 4, 0x0, [fx 15 0 .rw .sf false [], fx 31 16 .rw .sf false []]⟩,
  ⟨0x070, 1, 4, 0x0, [fx 15 0 .rw .sf false [], fx 31 16 .rw .sf false []]⟩,
  ⟨0x074, 1, 4, 0x0, [fx 15 0 .rw .sl false [], fx 31 16 .rw .sl false []]⟩,
  ⟨0x078, 1, 4, 0x0, [fx 15 0 .rw .sl false [], fx 31 16 .rw .sl false []]⟩,
  ⟨0x07C, 1, 4, 0x3, [fx 1 0 .rw .sf false [], fx 2 2 .rw .sf false [], fx 3 3 .rw .sf false [], fx 6 4 .rw .sf false [],
      fx 8 8 .rw .sf false [], fx 9 9 .rw .sf false [], fx 11 10 .rw .sf false [(0, 2)], fx 12 12 .rw .sf false []]⟩,
  ⟨0x080, 1, 4, 0x0, [fx 15 0 .rw .sf false []]⟩,
  ⟨0x084, 1, 4, 0x0, [fx 15 0 .rw .sf false []]⟩,
  ⟨0x088, 1, 4, 0x0, [fx 23 0 .rw .sf false []]⟩,
  ⟨0x08C, 1, 4, 0x0, [fx 23 0 .rw .sf false []]⟩,
  ⟨0x090, 1, 4, 0x0, [fx 0 0 .rw .sf false [], fx 3 1 .rw .sf false [(0, 4)], fx 6 4 .rw .sf false [], fx 10 8 .rw .sf false [(0, 4)],
      fx 31 16 .rw .sf false [(0, 10000)]]⟩,
  ⟨0x094, 1, 4, 0x0, [fx 1 0 .rw .sf false [(0, 2)], fx 7 4 .rw .sf false []]⟩,
  ⟨0x098, 1, 4, 0x0, [fx 1 0 .rw .sf false [(0, 2)], fx 6 4 .rw .sf false []]⟩,
  ⟨0x09C, 1, 4, 0x0, [fx 15 0 .rw .sl false []]⟩,
  ⟨0x0A0, 1, 4, 0x0, [fx 1 0 .rw .sl false [(0, 1)], fx 2 2 .rw .sl false []]⟩,
  ⟨0x0A4, 1, 4, 0x0, [fx 9 0 .rw .sl false [], fx 19 10 .rw .sl false [], fx 29 20 .rw .sl false [], fx 30 30 .rw .sl false []]⟩,
  ⟨0x0A8, 1, 4, 0x0, [fx 3 0 .rw .sf false [], fx 5 4 .rw .sf false [(0, 2)]]⟩,
  ⟨0x0AC, 1, 4, 0x0, [fi 1 0 .ro, fi 2 2 .ro, fi 3 3 .ro, fi 4 4 .ro,
      fi 31 31 .ro]⟩,
  ⟨0x0B0, 1, 4, 0x0, [fi 0 0 .rc, fi 1 1 .rc, fi 2 2 .rc, fi 3 3 .rc,
      fi 4 4 .rc, fi 5 5 .rc, fi 6 6 .rc, fi 7 7 .rc,
      fi 8 8 .rc, fi 9 9 .rc, fi 10 10 .rc, fi 11 11 .rc,
      fi 28 28 .ro, fi 29 29 .ro, fi 30 30 .ro, fi 31 31 .ro]⟩]

/-- The registers of the COEF page (R130). -/
def regsCoef : List RegDef := [
  ⟨0x040, 1, 4, 0x0, [fx 0 0 .rw .sf false []]⟩,
  ⟨0x044, 1, 4, 0x10800, [fi 10 0 .rw, fi 11 11 .rw, fi 16 16 .rw]⟩,
  ⟨0x048, 1, 4, 0x0, [fi 11 0 .rw]⟩,
  ⟨0x04C, 1, 4, 0x0, [fi 0 0 .ro, fi 1 1 .ro, fi 3 2 .ro, fi 4 4 .ro]⟩]

/-- The registers of the TONE page (R156). -/
def regsTone : List RegDef := [
  ⟨0x040, 1, 4, 0x0, [fx 4 0 .rw .im false [(0, 23)]]⟩,
  ⟨0x044, 1, 4, 0x0, [fi 10 0 .rw, fi 11 11 .rw, fi 16 16 .rw]⟩,
  ⟨0x048, 1, 4, 0x0, [fi 19 0 .rw]⟩,
  ⟨0x04C, 1, 4, 0x0, [fx 23 0 .rw .sf false []]⟩,
  ⟨0x050, 1, 4, 0x0, [fi 1 0 .ro, fi 2 2 .ro, fi 3 3 .ro]⟩]

/-- The registers of the TMB page (R346). -/
def regsTmb : List RegDef := [
  ⟨0x040, 1, 4, 0x0, [fi 0 0 .ro, fi 1 1 .ro, fi 2 2 .ro, fi 3 3 .ro,
      fi 4 4 .ro, fi 5 5 .ro, fi 11 8 .ro, fi 29 16 .ro]⟩,
  ⟨0x044, 1, 4, 0x1000, [fx 0 0 .rw .sf false [], fx 15 8 .rw .sf false [(1, 255)]]⟩,
  ⟨0x048, 1, 4, 0x0, [fi 31 0 .ro]⟩,
  ⟨0x04C, 1, 4, 0x0, [fi 31 0 .rw]⟩,
  ⟨0x050, 1, 4, 0x0, [fi 0 0 .rc, fi 1 1 .rc, fi 2 2 .rc, fi 3 3 .rc,
      fi 11 8 .ro, fi 29 16 .ro]⟩]

/-- The registers of the LAMP page (R175). -/
def regsLamp : List RegDef := [
  ⟨0x040, 1, 4, 0x0, [fx 5 0 .rw .sf false [], fx 11 6 .rw .sf false [], fx 17 12 .rw .sf false [], fx 23 18 .rw .sf false [],
      fx 24 24 .rw .sf false [], fx 25 25 .rw .sf false [], fx 26 26 .rw .sf false [], fx 27 27 .rw .sf false [],
      fx 29 28 .rw .sf false [(0, 2)]]⟩,
  ⟨0x044, 1, 4, 0x0, [fx 31 6 .rw .sf false []]⟩,
  ⟨0x048, 1, 4, 0x0, [fx 8 0 .rw .sf false []]⟩,
  ⟨0x04C, 1, 4, 0x0, [fx 31 6 .rw .sf false []]⟩,
  ⟨0x050, 1, 4, 0x0, [fx 8 0 .rw .sf false []]⟩,
  ⟨0x054, 1, 4, 0xFA0, [fx 15 0 .rw .im false [(1000, 60000)]]⟩,
  ⟨0x058, 1, 4, 0x80000000, [fi 25 0 .ro, fi 30 30 .ro, fi 31 31 .ro]⟩,
  ⟨0x05C, 1, 4, 0x3C0, [fi 0 0 .rw, fi 1 1 .rw, fi 2 2 .rw, fi 3 3 .rw,
      fx 11 4 .rw .im false [(10, 240)], fi 21 12 .rw, fi 31 22 .rw]⟩,
  ⟨0x060, 1, 4, 0x0, [fi 0 0 .rc, fi 1 1 .rc, fi 2 2 .rc, fi 3 3 .rc,
      fi 4 4 .rc, fi 5 5 .rc, fi 6 6 .rc, fi 7 7 .rc,
      fi 8 8 .rc, fi 9 9 .rc, fi 10 10 .rc, fi 29 29 .ro,
      fi 30 30 .ro, fi 31 31 .ro]⟩,
  ⟨0x064, 1, 4, 0x0, [fi 31 0 .ro]⟩,
  ⟨0x068, 1, 4, 0x0, [fi 31 0 .ro]⟩]

/-- The registers of the VAULT page (R193). -/
def regsVault : List RegDef := [
  ⟨0x040, 1, 4, 0x103C3, [fx 0 0 .rw .im true [], fx 1 1 .rw .im true [], fx 11 4 .rw .im true [(10, 255)], fx 16 16 .rw .im true []]⟩,
  ⟨0x044, 4, 4, 0x0, [fi 12 0 .ro, fi 28 16 .ro, fi 29 29 .ro, fi 30 30 .ro,
      fi 31 31 .ro]⟩,
  ⟨0x054, 1, 4, 0x8000, [fi 7 0 .ro, fi 15 8 .ro, fi 22 16 .ro, fi 30 30 .ro,
      fi 31 31 .ro]⟩,
  ⟨0x058, 1, 4, 0x0, [fi 31 0 .rw]⟩,
  ⟨0x05C, 1, 4, 0x0, [fi 0 0 .rw, fi 2 1 .rw, fi 4 3 .rw]⟩,
  ⟨0x060, 1, 4, 0x0, [fi 0 0 .rc, fi 1 1 .rc, fi 2 2 .rc, fi 3 3 .rc,
      fi 4 4 .rc, fi 5 5 .rc, fi 30 30 .ro]⟩]

/-- The registers of the SCN page (R194). -/
def regsScn : List RegDef := [
  ⟨0x040, 1, 4, 0x16, [fx 0 0 .rw .sf false [], fx 1 1 .rw .sf false [], fx 2 2 .rw .sf false [], fx 5 3 .rw .sf false [],
      fi 6 6 .rw]⟩,
  ⟨0x044, 1, 4, 0x0, [fx 31 0 .rw .sf false []]⟩,
  ⟨0x048, 1, 4, 0x0, [fx 31 0 .rw .sf false []]⟩,
  ⟨0x04C, 1, 4, 0x40, [fx 10 0 .rw .sf false [(8, 1024)]]⟩,
  ⟨0x050, 1, 4, 0x0, [fx 31 6 .rw .sf false []]⟩,
  ⟨0x054, 1, 4, 0x0, [fx 8 0 .rw .sf false []]⟩,
  ⟨0x058, 1, 4, 0x0, [fx 0 0 .rw .sf false [], fx 4 1 .rw .sf false [], fi 27 24 .ro, fi 31 31 .ro]⟩,
  ⟨0x05C, 1, 4, 0x0, [fi 31 0 .rw]⟩,
  ⟨0x060, 1, 4, 0x0, [fi 31 0 .rw]⟩,
  ⟨0x064, 1, 4, 0x0, [fi 0 0 .rc, fi 1 1 .rc, fi 2 2 .rc, fi 3 3 .rc,
      fi 4 4 .rc, fi 5 5 .rc, fi 6 6 .rc, fi 7 7 .rc,
      fi 8 8 .rc]⟩]

/-- The registers of the PRT page (R226, R253). -/
def regsPrt : List RegDef := [
  ⟨0x040, 1, 4, 0x1F40806, [fi 0 0 .rw, fi 1 1 .rw, fi 2 2 .rw, fi 3 3 .rw,
      fx 15 8 .rw .im false [(1, 255)], fx 27 16 .rw .im false [(50, 4095)], fi 31 28 .rw]⟩,
  ⟨0x044, 1, 4, 0x2, [fx 1 0 .rw .sf false [(0, 2)], fx 2 2 .rw .sf false [], fx 3 3 .rw .sf false []]⟩,
  ⟨0x048, 1, 4, 0x0, [fi 0 0 .rc, fi 1 1 .rc, fi 2 2 .rc, fi 3 3 .rc,
      fi 4 4 .rc, fi 5 5 .rc, fi 6 6 .rc, fi 7 7 .rc,
      fi 8 8 .rc, fi 9 9 .rc, fi 10 10 .rc, fi 11 11 .rc,
      fi 12 12 .rc, fi 13 13 .rc, fi 14 14 .rc]⟩,
  ⟨0x04C, 1, 4, 0x0, [fi 0 0 .ro, fi 1 1 .ro, fi 2 2 .ro, fi 3 3 .ro,
      fi 4 4 .ro, fi 15 8 .ro, fi 31 16 .ro]⟩,
  ⟨0x050, 1, 4, 0x600, [fi 5 0 .rw, fi 8 8 .rw, fi 9 9 .rw, fi 10 10 .rw]⟩,
  ⟨0x054, 1, 4, 0x10000, [fi 7 0 .rw, fi 8 8 .rw, fi 16 16 .rw]⟩,
  ⟨0x058, 1, 4, 0xFFFFFFFF, [fi 7 0 .rw, fx 30 8 .rw .im false [(16, 8388607)], fi 31 31 .rw]⟩,
  ⟨0x05C, 1, 4, 0x0, [fx 31 0 .rw .sf false []]⟩,
  ⟨0x060, 1, 4, 0x0, [fx 31 0 .rw .sf false []]⟩,
  ⟨0x064, 1, 4, 0xF4240, [fx 26 0 .rw .sf false [(1000, 100000000)]]⟩,
  ⟨0x068, 1, 4, 0x0, [fi 0 0 .w1p, fi 31 31 .ro]⟩,
  ⟨0x070, 8, 4, 0x0, [fx 1 0 .rw .sf false [(1, 2)], fx 15 8 .rw .sf false [(1, 255)], fx 23 16 .rw .sf false [], fx 24 24 .rw .sf false [],
      fx 25 25 .rw .sf false []]⟩,
  ⟨0x090, 1, 4, 0x50000000, [fx 7 0 .rw .sf false [], fx 15 8 .rw .sf false [], fx 21 16 .rw .sf false [], fx 27 22 .rw .sf false [],
      fx 31 28 .rw .sf false []]⟩,
  ⟨0x094, 1, 4, 0x2001F4, [fx 15 0 .rw .im false [(1, 65535)], fx 23 16 .rw .im false [(1, 255)]]⟩,
  ⟨0x098, 1, 4, 0x0, [fi 31 0 .rw]⟩,
  ⟨0x09C, 1, 4, 0x0, [fi 31 0 .rw]⟩,
  ⟨0x0A0, 1, 4, 0x0, [fi 31 0 .rw]⟩]

/-- The registers of the SCHED page (R252). -/
def regsSched : List RegDef := [
  ⟨0x040, 1, 4, 0x0, [fi 0 0 .rw, fi 1 1 .rw, fi 2 2 .rw, fi 3 3 .rw]⟩,
  ⟨0x044, 1, 4, 0x88B5, [fx 15 0 .rw .im true [(1536, 33023), (33025, 34983), (34985, 65535)]]⟩,
  ⟨0x048, 1, 4, 0x0, [fi 0 0 .rc, fi 1 1 .rc, fi 2 2 .rc, fi 3 3 .rc,
      fi 4 4 .rc]⟩,
  ⟨0x04C, 1, 4, 0x0, [fi 31 0 .rw]⟩,
  ⟨0x050, 1, 4, 0x2003E8, [fi 15 0 .rw, fx 23 16 .rw .im false [(1, 255)]]⟩,
  ⟨0x054, 1, 4, 0x0, [fi 11 0 .rw, fi 12 12 .rw]⟩,
  ⟨0x058, 1, 4, 0x0, [fx 15 0 .rw .sf false [], fx 31 16 .rw .sf false []]⟩,
  ⟨0x05C, 1, 4, 0x0, [fi 5 0 .rw, fi 8 6 .rw, fi 11 9 .rw, fi 16 16 .w1p]⟩,
  ⟨0x060, 1, 4, 0x0, [fi 31 0 .ro]⟩]

/-- The registers of the TTBL page (R228). -/
def regsTtbl : List RegDef := [
  ⟨0x040, 1, 4, 0x0, [fi 11 0 .rw, fx 14 12 .rw .im false [(0, 4)]]⟩,
  ⟨0x044, 16, 4, 0x0, [fi 31 0 .rw]⟩,
  ⟨0x084, 1, 4, 0x0, [fi 0 0 .w1p, fi 1 1 .w1p, fi 2 2 .w1p, fi 3 3 .w1p,
      fi 4 4 .w1p, fi 5 5 .w1p, fi 6 6 .w1p, fi 7 7 .w1p]⟩,
  ⟨0x088, 1, 4, 0x0, [fi 0 0 .rc, fi 1 1 .rc, fi 2 2 .rc, fi 3 3 .rc,
      fi 4 4 .rc, fi 31 31 .ro]⟩,
  ⟨0x08C, 1, 4, 0x0, [fi 7 0 .ro, fi 31 31 .ro]⟩]

/-- The registers of the MC page (R282). -/
def regsMc : List RegDef := [
  ⟨0x040, 1, 4, 0x43081000, [fi 0 0 .rw, fi 1 1 .rw, fi 15 8 .rw, fx 19 16 .rw .im false [(1, 15)],
      fx 25 20 .rw .im false [(2, 63)], fi 31 26 .rw]⟩,
  ⟨0x044, 1, 4, 0x0, [fi 3 0 .ro, fi 7 4 .ro, fi 19 8 .ro, fi 20 20 .ro,
      fi 21 21 .ro, fi 22 22 .ro, fi 31 31 .ro]⟩,
  ⟨0x048, 1, 4, 0x40, [fx 2 0 .rw .im true [], fx 3 3 .rw .im true [], fx 7 4 .rw .im true [(1, 15)]]⟩,
  ⟨0x04C, 1, 4, 0x5512, [fi 0 0 .rw, fi 1 1 .rw, fi 5 2 .rw, fx 15 8 .rw .im false [(70, 95)]]⟩,
  ⟨0x050, 1, 4, 0x64FF00, [fi 0 0 .rw, fi 1 1 .rw, fi 15 8 .rw, fx 31 16 .rw .im false [(1, 65535)]]⟩,
  ⟨0x054, 1, 4, 0x0, [fi 2 0 .ro, fi 3 3 .ro, fi 7 4 .ro, fi 15 8 .ro,
      fi 31 16 .ro]⟩,
  ⟨0x058, 1, 4, 0x0, [fi 31 0 .rw]⟩,
  ⟨0x05C, 1, 4, 0x0, [fi 31 0 .rw]⟩,
  ⟨0x060, 1, 4, 0x0, [fi 31 0 .rw]⟩,
  ⟨0x064, 1, 4, 0x0, [fi 2 0 .ro, fi 5 3 .ro, fi 6 6 .ro, fi 7 7 .ro,
      fi 8 8 .ro, fi 29 12 .ro]⟩,
  ⟨0x068, 1, 4, 0xFCA76634, [fi 31 0 .rw]⟩,
  ⟨0x06C, 1, 4, 0x0, [fi 0 0 .rc, fi 1 1 .rc, fi 2 2 .rc, fi 3 3 .rc,
      fi 4 4 .rc, fi 5 5 .rc, fi 6 6 .rc, fi 7 7 .rc,
      fi 8 8 .rc, fi 9 9 .rc, fi 10 10 .rc, fi 11 11 .rc]⟩]

/-- The registers of the MEM page (R283). -/
def regsMem : List RegDef := [
  ⟨0x040, 1, 4, 0x4, [fx 1 0 .rw .im true [(0, 2)], fx 2 2 .rw .im true []]⟩,
  ⟨0x044, 1, 4, 0x3, [fx 0 0 .rw .im true [], fx 1 1 .rw .im true []]⟩,
  ⟨0x048, 4, 4, 0x0, [fx 7 0 .rw .im true [], fx 18 8 .rw .im true [], fx 29 19 .rw .im true [], fx 31 31 .rw .im true []]⟩,
  ⟨0x058, 1, 4, 0xA40700, [fi 1 0 .rw, fi 2 2 .rw, fi 3 3 .rw, fi 11 8 .rw,
      fx 17 16 .rw .im false [(0, 2)], fx 19 18 .rw .im false [(0, 2)], fx 21 20 .rw .im false [(0, 2)], fx 23 22 .rw .im false [(0, 2)]]⟩,
  ⟨0x05C, 1, 4, 0x0, [fi 1 0 .ro, fi 2 2 .ro, fi 6 4 .ro, fi 31 16 .ro]⟩,
  ⟨0x060, 1, 4, 0x1801, [fi 0 0 .rw, fx 15 8 .rw .im false [(1, 255)]]⟩,
  ⟨0x064, 1, 4, 0x0, [fi 31 0 .rw]⟩,
  ⟨0x068, 1, 4, 0x0, [fi 0 0 .rc, fi 1 1 .rc, fi 2 2 .rc, fi 3 3 .rc,
      fi 4 4 .rc]⟩]

/-- The registers of the MTRN page (R284). -/
def regsMtrn : List RegDef := [
  ⟨0x040, 1, 4, 0x100, [fi 0 0 .rw, fx 3 1 .rw .im false [(0, 4)], fx 15 8 .rw .im false [(1, 255)]]⟩,
  ⟨0x044, 1, 4, 0x0, [fi 2 0 .rw, fi 3 3 .rw, fi 6 4 .rw, fi 9 7 .rw,
      fi 11 10 .rw, fi 29 12 .rw]⟩,
  ⟨0x048, 1, 4, 0x0, [fi 31 0 .rw]⟩,
  ⟨0x04C, 1, 4, 0x0, [fi 9 0 .ro, fi 27 16 .ro, fi 30 30 .ro, fi 31 31 .ro]⟩,
  ⟨0x050, 1, 4, 0x0, [fi 2 0 .rw, fi 3 3 .rw, fi 5 4 .rw, fi 8 6 .rw,
      fi 12 9 .rw, fx 15 13 .rw .im false [(0, 5)]]⟩,
  ⟨0x054, 1, 4, 0x0, [fx 9 0 .rw .im true []]⟩,
  ⟨0x058, 1, 4, 0x0, [fx 31 0 .rw .im true []]⟩]

/-- The registers of the DMAG page (R303). -/
def regsDmag : List RegDef := [
  ⟨0x040, 1, 4, 0x2, [fx 3 0 .rw .im false [(0, 8)], fi 4 4 .rw]⟩,
  ⟨0x044, 1, 4, 0x0, [fi 0 0 .rc, fi 1 1 .rc, fi 2 2 .rc, fi 3 3 .rc,
      fi 4 4 .rc]⟩,
  ⟨0x048, 1, 4, 0x3, [fi 3 0 .rw]⟩,
  ⟨0x04C, 1, 4, 0x0, [fi 5 0 .rw, fi 7 6 .rw, fx 23 8 .rw .im false [(1, 65535)], fi 25 24 .w1p,
      fi 29 26 .ro, fi 31 31 .ro]⟩,
  ⟨0x050, 1, 4, 0x200, [fi 7 0 .ro, fi 15 8 .ro, fi 21 16 .ro, fi 31 31 .ro]⟩,
  ⟨0x080, 16, 4, 0x0, [fi 29 0 .rw, fi 31 31 .rw]⟩]

/-- The registers of the DMA page (R304). -/
def regsDma : List RegDef := [
  ⟨0x040, 1, 4, 0x0, [fi 0 0 .rw, fi 1 1 .rw, fi 2 2 .ro]⟩,
  ⟨0x044, 1, 4, 0x0, [fi 0 0 .rc, fi 1 1 .rc, fi 2 2 .rc, fi 3 3 .rc,
      fi 4 4 .rc, fi 5 5 .rc, fi 6 6 .rc, fi 7 7 .rc,
      fi 8 8 .rc, fi 9 9 .rc, fi 10 10 .rc, fi 11 11 .rc,
      fi 12 12 .rc, fi 19 16 .ro, fi 22 20 .ro, fi 31 24 .ro]⟩,
  ⟨0x048, 1, 4, 0x0, [fi 31 6 .rw]⟩,
  ⟨0x04C, 1, 4, 0x0, [fi 31 0 .rw]⟩,
  ⟨0x050, 1, 4, 0x0, [fi 31 6 .rw]⟩,
  ⟨0x054, 1, 4, 0x0, [fi 31 0 .rw]⟩,
  ⟨0x058, 1, 4, 0x0, [fi 0 0 .wm, fi 1 1 .ro]⟩,
  ⟨0x05C, 1, 4, 0x0, [fi 31 0 .ro]⟩,
  ⟨0x060, 1, 4, 0x0, [fi 31 0 .rw]⟩,
  ⟨0x064, 1, 4, 0x0, [fi 0 0 .w1p]⟩,
  ⟨0x068, 1, 4, 0x0, [fi 0 0 .w1p]⟩,
  ⟨0x06C, 1, 4, 0x0, [fx 2 0 .rw .im false [(0, 3)], fi 8 3 .rw, fi 9 9 .rw]⟩]

/-- The registers of the MED page (R373). -/
def regsMed : List RegDef := [
  ⟨0x040, 1, 4, 0x2, [fi 0 0 .rw, fi 1 1 .rw, fi 2 2 .rw]⟩,
  ⟨0x044, 1, 4, 0x0, [fi 0 0 .rc, fi 1 1 .rc, fi 2 2 .rc, fi 3 3 .rc]⟩,
  ⟨0x048, 1, 4, 0x0, [fi 0 0 .ro, fi 1 1 .ro, fi 2 2 .ro]⟩,
  ⟨0x04C, 1, 4, 0x0, [fi 31 0 .rw]⟩,
  ⟨0x050, 1, 4, 0x0, [fi 31 0 .rw]⟩,
  ⟨0x054, 1, 4, 0x0, [fi 31 0 .rw]⟩]

/-- The registers of the FLOW page (R373). -/
def regsFlow : List RegDef := [
  ⟨0x040, 1, 4, 0x0, [fx 4 0 .rw .im false [(0, 17)]]⟩,
  ⟨0x044, 16, 4, 0x0, [fi 31 0 .rw]⟩,
  ⟨0x084, 1, 4, 0x0, [fi 0 0 .w1p, fi 1 1 .w1p]⟩,
  ⟨0x088, 1, 4, 0x0, [fi 0 0 .rc, fi 1 1 .rc, fi 2 2 .rc, fi 3 3 .rc,
      fi 4 4 .rc, fi 5 5 .rc, fi 6 6 .rc]⟩]

/-- The registers of the PTP page (R375). -/
def regsPtp : List RegDef := [
  ⟨0x040, 1, 4, 0x500, [fi 0 0 .rw, fx 2 1 .rw .im false [(0, 2)], fi 3 3 .rw, fi 11 8 .rw]⟩,
  ⟨0x044, 1, 4, 0x7F, [fi 7 0 .rw]⟩,
  ⟨0x048, 1, 4, 0x0, [fi 0 0 .rc, fi 1 1 .rc, fi 2 2 .rc, fi 31 31 .ro]⟩,
  ⟨0x04C, 1, 4, 0x0, [fi 31 0 .ro]⟩,
  ⟨0x050, 1, 4, 0x0, [fi 31 0 .ro]⟩,
  ⟨0x054, 1, 4, 0x0, [fi 31 0 .ro]⟩]

/-- The registers of the PCIE page (R365). -/
def regsPcie : List RegDef := [
  ⟨0x040, 1, 4, 0x0, [fi 2 0 .ro, fi 7 4 .ro, fi 8 8 .ro, fi 9 9 .ro,
      fi 15 12 .ro, fi 16 16 .ro]⟩,
  ⟨0x044, 1, 4, 0xB, [fx 3 0 .rw .im true [(0, 11)], fx 18 8 .rw .im true []]⟩,
  ⟨0x048, 1, 4, 0x0, [fi 31 0 .rw]⟩,
  ⟨0x04C, 1, 4, 0x0, [fi 0 0 .rw]⟩]

/-- The registers of the MSPI page (R366). -/
def regsMspi : List RegDef := [
  ⟨0x040, 1, 4, 0x1, [fi 0 0 .rw]⟩,
  ⟨0x044, 1, 4, 0x0, [fi 0 0 .rc, fi 1 1 .rc]⟩]

/-- The registers of the XSPI page (R377). -/
def regsXspi : List RegDef := [
  ⟨0x040, 1, 4, 0x0, [fi 0 0 .rw, fi 1 1 .rw, fi 2 2 .rw, fi 15 8 .rw]⟩,
  ⟨0x044, 1, 4, 0x221, [fx 1 0 .rw .im true [(0, 1)], fx 3 2 .rw .im true [(0, 2)], fx 7 4 .rw .im true [(1, 8)], fx 11 8 .rw .im true [(1, 8)],
      fi 19 16 .ro, fi 23 20 .ro, fi 28 24 .ro]⟩,
  ⟨0x048, 1, 4, 0x0, [fi 31 0 .rw]⟩,
  ⟨0x04C, 1, 4, 0x0, [fx 23 0 .rw .im false [(1, 16777215)]]⟩,
  ⟨0x050, 1, 4, 0x0, [fi 0 0 .w1p, fi 1 1 .w1p, fi 2 2 .w1p, fi 3 3 .w1p]⟩,
  ⟨0x054, 1, 4, 0x0, [fi 0 0 .rc, fi 1 1 .rc, fi 2 2 .rc, fi 3 3 .rc,
      fi 4 4 .rc, fi 31 31 .ro]⟩,
  ⟨0x058, 1, 4, 0x0, [fi 31 0 .rw]⟩]

/-- The registers of the SBUS page (R379). -/
def regsSbus : List RegDef := [
  ⟨0x040, 1, 4, 0x80000, [fi 1 0 .rw, fi 2 2 .rw, fi 4 3 .rw, fi 15 8 .rw,
      fi 17 16 .rw, fi 18 18 .rw, fi 19 19 .rw]⟩,
  ⟨0x044, 1, 4, 0x0, [fi 0 0 .rc, fi 1 1 .rc, fi 2 2 .rc, fi 3 3 .rc,
      fi 31 31 .ro]⟩,
  ⟨0x048, 1, 4, 0x0, [fi 0 0 .w1p, fi 1 1 .w1p]⟩,
  ⟨0x04C, 1, 4, 0x0, [fi 31 0 .rw]⟩,
  ⟨0x060, 8, 4, 0x0, [fi 15 0 .ro, fi 31 31 .ro]⟩]

/-- The registers of the HASP page (R387). -/
def regsHasp : List RegDef := [
  ⟨0x040, 1, 4, 0x802, [fi 0 0 .rw, fi 1 1 .rw, fi 2 2 .rw, fx 15 8 .rw .im false [(6, 255)]]⟩,
  ⟨0x044, 1, 4, 0x0, [fi 0 0 .rc, fi 1 1 .rc, fi 2 2 .rc, fi 3 3 .rc,
      fi 4 4 .rc, fi 5 5 .rc, fi 6 6 .rc]⟩,
  ⟨0x048, 1, 4, 0x0, [fi 0 0 .ro, fi 11 8 .ro, fi 12 12 .ro, fi 31 16 .ro]⟩,
  ⟨0x04C, 1, 4, 0x0, [fi 3 0 .ro, fi 4 4 .ro, fi 31 16 .ro]⟩,
  ⟨0x050, 1, 4, 0x30, [fi 3 0 .ro, fi 6 4 .ro, fi 31 31 .ro]⟩,
  ⟨0x054, 1, 4, 0x0, [fi 20 2 .rw, fi 27 24 .rw]⟩,
  ⟨0x058, 1, 4, 0x0, [fi 31 0 .rw]⟩,
  ⟨0x05C, 1, 4, 0x0, [fi 0 0 .w1p, fi 1 1 .w1p]⟩,
  ⟨0x060, 1, 4, 0x0, [fi 31 0 .rw]⟩]

/-- The registers of the GPIO page (R389). -/
def regsGpio : List RegDef := [
  ⟨0x040, 1, 4, 0x0, [fi 15 0 .rw]⟩,
  ⟨0x044, 1, 4, 0x0, [fi 15 0 .wm]⟩,
  ⟨0x048, 1, 4, 0x0, [fi 15 0 .ro]⟩,
  ⟨0x04C, 1, 4, 0x0, [fx 3 0 .rw .im false [(0, 8)], fx 7 4 .rw .im false [(0, 8)], fx 11 8 .rw .im false [(0, 8)], fx 15 12 .rw .im false [(0, 8)],
      fx 19 16 .rw .im false [(0, 8)], fx 23 20 .rw .im false [(0, 8)], fx 27 24 .rw .im false [(0, 8)], fx 31 28 .rw .im false [(0, 8)]]⟩,
  ⟨0x050, 1, 4, 0x67000000, [fx 3 0 .rw .im false [(0, 8)], fx 7 4 .rw .im false [(0, 8)], fx 11 8 .rw .im false [(0, 8)], fx 15 12 .rw .im false [(0, 8)],
      fx 19 16 .rw .im false [(0, 8)], fx 23 20 .rw .im false [(0, 8)], fx 27 24 .rw .im false [(0, 8)], fx 31 28 .rw .im false [(0, 8)]]⟩,
  ⟨0x054, 1, 4, 0x0, [fi 7 0 .ro]⟩,
  ⟨0x058, 1, 4, 0x0, [fi 15 0 .rc]⟩]

/-- The registers that the field maps list for a page kind, after the header. -/
def regDefs : PageKind → List RegDef
  | .dev => regsDev
  | .latch => regsLatch
  | .ward => regsWard
  | .keep => regsKeep
  | .fault => regsFault
  | .time => regsTime
  | .pll => regsPll
  | .mbox => regsMbox
  | .sens => regsSens
  | .cv => regsCv
  | .cvc => regsCvc
  | .lay => regsLay
  | .coef => regsCoef
  | .tone => regsTone
  | .tmb => regsTmb
  | .lamp => regsLamp
  | .vault => regsVault
  | .scn => regsScn
  | .prt => regsPrt
  | .sched => regsSched
  | .ttbl => regsTtbl
  | .mc => regsMc
  | .mem => regsMem
  | .mtrn => regsMtrn
  | .dmag => regsDmag
  | .dma => regsDma
  | .med => regsMed
  | .flow => regsFlow
  | .ptp => regsPtp
  | .pcie => regsPcie
  | .mspi => regsMspi
  | .xspi => regsXspi
  | .sbus => regsSbus
  | .hasp => regsHasp
  | .gpio => regsGpio

namespace Reg
/-- `DEV.ID` (R63). -/
abbrev devId : Nat := 0x40
/-- `DEV.SERIAL_LO` (R63). -/
abbrev devSerialLo : Nat := 0x44
/-- `DEV.SERIAL_HI` (R63). -/
abbrev devSerialHi : Nat := 0x48
/-- `DEV.SOFT_RESET` (R63). -/
abbrev devSoftReset : Nat := 0x4C
/-- `DEV.STAT` (R63). -/
abbrev devStat : Nat := 0x50
/-- `DEV.IRQ_STAT` (R63). -/
abbrev devIrqStat : Nat := 0x54
/-- `DEV.IRQ_EN` (R63). -/
abbrev devIrqEn : Nat := 0x58
/-- `DEV.IRQ_ROUTE` (R63). -/
abbrev devIrqRoute (k : Nat) : Nat := 0x80 + 4 * k
/-- `LATCH.FIRE` (R62). -/
abbrev latchFire : Nat := 0x1040
/-- `LATCH.CTRL` (R62). -/
abbrev latchCtrl : Nat := 0x1044
/-- `LATCH.STAT` (R62). -/
abbrev latchStat : Nat := 0x1048
/-- `LATCH.SEQ` (R62). -/
abbrev latchSeq : Nat := 0x104C
/-- `LATCH.HELD` (R62). -/
abbrev latchHeld : Nat := 0x1050
/-- `LATCH.PEND` (R62). -/
abbrev latchPend : Nat := 0x1054
/-- `LATCH.GCFG` (R62). -/
abbrev latchGcfg (k : Nat) : Nat := 0x1060 + 4 * k
/-- `LATCH.TT_LO` (R62). -/
abbrev latchTtLo (k : Nat) : Nat := 0x10A0 + 16 * k
/-- `LATCH.TT_HI` (R62). -/
abbrev latchTtHi (k : Nat) : Nat := 0x10A4 + 16 * k
/-- `LATCH.TT_CTRL` (R62). -/
abbrev latchTtCtrl (k : Nat) : Nat := 0x10A8 + 16 * k
/-- `LATCH.LT` (R62). -/
abbrev latchLt (k : Nat) : Nat := 0x10E0 + 4 * k
/-- `WARD.CTRL` (R40). -/
abbrev wardCtrl : Nat := 0x2040
/-- `WARD.CEIL` (R40). -/
abbrev wardCeil : Nat := 0x2044
/-- `WARD.RETX` (R40). -/
abbrev wardRetx : Nat := 0x2048
/-- `WARD.MARGIN` (R40). -/
abbrev wardMargin : Nat := 0x204C
/-- `WARD.VERDICT` (R40). -/
abbrev wardVerdict : Nat := 0x2050
/-- `WARD.VSEQ` (R40). -/
abbrev wardVseq : Nat := 0x2054
/-- `WARD.STAT` (R40). -/
abbrev wardStat : Nat := 0x2058
/-- `WARD.REFUSE_CNT` (R40). -/
abbrev wardRefuseCnt : Nat := 0x205C
/-- `WARD.SHED_CNT` (R40). -/
abbrev wardShedCnt : Nat := 0x2060
/-- `WARD.DEGR_CNT` (R40). -/
abbrev wardDegrCnt : Nat := 0x2064
/-- `WARD.SHED_LO` (R40). -/
abbrev wardShedLo : Nat := 0x2068
/-- `WARD.SHED_HI` (R40). -/
abbrev wardShedHi : Nat := 0x206C
/-- `WARD.SHED_CV` (R40). -/
abbrev wardShedCv : Nat := 0x2070
/-- `WARD.OPPT_LO` (R40). -/
abbrev wardOpptLo : Nat := 0x2074
/-- `WARD.OPPT_HI` (R40). -/
abbrev wardOpptHi : Nat := 0x2078
/-- `WARD.FSP_OK` (R40). -/
abbrev wardFspOk : Nat := 0x207C
/-- `WARD.PBUDGET` (R40). -/
abbrev wardPbudget : Nat := 0x2080
/-- `WARD.PDEMAND` (R40). -/
abbrev wardPdemand : Nat := 0x2084
/-- `WARD.TMB_AVAIL` (R40). -/
abbrev wardTmbAvail : Nat := 0x2088
/-- `WARD.EVAL_NS` (R40). -/
abbrev wardEvalNs : Nat := 0x208C
/-- `WARD.CVDEM` (R40). -/
abbrev wardCvdem (k : Nat) : Nat := 0x2090 + 4 * k
/-- `WARD.BAND` (R40). -/
abbrev wardBand (k : Nat) : Nat := 0x20A0 + 4 * k
/-- `WARD.PORT_SEL` (R40). -/
abbrev wardPortSel : Nat := 0x20C4
/-- `WARD.PORT_UTIL` (R40). -/
abbrev wardPortUtil : Nat := 0x20C8
/-- `WARD.CHDEM` (R40). -/
abbrev wardChdem (k : Nat) : Nat := 0x20D0 + 4 * k
/-- `KEEP.CTRL` (R325). -/
abbrev keepCtrl : Nat := 0x3040
/-- `KEEP.VCOMMIT` (R325). -/
abbrev keepVcommit : Nat := 0x3044
/-- `KEEP.VCORE` (R325). -/
abbrev keepVcore : Nat := 0x3048
/-- `KEEP.TMB_RUN` (R325). -/
abbrev keepTmbRun : Nat := 0x304C
/-- `KEEP.FSP` (R325). -/
abbrev keepFsp : Nat := 0x3050
/-- `KEEP.BUDGET` (R325). -/
abbrev keepBudget : Nat := 0x3054
/-- `KEEP.PLIMIT` (R325). -/
abbrev keepPlimit : Nat := 0x3058
/-- `KEEP.TLIMIT` (R325). -/
abbrev keepTlimit : Nat := 0x305C
/-- `KEEP.BRIGHT_CAP` (R325). -/
abbrev keepBrightCap : Nat := 0x3060
/-- `KEEP.ENERGY_DAY` (R325). -/
abbrev keepEnergyDay : Nat := 0x3064
/-- `KEEP.ENERGY_USED` (R325). -/
abbrev keepEnergyUsed : Nat := 0x3068
/-- `KEEP.STAT` (R325). -/
abbrev keepStat : Nat := 0x306C
/-- `KEEP.DOMAIN_LO` (R325). -/
abbrev keepDomainLo : Nat := 0x3070
/-- `KEEP.DOMAIN_HI` (R325). -/
abbrev keepDomainHi : Nat := 0x3074
/-- `KEEP.SCHED_IDX` (R325). -/
abbrev keepSchedIdx : Nat := 0x3080
/-- `KEEP.SCHED_DATA` (R325). -/
abbrev keepSchedData : Nat := 0x3084
/-- `FAULT.CTRL` (R345). -/
abbrev faultCtrl : Nat := 0x4040
/-- `FAULT.STAT` (R345). -/
abbrev faultStat : Nat := 0x4044
/-- `FAULT.LOCK_VIOL_COUNT` (R345). -/
abbrev faultLockViolCount : Nat := 0x4048
/-- `FAULT.JRNL_IDX` (R345). -/
abbrev faultJrnlIdx : Nat := 0x404C
/-- `FAULT.JRNL_DATA` (R345). -/
abbrev faultJrnlData : Nat := 0x4050
/-- `FAULT.RES_SEL` (R345). -/
abbrev faultResSel : Nat := 0x4054
/-- `FAULT.RES_CNT` (R345). -/
abbrev faultResCnt : Nat := 0x4058
/-- `FAULT.RES_BUDGET` (R345). -/
abbrev faultResBudget : Nat := 0x405C
/-- `FAULT.RES_LEAK` (R345). -/
abbrev faultResLeak : Nat := 0x4060
/-- `FAULT.SPARE_MAP` (R345). -/
abbrev faultSpareMap : Nat := 0x4064
/-- `FAULT.FAULT_N` (R345). -/
abbrev faultFaultN : Nat := 0x4068
/-- `TIME.NOW_LO` (R362). -/
abbrev timeNowLo : Nat := 0x5040
/-- `TIME.NOW_HI` (R362). -/
abbrev timeNowHi : Nat := 0x5044
/-- `TIME.SET_LO` (R362). -/
abbrev timeSetLo : Nat := 0x5048
/-- `TIME.SET_HI` (R362). -/
abbrev timeSetHi : Nat := 0x504C
/-- `TIME.CTRL` (R362). -/
abbrev timeCtrl : Nat := 0x5050
/-- `TIME.STAT` (R362). -/
abbrev timeStat : Nat := 0x5054
/-- `TIME.UTC_OFS` (R362). -/
abbrev timeUtcOfs : Nat := 0x5058
/-- `TIME.ZONE_OFS` (R362). -/
abbrev timeZoneOfs : Nat := 0x505C
/-- `TIME.CAL_DATE` (R362). -/
abbrev timeCalDate : Nat := 0x5060
/-- `TIME.CAL_TIME` (R362). -/
abbrev timeCalTime : Nat := 0x5064
/-- `TIME.SRC` (R362). -/
abbrev timeSrc : Nat := 0x5068
/-- `PLL.CTRL` (R361). -/
abbrev pllCtrl (k : Nat) : Nat := 0x6040 + 32 * k
/-- `PLL.PROF` (R361). -/
abbrev pllProf (k : Nat) : Nat := 0x6044 + 32 * k
/-- `PLL.DIV` (R361). -/
abbrev pllDiv (k : Nat) : Nat := 0x6048 + 32 * k
/-- `PLL.STAT` (R361). -/
abbrev pllStat (k : Nat) : Nat := 0x604C + 32 * k
/-- `PLL.BAND` (R361). -/
abbrev pllBand (k : Nat) : Nat := 0x6050 + 32 * k
/-- `PLL.SPREAD` (R361). -/
abbrev pllSpread (k : Nat) : Nat := 0x6054 + 32 * k
/-- `MBOX.DOORBELL` (R406). -/
abbrev mboxDoorbell : Nat := 0x7040
/-- `MBOX.STAT` (R406). -/
abbrev mboxStat : Nat := 0x7044
/-- `MBOX.REQ` (R406). -/
abbrev mboxReq (k : Nat) : Nat := 0x7080 + 4 * k
/-- `MBOX.RSP` (R406). -/
abbrev mboxRsp (k : Nat) : Nat := 0x7100 + 4 * k
/-- `SENS.TJ_MAX` (R326). -/
abbrev sensTjMax : Nat := 0x8040
/-- `SENS.TJ_SEL` (R326). -/
abbrev sensTjSel : Nat := 0x8044
/-- `SENS.TJ_VAL` (R326). -/
abbrev sensTjVal : Nat := 0x8048
/-- `SENS.VIN` (R326). -/
abbrev sensVin : Nat := 0x804C
/-- `SENS.IIN` (R326). -/
abbrev sensIin : Nat := 0x8050
/-- `SENS.PIN` (R326). -/
abbrev sensPin : Nat := 0x8054
/-- `SENS.STAT` (R326). -/
abbrev sensStat : Nat := 0x8058
/-- `CVn.MODE` (R84). -/
abbrev cvMode (n : Nat) : Nat := (0x10 + n) * 0x1000 + 0x40
/-- `CVn.SIZE` (R84). -/
abbrev cvSize (n : Nat) : Nat := (0x10 + n) * 0x1000 + 0x44
/-- `CVn.TMIN` (R84). -/
abbrev cvTmin (n : Nat) : Nat := (0x10 + n) * 0x1000 + 0x48
/-- `CVn.TMAX` (R84). -/
abbrev cvTmax (n : Nat) : Nat := (0x10 + n) * 0x1000 + 0x4C
/-- `CVn.LEAD` (R84). -/
abbrev cvLead (n : Nat) : Nat := (0x10 + n) * 0x1000 + 0x50
/-- `CVn.GENLOCK` (R84). -/
abbrev cvGenlock (n : Nat) : Nat := (0x10 + n) * 0x1000 + 0x54
/-- `CVn.HINGE_HOLD` (R84). -/
abbrev cvHingeHold (n : Nat) : Nat := (0x10 + n) * 0x1000 + 0x58
/-- `CVn.HINGE` (R84). -/
abbrev cvHinge (n : Nat) : Nat := (0x10 + n) * 0x1000 + 0x5C
/-- `CVn.FRAME_CNT` (R84). -/
abbrev cvFrameCnt (n : Nat) : Nat := (0x10 + n) * 0x1000 + 0x60
/-- `CVn.LAST_LATCH_LO` (R84). -/
abbrev cvLastLatchLo (n : Nat) : Nat := (0x10 + n) * 0x1000 + 0x64
/-- `CVn.LAST_LATCH_HI` (R84). -/
abbrev cvLastLatchHi (n : Nat) : Nat := (0x10 + n) * 0x1000 + 0x68
/-- `CVn.STAT` (R84). -/
abbrev cvStat (n : Nat) : Nat := (0x10 + n) * 0x1000 + 0x6C
/-- `CVn.UNDERRUN_CNT` (R84). -/
abbrev cvUnderrunCnt (n : Nat) : Nat := (0x10 + n) * 0x1000 + 0x70
/-- `CVn.ABORT_CNT` (R84). -/
abbrev cvAbortCnt (n : Nat) : Nat := (0x10 + n) * 0x1000 + 0x74
/-- `CVn.EPOCH` (R84). -/
abbrev cvEpoch (n : Nat) : Nat := (0x10 + n) * 0x1000 + 0x78
/-- `CVCn.CTRL` (R157). -/
abbrev cvcCtrl (n : Nat) : Nat := (0x18 + n) * 0x1000 + 0x40
/-- `CVCn.MTX` (R157). -/
abbrev cvcMtx (n k : Nat) : Nat := (0x18 + n) * 0x1000 + 0x44 + 4 * k
/-- `CVCn.BRIGHT` (R157). -/
abbrev cvcBright (n : Nat) : Nat := (0x18 + n) * 0x1000 + 0x68
/-- `CVCn.DITHER` (R157). -/
abbrev cvcDither (n : Nat) : Nat := (0x18 + n) * 0x1000 + 0x6C
/-- `CVCn.LUT_IDX` (R157). -/
abbrev cvcLutIdx (n : Nat) : Nat := (0x18 + n) * 0x1000 + 0x70
/-- `CVCn.LUT_DATA` (R157). -/
abbrev cvcLutData (n : Nat) : Nat := (0x18 + n) * 0x1000 + 0x74
/-- `CVCn.LUT_SEL` (R157). -/
abbrev cvcLutSel (n : Nat) : Nat := (0x18 + n) * 0x1000 + 0x78
/-- `LAYn.CTRL` (R110, R129, R155). -/
abbrev layCtrl (n : Nat) : Nat := (0x20 + n) * 0x1000 + 0x40
/-- `LAYn.PRIORITY` (R110, R129, R155). -/
abbrev layPriority (n : Nat) : Nat := (0x20 + n) * 0x1000 + 0x44
/-- `LAYn.NOT_READY` (R110, R129, R155). -/
abbrev layNotReady (n : Nat) : Nat := (0x20 + n) * 0x1000 + 0x48
/-- `LAYn.FENCE` (R110, R129, R155). -/
abbrev layFence (n : Nat) : Nat := (0x20 + n) * 0x1000 + 0x4C
/-- `LAYn.ADDR0_LO` (R110, R129, R155). -/
abbrev layAddr0Lo (n : Nat) : Nat := (0x20 + n) * 0x1000 + 0x50
/-- `LAYn.ADDR0_HI` (R110, R129, R155). -/
abbrev layAddr0Hi (n : Nat) : Nat := (0x20 + n) * 0x1000 + 0x54
/-- `LAYn.ADDR1_LO` (R110, R129, R155). -/
abbrev layAddr1Lo (n : Nat) : Nat := (0x20 + n) * 0x1000 + 0x58
/-- `LAYn.ADDR1_HI` (R110, R129, R155). -/
abbrev layAddr1Hi (n : Nat) : Nat := (0x20 + n) * 0x1000 + 0x5C
/-- `LAYn.PITCH0` (R110, R129, R155). -/
abbrev layPitch0 (n : Nat) : Nat := (0x20 + n) * 0x1000 + 0x60
/-- `LAYn.PITCH1` (R110, R129, R155). -/
abbrev layPitch1 (n : Nat) : Nat := (0x20 + n) * 0x1000 + 0x64
/-- `LAYn.SRC_SIZE` (R110, R129, R155). -/
abbrev laySrcSize (n : Nat) : Nat := (0x20 + n) * 0x1000 + 0x68
/-- `LAYn.CROP_POS` (R110, R129, R155). -/
abbrev layCropPos (n : Nat) : Nat := (0x20 + n) * 0x1000 + 0x6C
/-- `LAYn.CROP_SIZE` (R110, R129, R155). -/
abbrev layCropSize (n : Nat) : Nat := (0x20 + n) * 0x1000 + 0x70
/-- `LAYn.DST_POS` (R110, R129, R155). -/
abbrev layDstPos (n : Nat) : Nat := (0x20 + n) * 0x1000 + 0x74
/-- `LAYn.DST_SIZE` (R110, R129, R155). -/
abbrev layDstSize (n : Nat) : Nat := (0x20 + n) * 0x1000 + 0x78
/-- `LAYn.SCALE` (R110, R129, R155). -/
abbrev layScale (n : Nat) : Nat := (0x20 + n) * 0x1000 + 0x7C
/-- `LAYn.HPHASE` (R110, R129, R155). -/
abbrev layHphase (n : Nat) : Nat := (0x20 + n) * 0x1000 + 0x80
/-- `LAYn.VPHASE` (R110, R129, R155). -/
abbrev layVphase (n : Nat) : Nat := (0x20 + n) * 0x1000 + 0x84
/-- `LAYn.STEP_H` (R110, R129, R155). -/
abbrev layStepH (n : Nat) : Nat := (0x20 + n) * 0x1000 + 0x88
/-- `LAYn.STEP_V` (R110, R129, R155). -/
abbrev layStepV (n : Nat) : Nat := (0x20 + n) * 0x1000 + 0x8C
/-- `LAYn.COLOUR` (R110, R129, R155). -/
abbrev layColour (n : Nat) : Nat := (0x20 + n) * 0x1000 + 0x90
/-- `LAYn.TONE` (R110, R129, R155). -/
abbrev layTone (n : Nat) : Nat := (0x20 + n) * 0x1000 + 0x94
/-- `LAYn.GAMUT` (R110, R129, R155). -/
abbrev layGamut (n : Nat) : Nat := (0x20 + n) * 0x1000 + 0x98
/-- `LAYn.ALPHA` (R110, R129, R155). -/
abbrev layAlpha (n : Nat) : Nat := (0x20 + n) * 0x1000 + 0x9C
/-- `LAYn.BLEND` (R110, R129, R155). -/
abbrev layBlend (n : Nat) : Nat := (0x20 + n) * 0x1000 + 0xA0
/-- `LAYn.FILL` (R110, R129, R155). -/
abbrev layFill (n : Nat) : Nat := (0x20 + n) * 0x1000 + 0xA4
/-- `LAYn.FLOW` (R110, R129, R155). -/
abbrev layFlow (n : Nat) : Nat := (0x20 + n) * 0x1000 + 0xA8
/-- `LAYn.TAPS_USED` (R110, R129, R155). -/
abbrev layTapsUsed (n : Nat) : Nat := (0x20 + n) * 0x1000 + 0xAC
/-- `LAYn.STAT` (R110, R129, R155). -/
abbrev layStat (n : Nat) : Nat := (0x20 + n) * 0x1000 + 0xB0
/-- `COEFn.CTRL` (R130). -/
abbrev coefCtrl (n : Nat) : Nat := (0x60 + n) * 0x1000 + 0x40
/-- `COEFn.IDX` (R130). -/
abbrev coefIdx (n : Nat) : Nat := (0x60 + n) * 0x1000 + 0x44
/-- `COEFn.DATA` (R130). -/
abbrev coefData (n : Nat) : Nat := (0x60 + n) * 0x1000 + 0x48
/-- `COEFn.STAT` (R130). -/
abbrev coefStat (n : Nat) : Nat := (0x60 + n) * 0x1000 + 0x4C
/-- `TONE.SEL` (R156). -/
abbrev toneSel : Nat := 0x68040
/-- `TONE.IDX` (R156). -/
abbrev toneIdx : Nat := 0x68044
/-- `TONE.DATA` (R156). -/
abbrev toneData : Nat := 0x68048
/-- `TONE.BANK` (R156). -/
abbrev toneBank : Nat := 0x6804C
/-- `TONE.STAT` (R156). -/
abbrev toneStat : Nat := 0x68050
/-- `TMBn.STAT` (R346). -/
abbrev tmbStat (n : Nat) : Nat := (0x70 + n) * 0x1000 + 0x40
/-- `TMBn.CTRL` (R346). -/
abbrev tmbCtrl (n : Nat) : Nat := (0x70 + n) * 0x1000 + 0x44
/-- `TMBn.ERR_CNT` (R346). -/
abbrev tmbErrCnt (n : Nat) : Nat := (0x70 + n) * 0x1000 + 0x48
/-- `TMBn.LINES` (R346). -/
abbrev tmbLines (n : Nat) : Nat := (0x70 + n) * 0x1000 + 0x4C
/-- `TMBn.CHECK` (R346). -/
abbrev tmbCheck (n : Nat) : Nat := (0x70 + n) * 0x1000 + 0x50
/-- `LAMP.CTRL` (R175). -/
abbrev lampCtrl : Nat := 0x80040
/-- `LAMP.CAL_LO` (R175). -/
abbrev lampCalLo : Nat := 0x80044
/-- `LAMP.CAL_HI` (R175). -/
abbrev lampCalHi : Nat := 0x80048
/-- `LAMP.WEAR_LO` (R175). -/
abbrev lampWearLo : Nat := 0x8004C
/-- `LAMP.WEAR_HI` (R175). -/
abbrev lampWearHi : Nat := 0x80050
/-- `LAMP.WEAR_PERIOD` (R175). -/
abbrev lampWearPeriod : Nat := 0x80054
/-- `LAMP.SWEEP_POS` (R175). -/
abbrev lampSweepPos : Nat := 0x80058
/-- `LAMP.CKPT_CTRL` (R175). -/
abbrev lampCkptCtrl : Nat := 0x8005C
/-- `LAMP.CKPT_STAT` (R175). -/
abbrev lampCkptStat : Nat := 0x80060
/-- `LAMP.CKPT_LAST_LO` (R175). -/
abbrev lampCkptLastLo : Nat := 0x80064
/-- `LAMP.CKPT_LAST_HI` (R175). -/
abbrev lampCkptLastHi : Nat := 0x80068
/-- `VAULT.PART` (R193). -/
abbrev vaultPart : Nat := 0x88040
/-- `VAULT.BANK` (R193). -/
abbrev vaultBank (k : Nat) : Nat := 0x88044 + 4 * k
/-- `VAULT.SPARE_MAP` (R193). -/
abbrev vaultSpareMap : Nat := 0x88054
/-- `VAULT.ERR_CNT` (R193). -/
abbrev vaultErrCnt : Nat := 0x88058
/-- `VAULT.BAR4_BASE` (R193). -/
abbrev vaultBar4Base : Nat := 0x8805C
/-- `VAULT.STAT` (R193). -/
abbrev vaultStat : Nat := 0x88060
/-- `SCNn.CTRL` (R194). -/
abbrev scnCtrl (n : Nat) : Nat := (0x90 + n) * 0x1000 + 0x40
/-- `SCNn.PORTS_LO` (R194). -/
abbrev scnPortsLo (n : Nat) : Nat := (0x90 + n) * 0x1000 + 0x44
/-- `SCNn.PORTS_HI` (R194). -/
abbrev scnPortsHi (n : Nat) : Nat := (0x90 + n) * 0x1000 + 0x48
/-- `SCNn.LEAD_LINES` (R194). -/
abbrev scnLeadLines (n : Nat) : Nat := (0x90 + n) * 0x1000 + 0x4C
/-- `SCNn.CAPT_LO` (R194). -/
abbrev scnCaptLo (n : Nat) : Nat := (0x90 + n) * 0x1000 + 0x50
/-- `SCNn.CAPT_HI` (R194). -/
abbrev scnCaptHi (n : Nat) : Nat := (0x90 + n) * 0x1000 + 0x54
/-- `SCNn.CAPT_CTRL` (R194). -/
abbrev scnCaptCtrl (n : Nat) : Nat := (0x90 + n) * 0x1000 + 0x58
/-- `SCNn.CRC_ERR_CNT` (R194). -/
abbrev scnCrcErrCnt (n : Nat) : Nat := (0x90 + n) * 0x1000 + 0x5C
/-- `SCNn.RETX_CNT` (R194). -/
abbrev scnRetxCnt (n : Nat) : Nat := (0x90 + n) * 0x1000 + 0x60
/-- `SCNn.STAT` (R194). -/
abbrev scnStat (n : Nat) : Nat := (0x90 + n) * 0x1000 + 0x64
/-- `PRTn.CTRL` (R226, R253). -/
abbrev prtCtrl (n : Nat) : Nat := (0xA0 + n) * 0x1000 + 0x40
/-- `PRTn.MODE` (R226, R253). -/
abbrev prtMode (n : Nat) : Nat := (0xA0 + n) * 0x1000 + 0x44
/-- `PRTn.STAT` (R226, R253). -/
abbrev prtStat (n : Nat) : Nat := (0xA0 + n) * 0x1000 + 0x48
/-- `PRTn.LINK` (R226, R253). -/
abbrev prtLink (n : Nat) : Nat := (0xA0 + n) * 0x1000 + 0x4C
/-- `PRTn.LOOP` (R226, R253). -/
abbrev prtLoop (n : Nat) : Nat := (0xA0 + n) * 0x1000 + 0x50
/-- `PRTn.GATE_IDX` (R226, R253). -/
abbrev prtGateIdx (n : Nat) : Nat := (0xA0 + n) * 0x1000 + 0x54
/-- `PRTn.GATE_DATA` (R226, R253). -/
abbrev prtGateData (n : Nat) : Nat := (0xA0 + n) * 0x1000 + 0x58
/-- `PRTn.GATE_BASE_LO` (R226, R253). -/
abbrev prtGateBaseLo (n : Nat) : Nat := (0xA0 + n) * 0x1000 + 0x5C
/-- `PRTn.GATE_BASE_HI` (R226, R253). -/
abbrev prtGateBaseHi (n : Nat) : Nat := (0xA0 + n) * 0x1000 + 0x60
/-- `PRTn.GATE_CYCLE` (R226, R253). -/
abbrev prtGateCycle (n : Nat) : Nat := (0xA0 + n) * 0x1000 + 0x64
/-- `PRTn.GATE_CMD` (R226, R253). -/
abbrev prtGateCmd (n : Nat) : Nat := (0xA0 + n) * 0x1000 + 0x68
/-- `PRTn.LQ_CFG` (R226, R253). -/
abbrev prtLqCfg (n k : Nat) : Nat := (0xA0 + n) * 0x1000 + 0x70 + 4 * k
/-- `PRTn.SHAPE` (R226, R253). -/
abbrev prtShape (n : Nat) : Nat := (0xA0 + n) * 0x1000 + 0x90
/-- `PRTn.POLICE` (R226, R253). -/
abbrev prtPolice (n : Nat) : Nat := (0xA0 + n) * 0x1000 + 0x94
/-- `PRTn.TX_FRAMES` (R226, R253). -/
abbrev prtTxFrames (n : Nat) : Nat := (0xA0 + n) * 0x1000 + 0x98
/-- `PRTn.RX_FRAMES` (R226, R253). -/
abbrev prtRxFrames (n : Nat) : Nat := (0xA0 + n) * 0x1000 + 0x9C
/-- `PRTn.OVERSIZE_CNT` (R226, R253). -/
abbrev prtOversizeCnt (n : Nat) : Nat := (0xA0 + n) * 0x1000 + 0xA0
/-- `SCHED.CTRL` (R252). -/
abbrev schedCtrl : Nat := 0xE0040
/-- `SCHED.ETYPE` (R252). -/
abbrev schedEtype : Nat := 0xE0044
/-- `SCHED.STAT` (R252). -/
abbrev schedStat : Nat := 0xE0048
/-- `SCHED.LATE_START_CNT` (R252). -/
abbrev schedLateStartCnt : Nat := 0xE004C
/-- `SCHED.DISC_RATE` (R252). -/
abbrev schedDiscRate : Nat := 0xE0050
/-- `SCHED.SHAPER_IDX` (R252). -/
abbrev schedShaperIdx : Nat := 0xE0054
/-- `SCHED.SHAPER_DATA` (R252). -/
abbrev schedShaperData : Nat := 0xE0058
/-- `SCHED.QSAMPLE_SEL` (R252). -/
abbrev schedQsampleSel : Nat := 0xE005C
/-- `SCHED.QSAMPLE` (R252). -/
abbrev schedQsample : Nat := 0xE0060
/-- `TTBL.IDX` (R228). -/
abbrev ttblIdx : Nat := 0xE8040
/-- `TTBL.DATA` (R228). -/
abbrev ttblData (k : Nat) : Nat := 0xE8044 + 4 * k
/-- `TTBL.CMD` (R228). -/
abbrev ttblCmd : Nat := 0xE8084
/-- `TTBL.STAT` (R228). -/
abbrev ttblStat : Nat := 0xE8088
/-- `TTBL.CONFLICT` (R228). -/
abbrev ttblConflict : Nat := 0xE808C
/-- `MCn.CTRL` (R282). -/
abbrev mcCtrl (n : Nat) : Nat := (0x100 + n) * 0x1000 + 0x40
/-- `MCn.RANKS` (R282). -/
abbrev mcRanks (n : Nat) : Nat := (0x100 + n) * 0x1000 + 0x44
/-- `MCn.SPARE` (R282). -/
abbrev mcSpare (n : Nat) : Nat := (0x100 + n) * 0x1000 + 0x48
/-- `MCn.REFRESH` (R282). -/
abbrev mcRefresh (n : Nat) : Nat := (0x100 + n) * 0x1000 + 0x4C
/-- `MCn.SR_CTRL` (R282). -/
abbrev mcSrCtrl (n : Nat) : Nat := (0x100 + n) * 0x1000 + 0x50
/-- `MCn.SR_STAT` (R282). -/
abbrev mcSrStat (n : Nat) : Nat := (0x100 + n) * 0x1000 + 0x54
/-- `MCn.SR_ABORT_CNT` (R282). -/
abbrev mcSrAbortCnt (n : Nat) : Nat := (0x100 + n) * 0x1000 + 0x58
/-- `MCn.ECC_CE_CNT` (R282). -/
abbrev mcEccCeCnt (n : Nat) : Nat := (0x100 + n) * 0x1000 + 0x5C
/-- `MCn.ECC_UE_CNT` (R282). -/
abbrev mcEccUeCnt (n : Nat) : Nat := (0x100 + n) * 0x1000 + 0x60
/-- `MCn.MIGR_STAT` (R282). -/
abbrev mcMigrStat (n : Nat) : Nat := (0x100 + n) * 0x1000 + 0x64
/-- `MCn.LAT_TGT` (R282). -/
abbrev mcLatTgt (n : Nat) : Nat := (0x100 + n) * 0x1000 + 0x68
/-- `MCn.STAT` (R282). -/
abbrev mcStat (n : Nat) : Nat := (0x100 + n) * 0x1000 + 0x6C
/-- `MEM.MAP` (R283). -/
abbrev memMap : Nat := 0x108040
/-- `MEM.HASH` (R283). -/
abbrev memHash : Nat := 0x108044
/-- `MEM.ILV` (R283). -/
abbrev memIlv (k : Nat) : Nat := 0x108048 + 4 * k
/-- `MEM.FSP_CTRL` (R283). -/
abbrev memFspCtrl : Nat := 0x108058
/-- `MEM.FSP_STAT` (R283). -/
abbrev memFspStat : Nat := 0x10805C
/-- `MEM.SCRUB` (R283). -/
abbrev memScrub : Nat := 0x108060
/-- `MEM.POISON_CNT` (R283). -/
abbrev memPoisonCnt : Nat := 0x108064
/-- `MEM.STAT` (R283). -/
abbrev memStat : Nat := 0x108068
/-- `MTRN.CTRL` (R284). -/
abbrev mtrnCtrl : Nat := 0x109040
/-- `MTRN.SEL` (R284). -/
abbrev mtrnSel : Nat := 0x109044
/-- `MTRN.PATTERN` (R284). -/
abbrev mtrnPattern : Nat := 0x109048
/-- `MTRN.RESULT` (R284). -/
abbrev mtrnResult : Nat := 0x10904C
/-- `MTRN.DLY_IDX` (R284). -/
abbrev mtrnDlyIdx : Nat := 0x109050
/-- `MTRN.DLY_DATA` (R284). -/
abbrev mtrnDlyData : Nat := 0x109054
/-- `MTRN.TRAINED` (R284). -/
abbrev mtrnTrained : Nat := 0x109058
/-- `DMAG.CTRL` (R303). -/
abbrev dmagCtrl : Nat := 0x110040
/-- `DMAG.STAT` (R303). -/
abbrev dmagStat : Nat := 0x110044
/-- `DMAG.RETRY` (R303). -/
abbrev dmagRetry : Nat := 0x110048
/-- `DMAG.RSV_BW` (R303). -/
abbrev dmagRsvBw : Nat := 0x11004C
/-- `DMAG.SPARE_MAP` (R303). -/
abbrev dmagSpareMap : Nat := 0x110050
/-- `DMAG.TIMER` (R303). -/
abbrev dmagTimer (k : Nat) : Nat := 0x110080 + 4 * k
/-- `DMAn.CTRL` (R304). -/
abbrev dmaCtrl (n : Nat) : Nat := (0x140 + n) * 0x1000 + 0x40
/-- `DMAn.STAT` (R304). -/
abbrev dmaStat (n : Nat) : Nat := (0x140 + n) * 0x1000 + 0x44
/-- `DMAn.DESC_LO` (R304). -/
abbrev dmaDescLo (n : Nat) : Nat := (0x140 + n) * 0x1000 + 0x48
/-- `DMAn.DESC_HI` (R304). -/
abbrev dmaDescHi (n : Nat) : Nat := (0x140 + n) * 0x1000 + 0x4C
/-- `DMAn.NEXT_LO` (R304). -/
abbrev dmaNextLo (n : Nat) : Nat := (0x140 + n) * 0x1000 + 0x50
/-- `DMAn.NEXT_HI` (R304). -/
abbrev dmaNextHi (n : Nat) : Nat := (0x140 + n) * 0x1000 + 0x54
/-- `DMAn.NEXT_VALID` (R304). -/
abbrev dmaNextValid (n : Nat) : Nat := (0x140 + n) * 0x1000 + 0x58
/-- `DMAn.RESIDUE` (R304). -/
abbrev dmaResidue (n : Nat) : Nat := (0x140 + n) * 0x1000 + 0x5C
/-- `DMAn.HANDOVER_COUNT` (R304). -/
abbrev dmaHandoverCount (n : Nat) : Nat := (0x140 + n) * 0x1000 + 0x60
/-- `DMAn.START` (R304). -/
abbrev dmaStart (n : Nat) : Nat := (0x140 + n) * 0x1000 + 0x64
/-- `DMAn.ABORT` (R304). -/
abbrev dmaAbort (n : Nat) : Nat := (0x140 + n) * 0x1000 + 0x68
/-- `DMAn.TRIG` (R304). -/
abbrev dmaTrig (n : Nat) : Nat := (0x140 + n) * 0x1000 + 0x6C
/-- `MEDn.CTRL` (R373). -/
abbrev medCtrl (n : Nat) : Nat := (0x180 + n) * 0x1000 + 0x40
/-- `MEDn.STAT` (R373). -/
abbrev medStat (n : Nat) : Nat := (0x180 + n) * 0x1000 + 0x44
/-- `MEDn.LINK` (R373). -/
abbrev medLink (n : Nat) : Nat := (0x180 + n) * 0x1000 + 0x48
/-- `MEDn.RX_FRAMES` (R373). -/
abbrev medRxFrames (n : Nat) : Nat := (0x180 + n) * 0x1000 + 0x4C
/-- `MEDn.FEC_CE_CNT` (R373). -/
abbrev medFecCeCnt (n : Nat) : Nat := (0x180 + n) * 0x1000 + 0x50
/-- `MEDn.DROP_CNT` (R373). -/
abbrev medDropCnt (n : Nat) : Nat := (0x180 + n) * 0x1000 + 0x54
/-- `FLOW.IDX` (R373). -/
abbrev flowIdx : Nat := 0x182040
/-- `FLOW.DATA` (R373). -/
abbrev flowData (k : Nat) : Nat := 0x182044 + 4 * k
/-- `FLOW.CMD` (R373). -/
abbrev flowCmd : Nat := 0x182084
/-- `FLOW.STAT` (R373). -/
abbrev flowStat : Nat := 0x182088
/-- `PTP.CTRL` (R375). -/
abbrev ptpCtrl : Nat := 0x183040
/-- `PTP.DOMAIN` (R375). -/
abbrev ptpDomain : Nat := 0x183044
/-- `PTP.STAT` (R375). -/
abbrev ptpStat : Nat := 0x183048
/-- `PTP.OFFSET` (R375). -/
abbrev ptpOffset : Nat := 0x18304C
/-- `PTP.GM_LO` (R375). -/
abbrev ptpGmLo : Nat := 0x183050
/-- `PTP.GM_HI` (R375). -/
abbrev ptpGmHi : Nat := 0x183054
/-- `PCIE.STAT` (R365). -/
abbrev pcieStat : Nat := 0x188040
/-- `PCIE.BAR2_SIZE` (R365). -/
abbrev pcieBar2Size : Nat := 0x188044
/-- `PCIE.AER_CNT` (R365). -/
abbrev pcieAerCnt : Nat := 0x188048
/-- `PCIE.P2P` (R365). -/
abbrev pcieP2p : Nat := 0x18804C
/-- `MSPI.CTRL` (R366). -/
abbrev mspiCtrl : Nat := 0x189040
/-- `MSPI.STAT` (R366). -/
abbrev mspiStat : Nat := 0x189044
/-- `XSPI.CTRL` (R377). -/
abbrev xspiCtrl : Nat := 0x18A040
/-- `XSPI.MODE` (R377). -/
abbrev xspiMode : Nat := 0x18A044
/-- `XSPI.ADDR` (R377). -/
abbrev xspiAddr : Nat := 0x18A048
/-- `XSPI.LEN` (R377). -/
abbrev xspiLen : Nat := 0x18A04C
/-- `XSPI.CMD` (R377). -/
abbrev xspiCmd : Nat := 0x18A050
/-- `XSPI.STAT` (R377). -/
abbrev xspiStat : Nat := 0x18A054
/-- `XSPI.DATA` (R377). -/
abbrev xspiData : Nat := 0x18A058
/-- `SBUS.CTRL` (R379). -/
abbrev sbusCtrl : Nat := 0x18B040
/-- `SBUS.STAT` (R379). -/
abbrev sbusStat : Nat := 0x18B044
/-- `SBUS.CMD` (R379). -/
abbrev sbusCmd : Nat := 0x18B048
/-- `SBUS.DATA` (R379). -/
abbrev sbusData : Nat := 0x18B04C
/-- `SBUS.DIMM_T` (R379). -/
abbrev sbusDimmT (k : Nat) : Nat := 0x18B060 + 4 * k
/-- `HASPn.CTRL` (R387). -/
abbrev haspCtrl (n : Nat) : Nat := (0x18C + n) * 0x1000 + 0x40
/-- `HASPn.STAT` (R387). -/
abbrev haspStat (n : Nat) : Nat := (0x18C + n) * 0x1000 + 0x44
/-- `HASPn.LINK` (R387). -/
abbrev haspLink (n : Nat) : Nat := (0x18C + n) * 0x1000 + 0x48
/-- `HASPn.RING` (R387). -/
abbrev haspRing (n : Nat) : Nat := (0x18C + n) * 0x1000 + 0x4C
/-- `HASPn.MASTER` (R387). -/
abbrev haspMaster (n : Nat) : Nat := (0x18C + n) * 0x1000 + 0x50
/-- `HASPn.TUN_ADDR` (R387). -/
abbrev haspTunAddr (n : Nat) : Nat := (0x18C + n) * 0x1000 + 0x54
/-- `HASPn.TUN_DATA` (R387). -/
abbrev haspTunData (n : Nat) : Nat := (0x18C + n) * 0x1000 + 0x58
/-- `HASPn.TUN_CMD` (R387). -/
abbrev haspTunCmd (n : Nat) : Nat := (0x18C + n) * 0x1000 + 0x5C
/-- `HASPn.ERR_CNT` (R387). -/
abbrev haspErrCnt (n : Nat) : Nat := (0x18C + n) * 0x1000 + 0x60
/-- `GPIO.DIR` (R389). -/
abbrev gpioDir : Nat := 0x18E040
/-- `GPIO.OUT` (R389). -/
abbrev gpioOut : Nat := 0x18E044
/-- `GPIO.IN` (R389). -/
abbrev gpioIn : Nat := 0x18E048
/-- `GPIO.FUNC_LO` (R389). -/
abbrev gpioFuncLo : Nat := 0x18E04C
/-- `GPIO.FUNC_HI` (R389). -/
abbrev gpioFuncHi : Nat := 0x18E050
/-- `GPIO.STRAPS` (R389). -/
abbrev gpioStraps : Nat := 0x18E054
/-- `GPIO.IRQ` (R389). -/
abbrev gpioIrq : Nat := 0x18E058
end Reg
end Sys2Proof.Machine
end

