-- ==== Sys2Proof/Machine/State.lean ====
section
/-! DEFINITION. The machine's state as plain data: register homes, shadow copies, the Latch, the Ward, canvases,
layers, the vault, chain ports, tiles, memory, DMA, the Keeper, faults, clocks, time, ports and the Turnkey; and
the state right after reset. -/
namespace Sys2Proof.Machine

/-- Why the block stops with a fault.  The model has no path that raises one: every command of the table has an
effect in the spec.  The constructor stands for a command stream that is no stream of this device. -/
inductive Fault
  /-- Reserved: no meaning raises it (safe). -/
  | none
  deriving DecidableEq, Repr

/-- Why a command is refused. -/
inductive Refusal
  /-- A command whose meaning the model does not hold yet, by its mnemonic (safe: the run stops). -/
  | notModelled (mnemonic : String)
  deriving DecidableEq, Repr

/-! ### The Latch -/

/-- R53, R79, R385: what fires an armed commit. -/
inductive Trigger
  | fire
  | time (n t : Nat)
  | line (n cv : Nat)
  | hasp (fireAt : Nat)
  | hinge (cv : Nat)
  deriving DecidableEq, Repr

/-- An armed commit: its Latch sequence number, its groups as a mask, what fires it, whether its trigger has
already occurred and whether its verdict came too late for it (R32), whether its evaluation has started (R31), the wall
sequence and origin of a Hasp-shared commit (R385), the frame count of its line trigger's canvas at arming, the
instant of arming, and whether its time was past then (R53). -/
structure Commit where
  seq     : Nat
  groups  : Nat
  trig    : Trigger
  due     : Bool := false
  late    : Bool := false
  begun   : Bool := false
  wall    : Option (Nat × Nat) := none
  starts  : Nat := 0
  armedAt : Nat := 0
  past    : Bool := false
  deriving DecidableEq, Repr

/-- A register of a fired commit that has still to apply (R54-R58): where it stands, the canvas it waits for,
whether it waits for a composition start (SF), for the hinge (R80 step 3) or for Latch lines of Tumblers. -/
inductive ApplyAt
  /-- SF: the canvas's next composition start. -/
  | start
  /-- R80 step 3: the instant S of the canvas's hinge. -/
  | hinge
  /-- SL: the Tumblers that still take it in this frame, with the line, and whether others take it at the next start. -/
  | lines (thisFrame : List (Nat × Nat)) (nextFrame : Bool)
  deriving DecidableEq, Repr

structure Applying where
  seq    : Nat
  groups : Nat
  off    : Nat
  cv     : Nat
  value  : Word
  at_    : ApplyAt
  fired  : Nat
  tie    : Bool := false
  split  : Bool := false
  frame  : Nat := 0
  begun  : Bool := false
  deriving DecidableEq, Repr

/-- The Latch controller (R53, R56): armed commits waiting for the Ward in arming order (the first is under
evaluation while `evalFrom` is set), accepted commits not fired, registers still to apply. -/
structure Latch where
  armed    : List Commit := []
  evalFrom : Option Nat := none
  accepted : List Commit := []
  applying : List Applying := []
  deriving DecidableEq, Repr

/-- What the Ward keeps beyond its registers: a re-admission under way with the code of its cause, the objects
a restoration round has tried (R38), the instant of the last restoration, and whether capacity has been lost that the next
re-admission accounts for (R13). -/
structure Ward where
  readmit  : Option Nat := none
  round    : Option (List Nat) := none
  restored : Nat := 0
  gap      : Bool := false
  deriving DecidableEq, Repr

/-! ### Canvases -/

/-- The generator states of R83. -/
inductive Gen | off | run | reconfig | priming
  deriving DecidableEq, Repr

/-- T_min, T_max, lead and genlock word that the next latch uses (R77). -/
structure Timing where
  tmin    : Nat
  tmax    : Nat
  lead    : Nat
  genlock : Nat
  deriving DecidableEq, Repr

/-- A fetch set of R99: format, size and the two planes. -/
structure FetchSet where
  fmt    : Nat
  w      : Nat
  h      : Nat
  addr0  : Nat
  addr1  : Nat
  pitch0 : Nat
  pitch1 : Nat
  deriving DecidableEq, Repr

/-- A lane of the frame now composing: its layer, whether it is hidden (R100), what it fetches, and for a BIND
lane its flow and the number of the source frame it follows. -/
structure Lane where
  layer  : Nat
  hidden : Bool
  set    : FetchSet
  bind   : Option (Nat × Nat) := none
  deriving DecidableEq, Repr

/-- A band of the frame now composing (R18). -/
structure Band where
  tmb   : Nat
  first : Nat
  last  : Nat
  deriving DecidableEq, Repr

/-- The value a Tumbler still uses for an SL register above its Latch line in this frame (R57, R58). -/
structure SlOld where
  tmb  : Nat
  off  : Nat
  upTo : Nat
  old  : Word
  deriving DecidableEq, Repr

/-- A pixel packet of R200: tile line segment of a frame. -/
structure Pix where
  cv     : Nat
  frame  : Nat
  tile   : Nat
  line   : Nat
  x0     : Nat
  count  : Nat
  resend : Bool := false
  deriving DecidableEq, Repr

/-- The frame a canvas is delivering: its number, start, bank, packets sent with the start of each, resends per packet,
the end of the last transmission, whether a packet was lost with PLL2 (R353), whether a packet was withheld (R183), the
resends within the reserve that it still waits for, and the wire time (tenths) of the reserve used per port (R68). -/
structure Deliv where
  frame   : Nat
  start   : Nat
  bank    : Nat
  sent    : List (Pix × Nat) := []
  resends : List (Pix × Nat) := []
  done    : Option Nat := none
  lastEnd : Nat := 0
  broken  : Bool := false
  degr    : Bool := false
  owed    : List Pix := []
  used    : Sparse Nat := []
  deriving DecidableEq, Repr

/-- A wall vote of R72, R384: the position it comes from, L_(N-1), the candidate or ABORT, and the sender's k_n. -/
structure Vote where
  pos   : Nat
  prev  : Nat
  cand  : Option Nat
  k     : Nat
  deriving DecidableEq, Repr

/-- A mode hinge under way (R79-R83); `start`: a write of START is among what runs it. -/
structure Hinge where
  seq      : Nat
  groups   : Nat
  fromOff  : Bool
  toOff    : Bool
  fired    : Nat
  lh       : Option Nat := none
  s        : Option Nat := none
  deadline : Nat := 0
  placements : Bool := false
  cfg      : List Nat := []
  start    : Bool := false
  deriving DecidableEq, Repr

/-- What a layer carries from frame to frame (R99-R102): the last-good set, the set in use, and the FOLLOW
buffer it took, with its flow. -/
structure Layer where
  good  : Option FetchSet := none
  inUse : Option FetchSet := none
  buf   : Option (Nat × Nat) := none
  deriving DecidableEq, Repr

/-! ### The vault -/

/-- The banks of one canvas: granules of each bank in order, tails, ring pages (R177). -/
structure Bank where
  w     : Nat := 0
  h     : Nat := 0
  bpp   : Nat := 0
  granA : List Nat := []
  tailA : Option Nat := none
  granB : List Nat := []
  tailB : Option Nat := none
  ring  : List Nat := []
  single : Bool := false
  valid : Bool := false
  showB : Bool := false
  deriving DecidableEq, Repr

/-- The frame vault: its bytes, sections whose spare is engaged and copied, sections retired and not copied yet,
lost sections, words with an uncorrectable error, the scrub's place. -/
structure Vault where
  bytes   : List Host.Cell := []
  banks   : Sparse Bank := []
  moves   : List (Nat × Nat × Nat) := []
  spared  : List Nat := []
  copying : List Nat := []
  lost    : List Nat := []
  used    : List Nat := []
  bad     : List Nat := []
  scrub   : Nat := 0
  deriving DecidableEq, Repr

/-! ### The lamp table engine -/

/-- R164-R174: the wear sweep and the checkpoint writer.  `on`: the sweep is enabled; `start`, `delta`, `base`, `period`:
start (ns), credited interval (ms), wear table and period (ms) of the newest pass; `tile`, `idx`: the entry visited next;
`noCredit`: bursts repaired in this pass; `passes`: the pass count.  `ckpt`: the writer's state (0 IDLE, 1 ERASE, 2 BODY,
3 RECORD) with the slot, T_START, pass count, period and N_tab of the checkpoint under way; `waits`: another is due;
`seq`: the sequence number of the newest valid copy; `copies`: by slot, the chunk CRCs of the valid copies known; `badBlocks`: the NAND blocks marked bad. -/
structure Lamp where
  on       : Bool := false
  fresh    : Bool := false
  start    : Nat := 0
  delta    : Nat := 0
  base     : Nat := 0
  period   : Nat := 0
  tile     : Nat := 0
  idx      : Nat := 0
  active   : Bool := false
  stopping : Bool := false
  noCredit : List Nat := []
  passes   : Nat := 0
  ckpt     : Nat := 0
  slot     : Nat := 0
  tStart   : Nat := 0
  cPasses  : Nat := 0
  cPeriod  : Nat := 0
  entries  : Nat := 0
  waits    : Bool := false
  restoring : Bool := false
  seq      : Nat := 0
  copies   : Sparse (Option (List Nat)) := []
  badBlocks : List Nat := []
  deriving DecidableEq, Repr

/-! ### Chain ports and tiles -/

/-- A frame in a link queue: a pixel packet, or the bytes of a message from the Parolo header on. -/
inductive LFrame
  | pix (p : Pix)
  | msg (type tile : Nat) (body : List Byte)
  deriving DecidableEq, Repr

/-- A queued frame with the instant it was enqueued. -/
structure Queued where
  frame : LFrame
  at_   : Nat
  deriving DecidableEq, Repr


/-- A gate list entry (R235). -/
structure Gate where
  gates    : Nat
  interval : Nat
  last     : Bool
  deriving DecidableEq, Repr

/-- The samples of one link queue (R251). -/
structure QSample where
  maxBytes : Nat := 0
  maxWait  : Nat := 0
  sent     : Nat := 0
  bytes    : Nat := 0
  oversize : Nat := 0
  deriving DecidableEq, Repr

/-- A token bucket pair, and the instant of the last refill in tenths of a nanosecond. -/
structure Bucket where
  c  : Nat
  p  : Nat
  at_ : Nat
  deriving DecidableEq, Repr

/-- R234: what stood before a frame was taken for the wire, while its decision point has not come: when it was enqueued, the
round robin pointer and deficits, the sequence number, the queue's samples and the port's counters, the shapers it met, and
TX_FRAMES. -/
structure Choice where
  at_      : Nat
  drrAt    : Nat
  deficit  : Sparse Nat
  seq      : Nat
  sample   : QSample
  counters : Sparse Nat
  shaper   : Option Bucket
  tile     : Option Bucket
  frames   : Nat
  deriving DecidableEq, Repr

/-- A frame on the wire: its bytes from the destination address through the FCS, its first and last instant in tenths of a
nanosecond, and what taking it changed. -/
structure Wire where
  frame : LFrame
  queue : Nat
  bytes : List Byte
  start : Nat
  stop  : Nat
  was   : Choice
  deriving DecidableEq, Repr

/-- One chain port; `reverting`: service returns to the head at its next composition start (R222); `quiet` is when its link came up, a new tile was assigned or an announcement listed last (R398). -/
structure Port where
  up       : Bool := false
  v1       : Bool := false
  grid     : Nat := 0
  lq       : Sparse (List Queued) := []
  wire     : Option Wire := none
  wireFree : Nat := 0
  admin    : Sparse Gate := []
  oper     : Sparse Gate := []
  base     : Nat := 0
  cycle    : Nat := 1000000
  takeover : Option (Nat × Nat × Nat) := none
  retake   : Option Nat := none
  reverting : Bool := false
  drrAt    : Nat := 1
  deficit  : Sparse Nat := []
  shaper   : Option Bucket := none
  police   : Option Bucket := none
  disc     : Option Bucket := none
  samples  : Sparse QSample := []
  counters : Sparse Nat := []
  seqs     : Sparse Nat := []
  headAt   : Nat := 0
  headSeen : Nat := 0
  broken   : Option Nat := none
  sweep    : Option Nat := none
  switchAt : Option Nat := none
  wholeFrom : Option Nat := none
  readback : List (Pix × Nat) := []
  echoNext : Nat := 0
  lastDisc : Nat := 0
  lost     : Bool := false
  resync   : Bool := false
  quiet    : Nat := 0
  deriving DecidableEq, Repr

/-- The states of a tile entry (R229). -/
inductive TileState | free | reserved | assigning | assigned | lost | blanked | conflict
  deriving DecidableEq, Repr

/-- A placement written and not yet applied (R230). -/
structure Placement where
  cv     : Nat
  placed : Bool
  x      : Nat
  y      : Nat
  orient : Nat
  deriving DecidableEq, Repr

/-- A CONFIG write that a tile has not answered: its request identifier, epoch, COMMIT flag, first word address,
words, the instant it was last sent, and whether a reply other than OK has come. -/
structure CfgWrite where
  reqId  : Nat
  epoch  : Nat
  commit : Bool
  addr   : Nat
  words  : List Word
  sentAt : Nat
  refused : Bool := false
  deriving DecidableEq, Repr

/-- An announced tile that is not assigned (R231). -/
structure Announced where
  id     : Nat
  port   : Nat
  pos    : Nat
  reason : Nat
  cap    : Nat
  model  : Nat
  w      : Nat
  h      : Nat
  deriving DecidableEq, Repr

/-- One tile table entry (R229) and what the device keeps for its tile beside it: `dark`: it has been told to blank and is not
released (R81); `asking`: the announcement that its ASSIGN answers (R214); `pathNs`, `pathB`: the one-way delay with
residences from the head and from the loop partner; `wornBy`: the ID of the tile whose wear the Turnkey knows to stand in the
entry's region (R159); `hwAt`, `swAt`: when hardware last changed a field of the entry and when a WRITE last landed in it (R228). -/
structure Tile where
  id      : Nat := 0
  port    : Nat := 0
  cv      : Nat := 0
  pos     : Nat := 0
  posT    : Nat := 0
  state   : TileState := .free
  placed  : Bool := false
  capped  : Bool := false
  serve   : Bool := false
  staged  : Option Placement := none
  x       : Nat := 0
  y       : Nat := 0
  w       : Nat := 0
  h       : Nat := 0
  pixBase : Nat := 0
  orient  : Nat := 0
  ver     : Nat := 0
  cap     : Nat := 0
  model   : Nat := 0
  delayA  : Nat := 0
  delayB  : Nat := 0
  curve   : Nat := 0
  gR      : Nat := 16384
  gG      : Nat := 16384
  gB      : Nat := 16384
  gNext   : Option (Nat × Nat × Nat) := none
  base    : BitVec 176 := 0
  prev    : TileState := .free
  assignAt : Nat := 0
  assignTries : Nat := 0
  heard   : Nat := 0
  heardOther : Nat := 0
  claim   : Nat := 0
  claimOther : Nat := 0
  cfg     : List CfgWrite := []
  released : Bool := true
  writtenA : Nat := 0
  writtenB : Nat := 0
  format  : Nat := 10
  latchMode : Nat := 0
  telem   : List Word := []
  reach   : Nat := 3
  pathNs  : Nat := 0
  pathB   : Nat := 0
  dark    : Bool := false
  asking  : Option Announced := none
  wornBy  : Nat := 0
  hwAt    : Option Nat := none
  swAt    : Option Nat := none
  deriving DecidableEq, Repr

/-- The frame a canvas is composing: its bands and lanes, the tiles and the calibration table it took at its start
(R163), the brightness limit (R148) and the banks of the coefficient and tone sets (R122, R154) it samples there; in
through mode the lines begun and composed, and the BIND lanes late from a pixel of a line on (R187); the layers that
had a visible span on some line (R107). -/
structure Comp where
  frame : Nat
  start : Nat
  bands : List Band
  lanes : List Lane
  bank  : Nat
  slOld : List SlOld := []
  tiles : List (Nat × Tile) := []
  cal   : Nat := 0
  capt  : Option Nat := none
  captDrop : Bool := false
  done  : Bool := false
  linesDone : Nat := 0
  bright : Nat := 65535
  coefBanks : Nat := 0
  toneBanks : Nat := 0
  begun : Sparse Nat := []
  composedLines : List Nat := []
  late : List (Nat × Nat × Nat) := []
  seen : List Nat := []
  dropped : Bool := false
  deriving DecidableEq, Repr

/-- The generator of one canvas and its pipeline of frames: `showFrame` is the frame latched or voided last, `holds` the
HOLD messages to send a second time with when they are due, `degraded` the last frames counted as degraded, `primed` says that L_0 of the last hinge has passed, `lastBank` is the bank of the
frame composed last, `kNext` the wall's minimum brightness limit for the start after the next latch, `lastStart` the last
composition start, `captNext` the next capture buffer, `captReuse` one to use again and `capts` the buffers of frames not latched yet (R190), `lutBusy` the LUT banks
still in use with the composition starts until they are free (R153). -/
structure Canvas where
  gen       : Gen := .off
  lastLatch : Nat := 0
  due       : Option Nat := none
  waitFrom  : Option Nat := none
  held      : Option Timing := none
  comp      : Option Comp := none
  composed  : Option (Nat × Nat) := none
  deliv     : Option Deliv := none
  latchAt   : Option Nat := none
  cand      : Option Nat := none
  voidAt    : Option Nat := none
  votes     : List Vote := []
  lockRun   : List Bool := []
  locked    : Bool := false
  onGenlock : Bool := false
  showFrame : Nat := 0
  hinge     : Option Hinge := none
  hingeNext : Option Hinge := none
  latchRep  : Option Nat := none
  holds     : List (Nat × Nat × Nat × List Byte) := []
  degraded  : List Nat := []
  primed    : Bool := false
  lastBank  : Nat := 1
  kNext     : Option Nat := none
  lastStart : Nat := 0
  captNext  : Nat := 0
  captReuse : Option Nat := none
  capts     : List (Nat × Nat) := []
  lutBusy   : List (Nat × Nat) := []
  deriving DecidableEq, Repr

/-- A tile access through TTBL space 4 that awaits its reply. -/
structure TAccess where
  tile   : Nat
  reqId  : Nat
  read   : Bool
  count  : Nat
  sentAt : Nat
  deriving DecidableEq, Repr

/-- A source frame that arrives (R371): its number, the buffer it takes, its RTP timestamp, its first sequence number,
its marker's, the runs of sequence numbers that have arrived, whether a header had its field bit set (R369), and when its
first packet came. -/
structure SrcFrame where
  num    : Nat
  buf    : Option Nat
  stamp  : Nat
  first  : Nat
  marker : Option Nat := none
  got    : List (Nat × Nat) := []
  field  : Bool := false
  at_    : Nat
  deriving DecidableEq, Repr

/-- A receive flow (R369-R373): its stored words, ring state, counts, policer, the source frames that arrive (oldest first),
the sequence number heard last and the first one of no finished frame, counted on through wraps, when the newest source
frame began, the times of the last two, when each port was last heard, buffers from the oldest to the newest, source frames
begun, and the lines that BIND lanes draw on (by line: the number of the source frame and the bytes that have arrived). -/
structure Flow where
  w       : Sparse Word := []
  newest  : Option Nat := none
  doneAt  : Nat := 0
  complete : Nat := 0
  incomplete : Nat := 0
  policed : Nat := 0
  lost    : Nat := 0
  bucket  : Option Bucket := none
  asm     : List SrcFrame := []
  lastSeq : Option Nat := none
  floor   : Option Nat := none
  begunAt : Nat := 0
  times   : List Nat := []
  heardM  : List Nat := [0, 0]
  order   : List Nat := []
  frames  : Nat := 0
  bind    : Sparse (Nat × Sparse Byte) := []
  deriving DecidableEq, Repr

/-- A PTP master heard on a media port (R375): its port identity, its rank, grandmaster, the announce interval, when it was
heard last and before, its UTC offset and flags. -/
structure PtpMaster where
  port   : Nat
  ident  : Nat
  rank   : List Nat
  gm     : Nat
  every  : Nat
  heard  : Nat
  before : Option Nat
  utc    : Nat
  flags  : Nat
  deriving DecidableEq, Repr

/-- What the PTP client keeps (R374, R375): masters heard, the one followed (port, port identity), a two-step Sync that awaits
its Follow_Up (sequence, arrival, correction), master-to-client difference and path delay in 2^-16 ns, the Delay_Req under
way (sequence, sent), the last sequence number and instant. -/
structure Ptp where
  masters : List PtpMaster := []
  best    : Option (Nat × Nat) := none
  sync    : Option (Nat × Nat × Int) := none
  diff    : Option Int := none
  path    : Int := 0
  req     : Option (Nat × Nat) := none
  reqSeq  : Nat := 0
  reqAt   : Option Nat := none
  deriving DecidableEq, Repr

/-! ### The Keeper and time -/

/-- R324: a canvas's schedule cap moving from one value to another over a number of seconds. -/
structure Fade where
  from_ : Nat
  to_   : Nat
  at_   : Nat
  secs  : Nat
  deriving DecidableEq, Repr

/-- R316: a move between operating points: where to, with the core voltage in 10 mV; the canvases that have still to
start under the new plan, once it is selected; the Tumblers of the old plan. -/
structure Move where
  count : Nat
  volt  : Nat
  core  : Nat
  wait  : Option (List Nat) := none
  old   : List Nat := []
  deriving DecidableEq, Repr

/-- What the Keeper keeps beyond its registers (R305-R324); `allow`: the admitted allowance it keeps after a reduction, until
the result has applied at the canvases of `allowFor`, known once the re-admission has ended (R37); `kAt`: when a canvas's brightness limit last changed (R148). -/
structure Keep where
  kt      : Sparse Nat := []
  ke      : Nat := 65535
  kNow    : Sparse Nat := []
  wallK   : Sparse Nat := []
  fades   : Sparse (Option Fade) := []
  schedBudget : Option Nat := none
  schedEnergy : Option Nat := none
  firedOn : Sparse (Option Int) := []
  thermal : Option Nat := none
  temps   : List (Option Int) := []
  hot     : List Nat := []
  hotFrom  : Option Nat := none
  coolFrom : Option Nat := none
  endFrom  : Option Nat := none
  emerg   : Bool := false
  vinLow  : Bool := false
  move    : Option Move := none
  held    : List Nat := []
  heldFrom : Sparse (Option Nat) := []
  forced  : Sparse (Option Nat) := []
  fspWait : Option Nat := none
  lateUntil : Nat := 0
  energy  : Nat := 0
  energyAt : Nat := 0
  paceEnergy : Nat := 0
  paceAt  : Nat := 0
  dayFrom : Option Nat := none
  waking  : List Nat := []
  draining : List Nat := []
  domAt   : Sparse (Option Nat) := []
  energyLife : Nat := 0
  hot127  : Bool := false
  allow   : Option Nat := none
  allowFor : Option (List Nat) := none
  kAt     : Sparse (Option Nat) := []
  deriving DecidableEq, Repr

/-- What the time base keeps beyond its registers (R354-R360): the run of offsets inside and outside the lock limits,
the UTC day on which a leap flag was raised, the snapshots of CAL_TIME, the backup domain's copy (wall time, UTC_OFS,
ZONE_OFS, validity), holdover and whether it is from PTP, what made the calendar valid (0 nothing, 1 PTP, 2 Hasp, 3 SET,
4 backup), whether the grandmaster's time is traceable, the last offset measured on Hasp TIME (wall time less the
master's). -/
structure TimeBase where
  inside  : Nat := 0
  outside : Nat := 0
  leapDay : Nat := 0
  snaps   : Sparse (Option Nat) := []
  backup  : Option (Nat × Nat × Nat × Bool) := none
  holdover : Bool := false
  ptpHeld  : Bool := false
  calBy    : Nat := 0
  traceable : Bool := false
  measured : Option Int := none
  deriving DecidableEq, Repr

/-! ### Faults and clocks -/

/-- What the fault manager keeps (R328-R344).  A resource is known by its class times 128 plus its instance: leaky
counters, budgets and leak periods that differ from R332's, resources retired and lost in order, which spare serves which
retired resource, classes left without a spare, the Tumbler whose band the spare is to take (R336), the phase groups
whose spare is to come on; the journal's words and how many entries it holds; the lifetime counters' words; the hold of
FAULT_N and whether bring-up still holds the pin; the lifetime writer: since when a write waits, the slot being written,
the slot of the newest record; the serial numbers of the DIMMs fitted. -/
structure Faults where
  counts  : Sparse Nat := []
  budgets : Sparse Nat := []
  leaks   : Sparse Nat := []
  retired : List Nat := []
  lost    : List Nat := []
  serving : List (Nat × Nat) := []
  exhausted : List Nat := []
  taking  : Option Nat := none
  phases  : List Nat := []
  journal : Sparse Nat := []
  filled  : Nat := 0
  life    : Sparse Nat := []
  hold    : Bool := false
  bringUp : Bool := true
  ltFrom  : Option Nat := none
  ltSlot  : Option Nat := none
  ltNewest : Option Nat := none
  dimms   : Sparse Nat := []
  deriving DecidableEq, Repr

/-- What a PLL keeps beyond its registers (R348-R353): slots that software has written, stored band results, the instant
its lock began and the loss it relocks from, whether the lock runs a full search, whether it hops, a hop held, the slot and
instant of the last band result stored, and whether its reference is absent. -/
structure Pll where
  prof    : Sparse Word := []
  band    : Sparse Word := []
  locking : Option Nat := none
  lossAt  : Option Nat := none
  search  : Bool := false
  hopping : Bool := false
  held    : Option Nat := none
  stored  : Option (Nat × Nat) := none
  noRef   : Bool := false
  out0    : Nat := 0
  out1    : Nat := 0
  deriving DecidableEq, Repr

/-! ### Memory (R254-R281) -/

/-- R286: where the bytes of a read go in the DMA buffer: channel, the descriptor they are for, their place in the transfer,
where they begin in the burst, and how many. -/
structure DmaTag where
  ch     : Nat
  serial : Nat
  pos    : Nat
  off    : Nat
  n      : Nat
  deriving DecidableEq, Repr

/-- A request that waits at a memory channel: its port, burst address, location, arrival, for a write the bytes it
covers, its place in the order of arrival, the burst as a read finds it that a later write must not reach (R264), and the DMA
transfer a read is for. -/
structure MemReq where
  port : Nat
  addr : Nat
  rank : Nat
  bank : Nat
  row  : Nat
  at_  : Nat
  data : Option (List (Option Byte)) := none
  arr  : Nat := 0
  held : Option (List Byte × Bool) := none
  dma  : Option DmaTag := none
  deriving DecidableEq, Repr

/-- One subchannel: reads waiting, writes queued, writes that wait for room in the queue, the open row of each bank
with its last use, per class the hits that have kept an older request waiting, whether the queue drains, the requests that
have arrived, and the arrival before which requests are served in order (R272). -/
structure SubChan where
  reads    : List MemReq := []
  writes   : List MemReq := []
  waiting  : List MemReq := []
  rows     : Sparse (Option (Nat × Nat)) := []
  streakA  : Nat := 0
  streakS  : Nat := 0
  draining : Bool := false
  count    : Nat := 0
  orderTo  : Nat := 0
  deriving DecidableEq, Repr

/-- One channel: refreshes owed per rank, when each rank's newest one fell due and the bank group that its next same-bank
refresh takes (R265), the last request, the units migrated, the instant the self-refresh exit began, ranks that are being
zeroed, whether its DIMM is hot. -/
structure MemChan where
  owed    : Sparse Nat := []
  refAt   : Sparse Nat := []
  sbNext  : Sparse Nat := []
  last    : Nat := 0
  migPos  : Nat := 0
  exitAt  : Nat := 0
  zeroing : List Nat := []
  hot     : Bool := false
  deriving DecidableEq, Repr

/-- The memory system: subchannels, channels, delay banks, mode-register values by set point and rank, a training run under way (operation, channel, subchannel,
rank) or one that waits for a set-point change, a set-point change under way (target, start), channels whose self-refresh
request waits for it, the patrol scrub's place, when PLL1 lost lock. -/
structure Mem where
  subs      : Sparse SubChan := []
  chans     : Sparse MemChan := []
  dly       : Sparse Nat := []
  mode      : Sparse Nat := []
  training  : Option (Nat × Nat × Nat × Nat) := none
  trainWait : Bool := false
  fsp       : Option (Nat × Nat) := none
  srWait    : List Nat := []
  scrubAt   : Nat := 0
  frozen    : Option Nat := none
  deriving DecidableEq, Repr

/-! ### DMA and flash -/

/-- A descriptor under way on a DMA channel (R287-R293): where it lies, whether it has been read, its fields, the flow and
buffer that space 4 reads, bytes accepted, whether HALF was raised, retries of the unit under way, the first mismatch of a
COMPARE, the segments known of each scatter-gather list with the entry read next, the row of a PORT frame so far; of the
read engine (R285, R286): its number on the channel, bytes asked for, the pieces that lie in the buffer (place, bytes,
poisoned), and the place and halt code of a read that failed. -/
structure DmaRun where
  host   : Bool
  addr   : Nat
  loaded : Bool := false
  flags  : Nat := 0
  spaces : Nat := 0
  src    : Nat := 0
  dst    : Nat := 0
  len    : Nat := 0
  rows   : Nat := 1
  sp     : Nat := 0
  dp     : Nat := 0
  pat    : Nat := 0
  next   : Nat := 0
  buf    : Option (Nat × Nat) := none
  acc    : Nat := 0
  half   : Bool := false
  tries  : Nat := 0
  miss   : Option Nat := none
  sseg   : List (Nat × Nat) := []
  snext  : Option Nat := none
  dseg   : List (Nat × Nat) := []
  dnext  : Option Nat := none
  row    : List Byte := []
  serial : Nat := 0
  rd     : Nat := 0
  got    : List (Nat × List Byte × Bool) := []
  bad    : Option (Nat × Nat) := none
  deriving DecidableEq, Repr

/-- A DMA channel beyond its registers: the descriptor under way, a pending start (R294), the descriptor that the next
start takes under STEP, when it last decided on a hand-over and when VALID was last written, when its fence last rose,
descriptors loaded, and per engine (0 read, 1 write) the bytes left of its reserved rate, in thousandths, with the instant
(R299). -/
structure DmaChan where
  run    : Option DmaRun := none
  pend   : Bool := false
  resume : Option (Bool × Nat) := none
  decided : Option Nat := none
  written : Option Nat := none
  fenceAt : Option Nat := none
  loads   : Nat := 0
  pace    : Sparse (Nat × Nat) := []
  deriving DecidableEq, Repr

/-- The flash controller (R377): the command under way (0 READ, 1 PROGRAM, 2 ERASE, 3 RAW; chip select, address, length),
the bytes in the FIFO, those of a READ still to enter it, those of a PROGRAM taken so far, the level lines asserted. -/
structure Xspi where
  cmd    : Option (Nat × Nat × Nat × Nat) := none
  fifo   : List Byte := []
  rest   : List Byte := []
  prog   : List Byte := []
  levels : List Nat := []
  deriving DecidableEq, Repr

/-- The sideband (R378, R379): the transfer under way (whether it reads, and CTRL as it was), and how many reads of each
DIMM's sensors have failed in a row. -/
structure Sbus where
  cmd   : Option (Bool × Nat) := none
  fails : Sparse Nat := []
  deriving DecidableEq, Repr

/-! ### Hasp -/

/-- R383, R384, R358: a member of the ring. -/
structure Member where
  cvMask : Nat
  heard  : Nat
  cls    : Nat
  prio   : Nat
  serial : Nat
  deriving DecidableEq, Repr

/-- R383: one Hasp port: the link, the neighbour's last origin with its arrival, and when a HELLO last came. -/
structure HaspPort where
  up    : Bool := false
  peer  : Option (Nat × Nat) := none
  heard : Nat := 0
  deriving DecidableEq, Repr

/-- A tunnel in flight (R386), with the page whose TUN_CMD sent it. -/
structure Tunnel where
  page   : Nat
  id     : Nat
  read   : Bool
  sentAt : Nat
  deriving DecidableEq, Repr

/-- What the Hasp unit keeps (R380-R387): members by position, ports, sequence numbers per type, frames seen (source, type,
sequence, instant), positions last heard from two devices at once, the wall sequence, verdicts received (wall sequence,
position, code), the tunnel in flight and its identifiers. -/
structure Hasp where
  members : Sparse (Option Member) := []
  ports   : Sparse HaspPort := []
  seqs    : Sparse Nat := []
  seen    : List (Nat × Nat × Nat × Nat) := []
  clash   : Sparse (Option Nat) := []
  wseq    : Nat := 0
  verdicts : List (Nat × Nat × Nat) := []
  tunnel  : Option Tunnel := none
  tunId   : Nat := 0
  deriving DecidableEq, Repr

/-- A frame or transaction the block sends outside, with the interface it goes out of; a flash command names its chip select
and 0 READ, 1 PROGRAM, 2 ERASE, or 256 plus a RAW opcode. -/
inductive Sent
  | hasp (port : Nat) (frame : List Byte)
  | media (port : Nat) (frame : List Byte)
  | bus (data : List Byte)
  | flash (cs op addr : Nat) (data : List Byte)
  | sideband (word : Nat) (data : List Byte)
  | host (addr : Nat) (data : List Byte)
  | pulse (pin : Nat) (high : Bool)
  | dimm (channel sub rank reg value : Nat)
  deriving DecidableEq, Repr

/-- The PCIe endpoint (R363-R365, R394): whether PERST# is deasserted, configuration registers written, MSI-X enable and
function mask, the MSI-X table's words that differ from reset (vector control masked) and the pending bits. -/
structure Pcie where
  perst    : Bool := false
  cfg      : Sparse Word := []
  msixOn   : Bool := false
  msixMask : Bool := false
  table    : Sparse Word := []
  pba      : Nat := 0
  deriving DecidableEq, Repr

/-- The Turnkey (R390-R405): the reset it started from (the lifetime counter that counts it; 0: DEV.SOFT_RESET), the image
copy in use (empty: none valid), failed sections, channels that failed, phases completed; enumeration under way (port, since
when), the ports still to come, those taken, and the mailbox request it serves; the end of phase 5, whether a doorbell rang
since; the content items in DRAM (plane addresses, ms), the one shown and since when; a wear restore to follow up; the Latch
sequence number of a default commit whose verdict answers a mailbox request (its identifier); the interleave words kept by
a soft reset; the slot of the training cache written last. -/
structure Turnkey where
  cause   : Nat := 2
  image   : List Byte := []
  failed  : Nat := 0
  badChan : Nat := 0
  phases  : Nat := 0
  enum    : Option (Nat × Nat) := none
  ports   : List Nat := []
  taken   : List Nat := []
  enumReq : Option Nat := none
  waitFrom : Option Nat := none
  rung    : Bool := false
  content : List (Nat × Nat × Nat) := []
  item    : Nat := 0
  itemAt  : Nat := 0
  wear    : Bool := false
  await   : Option (Nat × Nat) := none
  ilvKept : List Word := []
  cacheSlot : Nat := 1
  deriving DecidableEq, Repr

/-- What the block drives at its pins and towards the host, as a function of the registers (R63, R344, R388). -/
structure Out where
  irqStat : Nat := 0
  on      : Nat := 0
  vectors : List Nat := []
  mspiIrq : Bool := false
  faultN  : Bool := false
  deriving DecidableEq, Repr

/-- The state of the block. -/
structure State where
  /-- Commands that wait, first in first out. -/
  pending   : List Instr := []
  /-- Wall time in ns (R8, R354). -/
  now       : Nat := 0
  /-- How many free values have been drawn. -/
  free      : Nat := 0
  /-- What the last read, or the last reply, returned. -/
  bus       : List Nat := []
  /-- The home of every register word by BAR0 offset; an offset not listed holds its reset word. -/
  regs      : Sparse Word := []
  /-- Pending shadow copies (R50). -/
  shadow    : Sparse (Option Word) := []
  /-- LO halves written and waiting for their HI half (R43). -/
  loHeld    : Sparse (Option Word) := []
  /-- HI snapshots taken by a read of LO, per requester (R43). -/
  hiSnap    : Sparse (Option Word) := []
  /-- What was written to the test controls (R45). -/
  testCtl   : Sparse Word := []
  coef      : Sparse Nat := []
  tone      : Sparse Nat := []
  lut       : Sparse Nat := []
  sched     : Sparse Word := []
  schedSh   : Sparse (Option Word) := []
  shapers   : Sparse Word := []
  shaperSh  : Sparse (Option Word) := []
  latch     : Latch := {}
  ward      : Ward := {}
  canvases  : Sparse Canvas := []
  layers    : Sparse Layer := []
  vault     : Vault := {}
  lamp      : Lamp := {}
  ports     : Sparse Port := []
  tiles     : Sparse Tile := []
  announced : List Announced := []
  taccess   : Option TAccess := none
  curves    : Sparse Nat := []
  cfgId     : Nat := 0
  adopt     : List (Nat × Nat) := []
  tshaper   : Sparse (Option Bucket) := []
  mem       : Mem := {}
  /-- DRAM bytes by their place in the devices (R257-R259). -/
  dram      : List Host.Cell := []
  dma       : Sparse DmaChan := []
  /-- R286: the channel that each tier of the read engine served last: within a reservation's rate, and all others. -/
  dmaTurn   : Nat × Nat := (63, 63)
  /-- A reservation that the Ward evaluates (R299): channel, set, rate, and the commits armed before it. -/
  rsvReq    : Option (Nat × Nat × Nat × List Nat) := none
  xspi      : Xspi := {}
  sbus      : Sbus := {}
  /-- Bursts, by their place, that are poisoned (R273). -/
  poison    : Sparse Bool := []
  /-- Event request lines asserted and not yet taken (R295). -/
  edges     : List Nat := []
  /-- R367: bytes that wait in each media port's receive buffer while memory stands still. -/
  medBuf    : Sparse Nat := []
  /-- Receive flows 0-15 (R372). -/
  flows     : Sparse Flow := []
  /-- Granted DMA reservations (R299): channel, interleave set, MB/s. -/
  rsv       : List (Nat × Nat × Nat) := []
  keep      : Keep := {}
  tbase     : TimeBase := {}
  faults    : Faults := {}
  plls      : Sparse Pll := []
  hasp      : Hasp := {}
  ptp       : Ptp := {}
  /-- R69: the last two rising edges of the frame-pulse input, newest first. -/
  framePulse : List Nat := []
  /-- R163, R171: when a tile table write last landed, when wear gains were last staged. -/
  ttblAt    : Option Nat := none
  gainAt    : Option Nat := none
  /-- R122, R154: the page and the instant of the last applies of ACTIVE. -/
  bankAt    : List (Nat × Nat) := []
  /-- R388: GPIO pins that drive a pulse, with its start. -/
  pulses    : Sparse (Option Nat) := []
  pcie      : Pcie := {}
  turnkey   : Turnkey := {}
  /-- What the last command sent outside, in order. -/
  tx        : List Sent := []
  out       : Out := {}
  deriving DecidableEq, Repr

/-- R390, R393: the block right after power-on reset with every strap low: registers at their reset words (an offset not
listed holds its own), PLL0 locked with both outputs live, the Turnkey in phase 1, FAULT_N low, nothing else begun. -/
def State.reset : State :=
  { regs := [(0x6048, 0x38053808), (0x604C, 0x50000000), (0x7044, 0x00010000)]
    out := { faultN := true } }

end Sys2Proof.Machine
end

