-- ==== Sys2Proof/Machine/Ops.lean ====
section
/-! DEFINITION. The shared operations: sparse tables, bit fields, register homes, free values, the passage of
time, and how a meaning ends. -/
namespace Sys2Proof.Machine

/-! ### Sparse tables -/

/-- The entry of a table, or its default. -/
def mget {α : Type} : Sparse α → Nat → α → α
  | [], _, d => d
  | (j, v) :: r, k, d => if j = k then v else mget r k d

/-- The entry of a table that lists whatever it holds. -/
def mfind {α : Type} : Sparse α → Nat → Option α
  | [], _ => none
  | (j, v) :: r, k => if j = k then some v else mfind r k

/-- The table without entry `k`. -/
def mdrop {α : Type} : Sparse α → Nat → Sparse α
  | [], _ => []
  | (j, v) :: r, k => if j = k then mdrop r k else (j, v) :: mdrop r k

/-- The table with `(k, v)` put in key order. -/
def mput {α : Type} : Sparse α → Nat → α → Sparse α
  | [], k, v => [(k, v)]
  | (j, w) :: r, k, v => if k < j then (k, v) :: (j, w) :: r else (j, w) :: mput r k v

/-- The table with entry `k` set to `v`; an entry equal to the default `d` is not listed. -/
def mset {α : Type} [DecidableEq α] (m : Sparse α) (k : Nat) (d v : α) : Sparse α :=
  if v = d then mdrop m k else mput (mdrop m k) k v

/-- A table of bytes with a run of bytes written from address `a` up (0 is the unlisted byte). -/
def mrun (m : List Host.Cell) (a : Nat) (l : List Byte) : List Host.Cell :=
  m.filter (fun c => c.1 < a) ++ ((l.zipIdx a).filterMap fun x => if x.1 = 0 then none else some (x.2, x.1))
    ++ m.filter (fun c => a + l.length ≤ c.1)

/-- The canonical form of a table whose entry `k` defaults to `d k`: keys strictly rising, no entry equal to its default. -/
abbrev Sparse.wf {α : Type} (d : Nat → α) (m : Sparse α) : Prop :=
  m.Pairwise (fun a b => a.1 < b.1) ∧ ∀ x ∈ m, x.2 ≠ d x.1

/-- The canonical form of a memory: addresses strictly rising, and no entry that an unlisted byte, 0, reads as too
(notes/assumptions/3). -/
abbrev Memory.wf (m : List Host.Cell) : Prop := Sparse.wf (fun _ => (0 : Byte)) m

/-! ### Bit fields -/

/-- Bits `[hi:lo]` of a number. -/
def bitsOf (w hi lo : Nat) : Nat := (w >>> lo) % 2 ^ (hi + 1 - lo)

/-- A number with bits `[hi:lo]` replaced by `x`. -/
def putBits (w hi lo x : Nat) : Nat :=
  w % 2 ^ lo + (x % 2 ^ (hi + 1 - lo)) * 2 ^ lo + (w >>> (hi + 1)) * 2 ^ (hi + 1)

/-- A word with bits `[hi:lo]` replaced by `x`. -/
def wput (w : Word) (hi lo x : Nat) : Word := BitVec.ofNat 32 (putBits w.toNat hi lo x)

/-- A `n`-bit two's complement number. -/
def signedOf (n x : Nat) : Int := if x % 2 ^ n < 2 ^ (n - 1) then ((x % 2 ^ n : Nat) : Int) else ((x % 2 ^ n : Nat) : Int) - 2 ^ n

/-- The `n`-bit two's complement code of an integer. -/
def toCode (n : Nat) (x : Int) : Nat := (x % 2 ^ n).toNat

/-- The mask bits set in `0 … n - 1`, as a list. -/
def bitList (mask n : Nat) : List Nat := (List.range n).filter fun i => mask.testBit i

/-- The `n` low bytes of a number, least significant first. -/
def leBytes (n x : Nat) : List Byte := (List.range n).map fun i => BitVec.ofNat 8 (x >>> (8 * i))

/-- The `n` low bytes of a number, most significant first. -/
def beBytes (n x : Nat) : List Byte := (leBytes n x).reverse

/-- The number that bytes spell, least significant first. -/
def ofLe : List Byte → Nat
  | [] => 0
  | b :: r => b.toNat + 256 * ofLe r

/-- The number that bytes spell, most significant first. -/
def ofBe (l : List Byte) : Nat := ofLe l.reverse

/-- `n` bytes at offset `i`; bytes past the end read 0. -/
def sliceB (l : List Byte) (i n : Nat) : List Byte := (List.range n).map fun k => l.getD (i + k) 0

/-- A big-endian field of a message. -/
def beAt (l : List Byte) (i n : Nat) : Nat := ofBe (sliceB l i n)

/-- One step of a reflected CRC over a byte. -/
def crcByte (poly c : Nat) (b : Byte) : Nat :=
  (List.range 8).foldl (fun c _ => if c % 2 = 1 then (c / 2) ^^^ poly else c / 2) (c ^^^ b.toNat)

/-- A reflected 32-bit CRC, initial and final inversion. -/
def crcRefl (poly : Nat) (l : List Byte) : Nat := (l.foldl (crcByte poly) 0xFFFFFFFF) ^^^ 0xFFFFFFFF

/-- R197: the IEEE 802.3 CRC-32. -/
def crc32 (l : List Byte) : Nat := crcRefl 0xEDB88320 l

/-- R191: CRC-32C. -/
def crc32c (l : List Byte) : Nat := crcRefl 0x82F63B78 l

/-! ### Register homes -/

/-- A register definition that covers an offset of its page, with the instance it is. -/
def findReg : List RegDef → Nat → Option (RegDef × Nat)
  | [], _ => none
  | d :: r, o =>
    if d.off ≤ o ∧ (o - d.off) % d.stride = 0 ∧ (o - d.off) / d.stride < d.count then
      some (d, (o - d.off) / d.stride)
    else findReg r o

/-- The register a BAR0 offset names after the header: page kind, page instance, definition, register instance. -/
def regAt (off : Nat) : Option (PageKind × Nat × RegDef × Nat) :=
  match pageKind (off / 4096) with
  | none => none
  | some (k, n) =>
    match findReg (regDefs k) (off % 4096) with
    | none => none
    | some (d, i) => some (k, n, d, i)

/-- The class of a register as a whole: SL or SF where any field is. -/
def classOf (d : RegDef) : TimingClass :=
  if d.fields.any (·.cls = .sl) then .sl else if d.fields.any (·.cls = .sf) then .sf else .im

/-- R44: how many shadowed registers a page kind has. -/
def nShadow (k : PageKind) : Nat :=
  ((regDefs k).map fun d => if classOf d = .im then 0 else d.count).foldl (· + ·) 0

/-- R44: the pages with an indirect window; where the owning chapter is silent, by their registers (notes/assumptions/136). -/
def indirectPage : PageKind → Bool
  | .keep | .pll | .cvc | .coef | .tone | .prt | .sched | .ttbl | .mtrn | .flow | .fault | .sens | .xspi => true
  | _ => false

/-- R44: PG_CAP of a page kind. -/
def pgCap (k : PageKind) : Nat :=
  let ns := nShadow k
  (if ns = 0 then 0 else 1)
    + (if (regDefs k).any (fun d => d.fields.any (·.lk)) then 2 else 0)
    + (if indirectPage k then 4 else 0)
    + (match k with | .cv | .cvc | .scn | .lay => 8 | _ => 0)
    + ns * 256

/-- The reset words that depend on the instance (R63, R253, R332, R347). -/
def resetSpecial (k : PageKind) (n : Nat) (d : RegDef) (i : Nat) : Option Nat :=
  match k with
  | .dma => if d.off = 0x044 && (n = 54 || n = 55) then some (3 * 2 ^ 20) else none
  | .tmb => if d.off = 0x040 then some (n * 256 + if n = 8 then 4 else 0) else none
  | .dev =>
    if d.off = 0x080 then some i
    else if d.off = 0x044 then some (Config.serial.toNat % 2 ^ 32)
    else if d.off = 0x048 then some (Config.serial.toNat / 2 ^ 32)
    else none
  | .prt =>
    if d.off = 0x070 then
      some (if i = 0 then 0 + 24 * 256
        else if i = 7 then 1 + 24 * 256 + 2 * 65536
        else 2 + 24 * 256 + (if i = 6 then 16 else 4) * 65536 + 3 * 2 ^ 24)
    else none
  | .pll =>
    if d.off = 0x048 then
      some ((match i with | 0 => 8 + 5 * 65536 | 1 => 2 + 16 * 65536 | 2 => 2 + 66 * 65536 | _ => 1 + 50 * 65536)
        + 8 * 256 + 2 ^ 12 + 8 * 2 ^ 24 + 2 ^ 28)
    else none
  | _ => none

/-- The word a register holds after reset (R64). -/
def resetWord (off : Nat) : Word :=
  match pageKind (off / 4096) with
  | none => 0
  | some (k, n) =>
    match off % 4096 with
    | 0x000 => BitVec.ofNat 32 (n + firstPage k * 65536)
    | 0x004 => 0x00B00200
    | 0x008 => BitVec.ofNat 32 (pgCap k)
    | 0x018 => 0x10
    | o =>
      match findReg (regDefs k) o with
      | none => 0
      | some (d, i) => BitVec.ofNat 32 ((resetSpecial k n d i).getD d.reset)

/-- The active copy of a register. -/
def State.reg (s : State) (off : Nat) : Word := mget s.regs off (resetWord off)

/-- Set the active copy of a register. -/
def State.setReg (s : State) (off : Nat) (v : Word) : State :=
  { s with regs := mset s.regs off (resetWord off) v }

/-- The active copy as a number. -/
def State.rn (s : State) (off : Nat) : Nat := (s.reg off).toNat

/-- Set the active copy from a number. -/
def State.setRn (s : State) (off v : Nat) : State := s.setReg off (BitVec.ofNat 32 v)

/-- A field of the active copy. -/
def State.fld (s : State) (off hi lo : Nat) : Nat := bitsOf (s.rn off) hi lo

/-- Set a field of the active copy. -/
def State.setFld (s : State) (off hi lo x : Nat) : State := s.setReg off (wput (s.reg off) hi lo x)

/-- One bit of the active copy. -/
def State.bit (s : State) (off b : Nat) : Bool := (s.rn off).testBit b

/-- Set one bit of the active copy (an RC status bit set by hardware). -/
def State.setBit (s : State) (off b : Nat) : State := s.setFld off b b 1

/-- Clear one bit of the active copy. -/
def State.clrBit (s : State) (off b : Nat) : State := s.setFld off b b 0

/-- Set a bit where a condition holds. -/
def State.setBitIf (s : State) (c : Bool) (off b : Nat) : State := if c then s.setBit off b else s

/-- R48: count one event in a 32-bit counter that saturates. -/
def State.incr (s : State) (off : Nat) : State :=
  if s.rn off = 0xFFFFFFFF then s else s.setRn off (s.rn off + 1)

/-- R43: a 64-bit quantity in a LO and a HI register. -/
def State.rn64 (s : State) (lo : Nat) : Nat := s.rn lo + s.rn (lo + 4) * 2 ^ 32

/-- Set a 64-bit quantity. -/
def State.setRn64 (s : State) (lo v : Nat) : State := (s.setRn lo v).setRn (lo + 4) (v / 2 ^ 32)

/-- R50: the shadow copy of a register: what software has written and no apply has taken, else the active copy. -/
def State.sh (s : State) (off : Nat) : Word := (mget s.shadow off none).getD (s.reg off)

/-- R50: whether a register is pending. -/
def State.isPending (s : State) (off : Nat) : Bool := (mget s.shadow off none).isSome

/-- Put a value into a register's shadow copy, which marks it pending. -/
def State.setShadow (s : State) (off : Nat) (v : Word) : State :=
  { s with shadow := mset s.shadow off none (some v) }

/-- Forget a register's shadow copy. -/
def State.dropShadow (s : State) (off : Nat) : State := { s with shadow := mdrop s.shadow off }

/-! ### Units -/

def State.cv (s : State) (n : Nat) : Canvas := mget s.canvases n {}
def State.setCv (s : State) (n : Nat) (c : Canvas) : State := { s with canvases := mset s.canvases n {} c }
def State.lay (s : State) (n : Nat) : Layer := mget s.layers n {}
def State.setLay (s : State) (n : Nat) (l : Layer) : State := { s with layers := mset s.layers n {} l }
def State.prt (s : State) (n : Nat) : Port := mget s.ports n {}
def State.setPrt (s : State) (n : Nat) (p : Port) : State := { s with ports := mset s.ports n {} p }
def State.tile (s : State) (n : Nat) : Tile := mget s.tiles n {}
def State.setTile (s : State) (n : Nat) (t : Tile) : State := { s with tiles := mset s.tiles n {} t }
def State.bank (s : State) (n : Nat) : Bank := mget s.vault.banks n {}
def State.setBank (s : State) (n : Nat) (b : Bank) : State :=
  { s with vault := { s.vault with banks := mset s.vault.banks n {} b } }

def State.pll (s : State) (n : Nat) : Pll := mget s.plls n {}
def State.setPll (s : State) (n : Nat) (p : Pll) : State := { s with plls := mset s.plls n {} p }

/-- R349 step 3: the wall time at which an output of a PLL is released after a lock now. -/
def State.releaseAt (s : State) (n k : Nat) : Nat :=
  s.now + 64 * (if k = 0 then s.fld (Reg.pllDiv n) 11 8 else s.fld (Reg.pllDiv n) 27 24)

/-- R349, R351: the PLL is locked: its enabled outputs run from their release on. -/
def State.outputsUp (s : State) (n : Nat) : State :=
  let p := { s.pll n with out0 := s.releaseAt n 0, out1 := s.releaseAt n 1 }
  let live := fun (s : State) (b : Nat) => if s.bit (Reg.pllDiv n) b then s.setBit (Reg.pllDiv n) (b + 1) else s
  (live (live s 12) 28).setPll n p

/-- R349 step 1: every output is low. -/
def State.outputsLow (s : State) (n : Nat) : State := (s.clrBit (Reg.pllDiv n) 13).clrBit (Reg.pllDiv n) 29

/-- R351, R361: DIVn: LIVE_k shows an output only once it is released. -/
def State.divWord (s : State) (n : Nat) : Nat :=
  let w := s.reg (Reg.pllDiv n)
  (w &&& ~~~((if s.now < (s.pll n).out0 then (0x2000 : Word) else 0) ||| if s.now < (s.pll n).out1 then 0x20000000 else 0)).toNat

def State.flw (s : State) (n : Nat) : Flow := mget s.flows n {}
def State.setFlw (s : State) (n : Nat) (f : Flow) : State := { s with flows := mset s.flows n {} f }

/-- R373: word `k` of a flow's entry as stored; W9 resets to a SKEW of 10,000 µs. -/
def Flow.word (f : Flow) (k : Nat) : Nat := (mget f.w k (if k = 9 then 10000 else 0)).toNat

/-- A byte of the vault; one that nothing has written reads 0 (notes/assumptions/3). -/
def State.vb (s : State) (a : Nat) : Byte := mget s.vault.bytes a 0
/-- Write one byte of the vault. -/
def State.setVb (s : State) (a : Nat) (b : Byte) : State :=
  { s with vault := { s.vault with bytes := mset s.vault.bytes a 0 b } }

/-! ### Free values, time, outcomes -/

/-- The next free value (notes/assumptions/4). -/
def State.freeVal (s : State) : Nat := Config.freeValue s.free
/-- The state after a free value has been drawn. -/
def State.drawn (s : State) : State := { s with free := s.free + 1 }

/-- Every list of a run over instances, in order. -/
def State.each (s : State) (l : List Nat) (f : Nat → State → State) : State := l.foldl (fun s n => f n s) s

end Sys2Proof.Machine
end

