-- ==== Sys2Proof/Machine/Fabric.lean ====
section
/-! DEFINITION. The register fabric: page headers, holds, the judgement of a write field by field, shadow copies
and LO/HI pairs (R41-R51, R56, R62). -/
namespace Sys2Proof.Machine

/-! ### Page headers -/

/-- The header registers of the page that holds an offset. -/
def pgLock (page : Nat) : Nat := page * 4096 + 0x00C
def pgStat (page : Nat) : Nat := page * 4096 + 0x010
def pgViol (page : Nat) : Nat := page * 4096 + 0x014
def pgLatch (page : Nat) : Nat := page * 4096 + 0x018
def pgApplied (page : Nat) : Nat := page * 4096 + 0x01C

/-! ### The journal and the lifetime counters (R339, R340, R344) -/

/-- A STAT event of the fault manager: one whose bit MASK holds pulls FAULT_N low. -/
def State.flagFault (s : State) (b : Nat) : State :=
  let s1 := s.setBit Reg.faultStat b
  if s.bit Reg.faultFaultN b then { s1 with faults := { s1.faults with hold := true } } else s1

/-- R339: a journal entry; the oldest is overwritten when the ring is full. -/
def State.journal (s : State) (cls inst kind count detail : Nat) : State :=
  let n := s.fld Reg.faultJrnlIdx 31 24
  let put := fun (m : Sparse Nat) (w v : Nat) => mset m (4 * n + w) 0 v
  let m := put (put (put (put s.faults.journal 0 (s.now % 2 ^ 32)) 1 (s.now / 2 ^ 32))
    2 (cls % 16 + inst % 128 * 16 + kind % 8 * 4096 + min count 65535 * 65536)) 3 (detail % 2 ^ 32)
  let full := s.faults.filled = 256
  let s1 := { s with faults := { s.faults with journal := m, filled := min 256 (s.faults.filled + 1) } }
  let s2 := s1.setFld Reg.faultJrnlIdx 31 24 ((n + 1) % 256)
  if full then s2.flagFault 9 else s2

/-- R340: a lifetime counter word, and counting one in it. -/
def State.lifeWord (s : State) (w : Nat) : Nat := mget s.faults.life w 0
def State.setLife (s : State) (w v : Nat) : State := { s with faults := { s.faults with life := mset s.faults.life w 0 v } }
def State.lifeUp (s : State) (w : Nat) : State := s.setLife w (min (2 ^ 32 - 1) (s.lifeWord w + 1))

/-- R340: add to a counter of two words. -/
def State.lifeAdd64 (s : State) (w n : Nat) : State :=
  let v := min (2 ^ 64 - 1) (s.lifeWord w + s.lifeWord (w + 1) * 2 ^ 32 + n)
  (s.setLife w (v % 2 ^ 32)).setLife (w + 1) (v / 2 ^ 32)

/-- R46: report a refused write in PG_VIOL and PG_STAT.VIOL. -/
def State.violate (s : State) (off kind : Nat) : State :=
  let page := off / 4096
  let v := s.rn (pgViol page)
  let multi := if bitsOf v 31 31 = 1 then 1 else bitsOf v 30 30
  let w := (off % 4096 / 4) * 4 + kind * 2 ^ 12 + multi * 2 ^ 30 + 2 ^ 31
  (s.setRn (pgViol page) w).setBit (pgStat page) 0

/-- R46: what a refused LK field does beyond PG_VIOL. -/
def State.lockViolation (s : State) : State :=
  (((s.incr Reg.faultLockViolCount).setBit Reg.devStat 0).lifeUp 11).journal 11 0 0 0 0

/-- R44, R49: the page is locked. -/
def State.locked (s : State) (page : Nat) : Bool := s.bit (pgLock page) 0

/-! ### Groups and holds -/

/-- The groups of armed, accepted and applying commits that are held (R31, R56). -/
def State.heldMask (s : State) : Nat :=
  let ev := (s.latch.armed.filter (·.begun)).foldl (fun m c => m ||| c.groups) 0
  let a := s.latch.accepted.foldl (fun m c => m ||| c.groups) ev
  s.latch.applying.foldl (fun m c => m ||| c.groups) a

/-- R51: the Latch group of a page. -/
def State.groupOf (s : State) (page : Nat) : Nat := s.fld (pgLatch page) 3 0

/-- R51: whether the page takes part in its group's applies. -/
def State.pgEn (s : State) (page : Nat) : Bool := s.bit (pgLatch page) 4

/-- R31: the shadowed registers of the page are held. -/
def State.pageHeld (s : State) (page : Nat) : Bool := s.pgEn page && s.heldMask.testBit (s.groupOf page)

/-- R50, R51: every pending register that takes part in an apply of the groups of a mask, in R54 order. -/
def State.pendingOf (s : State) (mask : Nat) : List Nat :=
  (s.shadow.map (·.1)).filter fun off => s.pgEn (off / 4096) && mask.testBit (s.groupOf (off / 4096))

/-- The indirect words (schedule, shapers) that are pending in a group of the mask (R325, R252). -/
def State.pendingWords (s : State) (mask : Nat) : Bool :=
  (!s.schedSh.isEmpty && s.pgEn 0x003 && mask.testBit (s.groupOf 0x003)) ||
  (!s.shaperSh.isEmpty && s.pgEn 0x0E0 && mask.testBit (s.groupOf 0x0E0))

/-- R62: LATCH.PEND. -/
def State.pendMask (s : State) : Nat :=
  let m := (s.shadow.map (·.1)).foldl (fun m off => m ||| 2 ^ s.groupOf (off / 4096)) 0
  let m := if s.schedSh.isEmpty then m else m ||| 2 ^ s.groupOf 0x003
  if s.shaperSh.isEmpty then m else m ||| 2 ^ s.groupOf 0x0E0

/-! ### LO and HI halves -/

/-- R43: the registers that are the LO half of a 64-bit quantity, by page kind and offset. -/
def pairLo (k : PageKind) (o : Nat) : Bool :=
  match k with
  | .latch => o == 0x0A0 || o == 0x0B0 || o == 0x0C0 || o == 0x0D0
  | .time => o == 0x040 || o == 0x048
  | .cv => o == 0x064
  | .lay => o == 0x050 || o == 0x058
  | .lamp => o == 0x044 || o == 0x04C || o == 0x064
  | .scn => o == 0x050
  | .prt => o == 0x05C
  | .dma => o == 0x048 || o == 0x050
  | .ptp => o == 0x050
  | .dev => o == 0x044
  | _ => false

/-! ### Judging a write -/

/-- The value a write gives a field whose present value is `cur` (R47). -/
def writtenValue (f : Field) (v cur : Nat) : Nat :=
  match f.acc with
  | .rw => bitsOf v f.hi f.lo
  | .wm =>
    let m := bitsOf (v / 65536) f.hi f.lo
    (bitsOf v f.hi f.lo &&& m) ||| (cur &&& ((2 ^ (f.hi + 1 - f.lo) - 1) ^^^ m))
  | _ => cur

/-- The field's map accepts a value (R46). -/
def accepts (f : Field) (x : Nat) : Bool := f.ok.isEmpty || f.ok.any fun r => r.1 ≤ x && x ≤ r.2

/-- How a write to one register came out: the new active word, the new shadow word, the kinds refused, whether any
field landed, and whether a shadowed field took part. -/
structure Judged where
  act    : Word
  sh     : Word
  kinds  : List Nat
  landed : Bool
  shaded : Bool
  same   : Bool

/-- R46: judge one field. `extra` refuses (KIND 3) values that depend on more than the field. -/
def judgeField (locked : Bool) (v : Nat) (extra : Nat → Nat → Bool) (j : Judged) (f : Field) : Judged :=
  match f.acc with
  | .ro | .rc | .w1p => j
  | _ =>
    let cur := bitsOf (if f.cls = .im then j.act.toNat else j.sh.toNat) f.hi f.lo
    let x := writtenValue f v cur
    if x = cur then { j with same := j.same || f.cls ≠ .im }
    else if f.lk && locked then { j with kinds := 1 :: j.kinds }
    else if !accepts f x || extra f.lo x then { j with kinds := 3 :: j.kinds }
    else if f.cls = .im then { j with act := wput j.act f.hi f.lo x, landed := true }
    else { j with sh := wput j.sh f.hi f.lo x, landed := true, shaded := true }

/-- The word whose SL and SF fields come from `sh` and whose other bits come from `act` (R50). -/
def mixShadow (d : RegDef) (act sh : Word) : Word :=
  d.fields.foldl (fun w f => if f.cls = .im then w else wput w f.hi f.lo (bitsOf sh.toNat f.hi f.lo)) act

/-- R46, R50: land a write field by field in the register at `off`, whose definition is `d`; the result says
whether anything landed. -/
def State.land (s : State) (off : Nat) (d : RegDef) (v : Word) (extra : Nat → Nat → Bool) : State × Bool :=
  let j := d.fields.foldl (judgeField (s.locked (off / 4096)) v.toNat extra)
    ⟨s.reg off, s.sh off, [], false, false, false⟩
  let s1 := s.setReg off j.act
  let s2 := if j.shaded || (j.same && j.kinds.isEmpty) then s1.setShadow off (mixShadow d j.act j.sh) else s1
  let s3 := match j.kinds.min? with
    | none => s2
    | some k => s2.violate off k
  (if j.kinds.contains 1 then s3.lockViolation else s3, j.landed || j.kinds.isEmpty)

/-- R44, R47: a write to PG_LOCK; writing 1 sets the lock, writing 0 has no effect. -/
def State.writePgLock (s : State) (page : Nat) (v : Word) : State :=
  s.setBitIf (v.getLsbD 0) (pgLock page) 0

/-- R44: PG_CAP.SHADOWED of a page. -/
def shadowedPage (page : Nat) : Bool :=
  match pageKind page with
  | some (k, _) => nShadow k ≠ 0
  | none => false

/-- R51: a write to PG_LATCH; refused with KIND 2 while the old or the new group is held, on a page with shadowed registers;
on any other page PG_LATCH holds whatever is written. -/
def State.writePgLatch (s : State) (page : Nat) (v : Word) : State :=
  let cur := s.rn (pgLatch page)
  let m := v.toNat / 65536 % 32
  let new := (v.toNat &&& m) ||| (cur &&& (31 ^^^ m))
  let h := s.heldMask
  if shadowedPage page && (h.testBit (cur % 16) || h.testBit (new % 16)) then s.violate (pgLatch page) 2
  else s.setRn (pgLatch page) (new % 32)

/-! ### Reading -/

/-- R47: every RC bit of a register. -/
def rcMask (d : RegDef) : Nat :=
  d.fields.foldl (fun m f => if f.acc = .rc then m ||| ((2 ^ (f.hi + 1 - f.lo) - 1) * 2 ^ f.lo) else m) 0

/-- R47: the word software reads: WM registers read their value in [15:0], W1P fields read 0. -/
def readMask (d : RegDef) (w : Nat) : Nat :=
  d.fields.foldl (fun x f =>
    match f.acc with
    | .w1p => x
    | _ => x + bitsOf w f.hi f.lo * 2 ^ f.lo) 0

/-- R50: the stored word a read of the register returns, shadow or active by LATCH.CTRL.VIEW. -/
def State.storedWord (s : State) (off : Nat) (d : RegDef) : Nat :=
  let act := s.reg off
  match mget s.shadow off none with
  | none => readMask d act.toNat
  | some sh => if s.bit Reg.latchCtrl 0 then readMask d act.toNat else readMask d (mixShadow d act sh).toNat

/-- R47: clear the RC bits of a register together. -/
def State.clearRc (s : State) (off : Nat) (d : RegDef) : State :=
  let m := rcMask d
  if m = 0 then s else s.setRn off (s.rn off &&& (0xFFFFFFFF ^^^ m))

/-- R44: the RC bits of the header registers. -/
def headerRc (o : Nat) : Nat :=
  match o with
  | 0x010 => 0xFF0F
  | 0x014 => 0xC0007FFC
  | _ => 0

end Sys2Proof.Machine
end

