-- ==== Sys2Proof/Machine/Calendar.lean ====
section
/-! DEFINITION. The calendar (R359): local time, dates and what CAL_DATE and CAL_TIME read. -/
namespace Sys2Proof.Machine

/-- R359, R362: the zone offset in minutes. -/
def State.zone (s : State) : Int := signedOf 12 (s.rn Reg.timeZoneOfs)

/-- UTC seconds of wall time, by the offset in force. -/
def State.utcSec (s : State) : Int := (s.now / 1000000000 : Nat) - (s.fld Reg.timeUtcOfs 15 0 : Int)

/-- R359: an inserted leap second is passing. -/
def State.inLeap (s : State) : Bool :=
  s.bit Reg.timeUtcOfs 16 && s.utcSec % 86400 = 0 && (s.tbase.leapDay : Int) < s.utcSec / 86400

/-- R359: local seconds; during an inserted leap second the second before it. -/
def State.localSec (s : State) : Int := s.utcSec + s.zone * 60 - (if s.inLeap then 1 else 0)

/-- The local minute count. -/
def State.localMin (s : State) : Int := s.localSec / 60

/-- The local day number, day 0 = 1970-01-01. -/
def State.localDay (s : State) : Int := s.localMin / 1440

/-- The calendar is valid (R359). -/
def State.calValid (s : State) : Bool := s.bit Reg.timeStat 31

/-- A day number as year, month and day of the civil calendar. -/
def civil (day : Int) : Int × Nat × Nat :=
  let z := day + 719468
  let era := z / 146097
  let doe := (z % 146097).toNat
  let yoe := (doe - doe / 1460 + doe / 36524 - doe / 146096) / 365
  let doy := doe - (365 * yoe + yoe / 4 - yoe / 100)
  let mp := (5 * doy + 2) / 153
  let d := doy - (153 * mp + 2) / 5 + 1
  let m := if mp < 10 then mp + 3 else mp - 9
  ((yoe : Int) + era * 400 + (if m ≤ 2 then 1 else 0), m, d)

/-- 1 Monday … 7 Sunday. -/
def weekday (day : Int) : Nat := ((day + 3) % 7).toNat + 1

/-- R362: CAL_DATE. -/
def State.calDate (s : State) : Nat :=
  let (y, m, d) := civil s.localDay
  d + m * 32 + weekday s.localDay * 512 + (y % 65536).toNat * 4096

/-- R362: CAL_TIME. -/
def State.calTime (s : State) : Nat :=
  let t := (s.localSec % 86400).toNat
  (t % 60 + if s.inLeap then 1 else 0) + t / 60 % 60 * 64 + t / 3600 * 4096 + s.now / 1000000 % 1000 * 2 ^ 17

end Sys2Proof.Machine
end

