-- ==== Sys2Proof/Machine/Operands.lean ====
section
/-! DEFINITION. The operand forms that commands share: who sends a register request, what a narrow access takes of a
word, and the words that bytes from outside make. -/
namespace Sys2Proof.Machine

/-! ### Requesters (R42, R386, R365): 0 the PCIe host, 1 the management SPI, 2 the Turnkey, 16 + p a tunnel of ring position
p, 256 + b a function on PCIe bus b -/

def hostReq : Nat := 0
def mspiReq : Nat := 1
def turnkeyReq : Nat := 2
def tunnelReq (pos : Nat) : Nat := 16 + pos

/-- R365: a requester on a PCIe bus other than 0. -/
def isPeer (req : Nat) : Bool := 256 ≤ req

/-- A code that names a requester. -/
def knownReq (req : Nat) : Bool := req ≤ 2 || (16 ≤ req && req < 32) || (257 ≤ req && req < 512)

/-! ### Widths (R42) -/

/-- R42: the offset of the word that an access touches. -/
def wordOf (off : Nat) : Nat := off / 4 * 4

/-- R42: the byte lanes of a word that a read of `size` bytes returns. -/
def lanes (w off size : Nat) : Nat := (w >>> (8 * (off % 4))) % 2 ^ (8 * size)

/-- R42: an access of 1, 2, 4 or 8 bytes, aligned to its size, in the 2 MiB of BAR0. -/
def accessOk (off size : Nat) : Bool := [1, 2, 4, 8].contains size && off % size = 0 && off < 2 ^ 21

end Sys2Proof.Machine
end

