-- ==== Sys2Proof/Machine/Flags.lean ====
section
/-! DEFINITION. The status flags' consequences: interrupt sources, MSI-X vectors and the management SPI interrupt
(R63 and the interrupt rules of each page), FAULT_N (R344), and how every meaning ends. -/
namespace Sys2Proof.Machine

/-- Some bit of a register under a mask is set. -/
def State.anyBit (s : State) (off mask : Nat) : Bool := (s.rn off &&& mask) ≠ 0

/-- R63: whether an interrupt source is pending, by the rule of the page that owns it. -/
def State.irqSource (s : State) (n : Nat) : Bool :=
  match n with
  | 0 => (s.bit Reg.latchStat 0 && s.bit Reg.latchCtrl 1) || (s.bit Reg.latchStat 2 && s.bit Reg.latchCtrl 2)
  | 1 => (s.bit Reg.wardStat 0 && s.bit Reg.wardCtrl 2) || (s.anyBit Reg.wardStat 0x6 && s.bit Reg.wardCtrl 3)
  | 2 => s.bit Reg.keepCtrl 7 && s.anyBit Reg.keepStat 0x11E0
  | 3 => s.anyBit Reg.faultStat (s.fld Reg.faultCtrl 9 0)
  | 4 => s.bit Reg.timeCtrl 3 && s.anyBit Reg.timeStat 0x2D
  | 5 => [0, 1, 2, 3].any fun k => s.bit (Reg.pllCtrl k) 5 && s.anyBit (Reg.pllStat k) 0xD
  | 6 => s.anyBit Reg.mboxStat 0x9
  | 7 => s.anyBit Reg.sensStat 0x1E
  | 8 | 9 | 10 | 11 =>
    s.anyBit (Reg.cvStat (n - 8)) 0x642 || (s.bit (Reg.scnCtrl (n - 8)) 6 && s.anyBit (Reg.scnStat (n - 8)) 0x55)
  | 12 => s.bit Reg.lampCkptCtrl 3 && s.anyBit Reg.lampCkptStat 0xA6
  | 13 => s.anyBit Reg.vaultStat 0xE
  | 14 =>
    (s.bit Reg.schedStat 0 && s.bit Reg.schedCtrl 0) || (s.bit Reg.schedStat 1 && s.bit Reg.schedCtrl 1) ||
    (s.bit Reg.schedStat 2 && s.bit Reg.schedCtrl 2) || (s.anyBit Reg.schedStat 0x18 && s.bit Reg.schedCtrl 3)
  | 15 => (List.range 64).any fun p => s.bit (Reg.prtCtrl p) 3 && s.anyBit (Reg.prtStat p) 0x8DA
  | 16 =>
    ((List.range 8).any fun m => s.bit (Reg.mcCtrl m) 1 && s.anyBit (Reg.mcStat m) 0x48E) || s.anyBit Reg.memStat 0x3
  | 17 =>
    (s.bit Reg.dmagCtrl 4 && s.anyBit Reg.dmagStat 0x1F) ||
    (List.range 64).any fun c => s.bit (Reg.dmaCtrl c) 1 && s.anyBit (Reg.dmaStat c) 0x1FFF
  | 18 => [0, 1].any fun m => s.bit (Reg.medCtrl m) 2 && s.anyBit (Reg.medStat m) 0xF
  | 19 => s.anyBit Reg.flowStat 0x54
  | 20 => s.bit Reg.ptpCtrl 3 && s.anyBit Reg.ptpStat 0x7
  | 21 => false
  | 22 => s.bit Reg.xspiCtrl 2 && s.anyBit Reg.xspiStat 0x13
  | 23 => s.bit Reg.sbusCtrl 18 && s.anyBit Reg.sbusStat 0xF
  | 24 => [0, 1].any fun h => s.bit (Reg.haspCtrl h) 2 && s.anyBit (Reg.haspStat h) 0x7F
  | 25 => s.anyBit Reg.gpioIrq 0xFFFF
  | 26 => s.bit Reg.devStat 0
  | 27 => s.bit Reg.devStat 1
  | _ => false

/-- R63: DEV.IRQ_STAT. -/
def State.irqStat (s : State) : Nat :=
  (List.range 28).foldl (fun m n => if s.irqSource n then m + 2 ^ n else m) 0

/-- R344: FAULT_N is low. -/
def State.faultLow (s : State) : Bool :=
  s.faults.bringUp || s.faults.hold || (s.bit Reg.faultFaultN 16 && !s.faults.lost.isEmpty) ||
    (s.bit Reg.faultFaultN 17 && s.keep.emerg)

/-- What the block drives, from its registers: pending sources, the MSI-X vectors and the management SPI interrupt
of the enabled ones (R63), FAULT_N (R344). -/
def State.outputs (s : State) : Out :=
  let st := s.irqStat
  let on := bitList (st &&& s.rn Reg.devIrqEn) 28
  { irqStat := st
    on := st &&& s.rn Reg.devIrqEn
    vectors := on.map fun n => s.fld (Reg.devIrqRoute n) 6 0
    mspiIrq := on.any fun n => s.bit (Reg.devIrqRoute n) 8
    faultN := s.faultLow }

/-- R363: a word of the MSI-X table; after reset every vector's control word masks it. -/
def State.msixWord (s : State) (k : Nat) : Nat := (mget s.pcie.table k (if k % 4 = 3 then 1 else 0)).toNat

/-- R363, R365: MSI-X of a vector may be sent: MSI-X and Bus Master enabled, neither mask set. -/
def State.msixOpen (s : State) (v : Nat) : Bool :=
  s.pcie.msixOn && !s.pcie.msixMask && s.bit Reg.pcieStat 16 && !(s.msixWord (4 * v + 3)).testBit 0

/-- R63, R363: the vectors of sources that became pending and enabled, and those left pending by a mask, send their message,
or stay pending while masked; a vector whose sources have gone is no longer pending. -/
def State.msix (s : State) (new : Out) : State :=
  let rise := (bitList (new.on &&& (s.out.on ^^^ (2 ^ 28 - 1))) 28).map fun n => s.fld (Reg.devIrqRoute n) 6 0
  let want := new.vectors.filter fun v => rise.contains v || s.pcie.pba.testBit v
  let go := (want.filter s.msixOpen).eraseDups
  let keep := (want.filter fun v => !s.msixOpen v).foldl (fun m v => m ||| 2 ^ v) 0
  { s with
    pcie := { s.pcie with pba := keep }
    tx := s.tx ++ go.map fun v => Sent.host (s.msixWord (4 * v) / 4 * 4 + s.msixWord (4 * v + 1) * 2 ^ 32) (leBytes 4 (s.msixWord (4 * v + 2))) }

/-- Bring the outputs up to date. -/
def State.settle (s : State) : State :=
  let o := s.outputs
  { s.msix o with out := o }

/-- R365: a request from a PCIe bus other than 0 (a requester from 256 up) while P2P.EN = 0 is not supported. -/
def State.peerRefused (s : State) (req : Nat) : Bool := isPeer req && !s.bit Reg.pcieP2p 0

/-- How a meaning ends: the next state, its outputs up to date. -/
def done (s : State) : Host.Outcome State Fault Refusal := .next s.settle

/-- R388: the function of a GPIO pin. -/
def State.gpioFunc (s : State) (pin : Nat) : Nat :=
  s.fld (if pin < 8 then Reg.gpioFuncLo else Reg.gpioFuncHi) (4 * (pin % 8) + 3) (4 * (pin % 8))

/-- R388: pins of a function start a pulse. -/
def State.pulse (s : State) (func : Nat) : State :=
  s.each ((List.range 16).filter fun p => s.gpioFunc p = func) fun p s =>
    { s with pulses := mset s.pulses p none (some s.now), tx := s.tx ++ [.pulse p true] }

/-- R8, R354: `dt` ns of wall time pass; PPS pins pulse at a whole second (R388). -/
def State.tick (s : State) (dt : Nat) : State :=
  let s1 := { s with now := (s.now + dt) % 2 ^ 64, tx := [] }
  if s1.now / 1000000000 = s.now / 1000000000 then s1 else s1.pulse 8

end Sys2Proof.Machine
end

