-- ==== Sys2Proof/Machine/Budget.lean ====
section
/-! DEFINITION. The Keeper's budgets and brightness limits, the schedule, and re-admission events (R28, R305, R319-R324,
R36 step 1). -/
namespace Sys2Proof.Machine

/-! ### Re-admission events and budgets -/

/-- R36 step 1: a re-admission event abandons any evaluation in progress. -/
def State.readmitEvent (s : State) : State :=
  let s1 := s.setBitIf s.latch.evalFrom.isSome Reg.wardStat 7
  { s1 with latch := { s1.latch with evalFrom := none }, ward := { s1.ward with readmit := some s1.now } }

/-- R334: a PLL is lost. -/
def State.pllLost (s : State) (n : Nat) : Bool := s.faults.lost.any fun k => k / 2 = 256 + n

/-- R333: what a lost phase takes off the envelope, in 0.01 W. -/
def phaseLoss (p : Nat) : Nat := if p ≤ 16 then 900 else if p ≤ 26 then 600 else if p ≤ 31 then 400 else 300

/-- R28, R305, R333: the package envelope in 0.01 W. -/
def State.envelope (s : State) : Nat :=
  (if s.keep.vinLow then 11000 else 18500) -
    s.faults.lost.foldl (fun n k => if k / 128 = 3 then n + phaseLoss (k % 128) else n) 0

/-- R319: the schedule budget in force, while the schedule runs (notes/assumptions/9). -/
def State.schedBudgetNow (s : State) : Option Nat := if s.bit Reg.keepCtrl 5 then s.keep.schedBudget else none

/-- R319: the Keeper's budget. -/
def State.keepBudget (s : State) : Nat :=
  let b := s.fld Reg.keepBudget 15 0
  let x := min (s.fld Reg.keepPlimit 15 0) (if b = 0 then 65535 else b)
  min (min x (s.schedBudgetNow.getD 65535)) (s.keep.thermal.getD 65535)

/-- R28, R37: WARD.PBUDGET brought up to date; the Keeper keeps the allowance that a reduction takes away. -/
def State.setPbudget (s : State) : State :=
  let old := s.fld Reg.wardPbudget 15 0
  let new := min s.envelope s.keepBudget
  let s1 := s.setRn Reg.wardPbudget new
  if new < old then { s1 with keep := { s1.keep with allow := some (max old (s1.keep.allow.getD 0)), allowFor := none } } else s1

/-- R37: what has lowered the budget takes effect at the composition starts of some canvases, from now on. -/
def State.allowUntil (s : State) (cvs : List Nat) : State :=
  let k := s.keep
  if k.allow.isNone then s
  else { s with keep := { k with allow := if cvs.isEmpty then none else k.allow, allowFor := if cvs.isEmpty then none else some cvs } }

/-- R37: a canvas has started under the re-admitted configuration, or has stopped. -/
def State.allowStarted (s : State) (cv : Nat) : State :=
  match s.keep.allowFor with
  | some l => s.allowUntil (l.filter (· ≠ cv))
  | none => s

/-- R36, R320: PBUDGET follows its terms; a rise of a term is a re-admission event, and so is a reduction, but for one
that an accepted commit brings. -/
def State.rebudget (s old : State) (commit : Bool) : State :=
  let s1 := s.setPbudget
  let up := Decidable.decide (old.keepBudget < s1.keepBudget) || Decidable.decide (old.envelope < s1.envelope)
  let down := Decidable.decide (s1.keepBudget < old.keepBudget) || Decidable.decide (s1.envelope < old.envelope)
  if up || (down && !commit) then s1.readmitEvent
  else if down then s1.allowUntil ([0, 1, 2, 3].filter fun cv => (s1.cv cv).gen = .run || (s1.cv cv).gen = .priming)
  else s1

/-! ### Brightness (R321) -/

/-- R324: a fade's value at an instant, rounded down (notes/assumptions/10). -/
def Fade.value (f : Fade) (now : Nat) : Nat :=
  let d := f.secs * 1000000000
  let t := min (now - f.at_) d
  if d = 0 then f.to_
  else if f.from_ ≤ f.to_ then f.from_ + (f.to_ - f.from_) * t / d else f.from_ - cdiv ((f.from_ - f.to_) * t) d

/-- R324: the schedule cap of a canvas. -/
def State.schedCap (s : State) (cv : Nat) : Nat :=
  if s.bit Reg.keepCtrl 5 then
    match mget s.keep.fades cv none with
    | none => 65535
    | some f => f.value s.now
  else 65535

/-- R321: cap_n. -/
def State.capOf (s : State) (cv : Nat) : Nat :=
  min (65535 - 257 * s.fld Reg.keepBrightCap (8 * cv + 7) (8 * cv)) (s.schedCap cv)

/-- R322: kt_n. -/
def State.ktOf (s : State) (cv : Nat) : Nat := if s.bit Reg.keepCtrl 3 then 65535 else mget s.keep.kt cv 65535

/-- R321: the limit of a canvas on this device. -/
def State.kLimit (s : State) (cv : Nat) : Nat := min (min (s.capOf cv) (s.ktOf cv)) s.keep.ke

/-- R321: k_n in force. -/
def State.kNow (s : State) (cv : Nat) : Nat := mget s.keep.kNow cv 65535

/-- R321: k_n at a composition start: falls at once, rises by at most 512; in a wall the wall's minimum. -/
def State.stepK (s : State) (cv : Nat) : State :=
  let want := if s.bit (Reg.cvMode cv) 3 then mget s.keep.wallK cv 65535 else s.kLimit cv
  let k := if want ≤ s.kNow cv then want else min want (s.kNow cv + 512)
  { s with keep := { s.keep with kNow := mset s.keep.kNow cv 65535 k } }

/-- R148, R157: after a change of limits, what it changed for each canvas; one that meets a composition start is a tie. -/
def State.limitChanged (s old : State) : State :=
  s.each ([0, 1, 2, 3].filter fun cv => s.kLimit cv ≠ old.kLimit cv) fun cv t =>
    { t with keep := { t.keep with kAt := mset t.keep.kAt cv none (some s.now) } }.setBitIf
      ((s.cv cv).comp.any fun (k : Comp) => k.start = s.now) (pgStat (0x018 + cv)) 10

/-! ### The schedule (R324) -/

/-- R325: word `w` of a schedule entry. -/
def State.schedWord (s : State) (e w : Nat) : Nat := (mget s.sched (e * 2 + w) 0).toNat

/-- R325: an entry's day matches a local day. -/
def dayMatches (w0 : Nat) (day : Int) : Bool :=
  if w0.testBit 11 then let (_, m, d) := civil day; bitsOf w0 16 12 = d && bitsOf w0 20 17 = m
  else w0.testBit (11 + weekday day)

/-- R324: an entry acts; `fade`: a BRIGHT entry takes its FADE. -/
def State.schedAct (s : State) (e : Nat) (cvs : List Nat) (fade : Bool) : State :=
  let w1 := s.schedWord e 1
  let v := bitsOf w1 15 0
  match bitsOf (s.schedWord e 0) 23 21 with
  | 1 => s.each cvs fun cv s =>
      { s with keep := { s.keep with
          fades := mset s.keep.fades cv none (some ⟨s.schedCap cv, v, s.now, if fade then bitsOf w1 31 16 else 0⟩) } }
  | 2 => let t := { s with keep := { s.keep with schedBudget := some v } }; t.rebudget s false
  | 3 => { s with keep := { s.keep with schedEnergy := some v } }
  | 4 =>
    let z := signedOf 16 v
    if -900 ≤ z && z ≤ 900 then s.setRn Reg.timeZoneOfs (toCode 12 z) else s
  | _ => s

/-- R324: the local minutes of the preceding 7 days, up to now, at which an entry matches. -/
def State.lastMatch (s : State) (e : Nat) : Option Int :=
  let w0 := s.schedWord e 0
  let now := s.localMin
  (((List.range 9).map fun (d : Nat) => s.localDay - (d : Int)).filter fun day =>
    let m := day * 1440 + (bitsOf w0 10 0 : Int)
    w0.testBit 31 && bitsOf w0 10 0 < 1440 && m ≤ now && now - 10080 ≤ m && dayMatches w0 day).head?.map
      fun day => day * 1440 + (bitsOf w0 10 0 : Int)

/-- R324: the latest matching entry among those of an action (a later index wins in one minute). -/
def State.latestEntry (s : State) (action : Nat) (cv : Option Nat) : Option Nat :=
  ((List.range 64).foldl (fun (best : Option (Int × Nat)) e =>
    let w0 := s.schedWord e 0
    let on := bitsOf w0 23 21 = action && (match cv with | none => true | some c => w0.testBit (24 + c))
    match (if on then s.lastMatch e else none), best with
    | none, b => b
    | some m, none => some (m, e)
    | some m, some (bm, be) => if bm ≤ m then some (m, e) else some (bm, be)) none).map (·.2)

/-- R324: a replay of the schedule: for each action other than ZONE, and for BRIGHT each canvas, the latest entry of
the preceding 7 days, without fade. -/
def State.replay (s : State) : State :=
  if s.bit Reg.keepCtrl 5 && s.calValid then
    let s1 := s.each [0, 1, 2, 3] fun cv s => match s.latestEntry 1 (some cv) with
      | some e => s.schedAct e [cv] false
      | none => s
    s1.each [2, 3] fun a s => match s.latestEntry a none with
      | some e => s.schedAct e [] false
      | none => s
  else s

/-- R324, R359: after a change of local time of more than 60 s the schedule is replayed. -/
def State.zoneChanged (s old : State) : State :=
  if 60 < (s.localSec - old.localSec).natAbs then s.replay else s

/-- R324: a local minute begins: every valid entry that matches fires in index order, once per local day. -/
def State.scheduleMinute (s : State) : State :=
  if !s.bit Reg.keepCtrl 5 then s
  else if !s.calValid then s.setBit Reg.keepStat 15
  else if s.localSec % 60 ≠ 0 then s
  else
    let day := s.localDay
    let min := (s.localMin % 1440).toNat
    let s1 := s.each (List.range 64) fun e t =>
      let w0 := t.schedWord e 0
      if w0.testBit 31 && bitsOf w0 10 0 = min && dayMatches w0 day && mget t.keep.firedOn e none ≠ some day then
        (({ t with keep := { t.keep with firedOn := mset t.keep.firedOn e none (some day) } }).schedAct e
          (bitList (bitsOf w0 27 24) 4) true).setBit Reg.keepStat 14
      else t
    (s1.zoneChanged s).limitChanged s

def execScheduleMinute (dt : Nat) (s : State) : Host.Outcome State Fault Refusal := done (s.tick dt).scheduleMinute

/-- R325: a write to SCHED_DATA goes to the shadow of the addressed word; entries 64 to 67 are read-only. -/
def State.writeSchedData (s : State) (v : Word) : State :=
  if s.pageHeld 0x003 then (s.violate Reg.keepSchedData 2).setBit Reg.wardStat 4
  else
    let e := s.fld Reg.keepSchedIdx 6 0
    let w := s.fld Reg.keepSchedIdx 7 7
    if 64 ≤ e || (w = 0 && 4 < bitsOf v.toNat 23 21) then s.violate Reg.keepSchedData 3
    else { s with schedSh := mset s.schedSh (e * 2 + w) none (some v) }

def execSchedDataWrite (dt : Nat) (_req : Nat) (v : Word) (s : State) : Host.Outcome State Fault Refusal :=
  done ((s.tick dt).writeSchedData v)

/-- R325: what SCHED_DATA reads. -/
def State.schedData (s : State) : Nat :=
  let e := s.fld Reg.keepSchedIdx 6 0
  let w := s.fld Reg.keepSchedIdx 7 7
  if 64 ≤ e then
    let cv := e - 64
    if w = 0 then s.kNow cv + s.ktOf cv * 65536 else s.capOf cv + s.keep.ke * 65536
  else
    let act := s.schedWord e w
    if s.bit Reg.latchCtrl 0 then act else ((mget s.schedSh (e * 2 + w) none).map BitVec.toNat).getD act

end Sys2Proof.Machine
end

