-- ==== Sys2Proof/Machine/Gates.lean ====
section
/-! DEFINITION. Gate lists, windows and wire times of the chain ports (R22, R201, R234-R238). -/
namespace Sys2Proof.Machine

/-- R22, R234: wire time of one byte in tenths of a ns, by RATE code. -/
def byteTime (rate : Nat) : Nat := match rate with | 0 => 80 | 1 => 32 | _ => 8

/-- R234: word period in tenths of a ns. -/
def wordTime (rate : Nat) : Nat := match rate with | 0 => 160 | 1 => 64 | _ => 32

/-- The RATE code in force on a port. -/
def State.rateOf (s : State) (p : Nat) : Nat := s.fld (Reg.prtMode p) 1 0

/-- The entry every place of a gate list holds at reset (R253). -/
def gateReset : Gate := ⟨0xFF, 8388607, true⟩

/-- R235: the entries of a list up to the first with END = 1, or entry 255. -/
def gateEntries (l : Sparse Gate) : Nat → Nat → List Gate
  | _, 0 => []
  | i, n + 1 =>
    let g := mget l i gateReset
    if g.last then [g] else g :: gateEntries l (i + 1) n

/-- R235: the spans of one cycle: start, end and gates of each entry; the last one holds to the end of the cycle. -/
def gateSpans (cycle : Nat) : List Gate → Nat → List (Nat × Nat × Nat)
  | [], _ => []
  | [g], pos => if pos < cycle then [(pos, cycle, g.gates)] else []
  | g :: r, pos =>
    if pos < cycle then (pos, min cycle (pos + g.interval), g.gates) :: gateSpans cycle r (pos + g.interval) else []

/-- A gate list in force: its spans, base and cycle. -/
structure GateList where
  spans : List (Nat × Nat × Nat)
  base  : Nat
  cycle : Nat
  deriving DecidableEq, Repr

/-- The list a table, base and cycle spell. -/
def mkGates (l : Sparse Gate) (base cycle : Nat) : GateList := ⟨gateSpans cycle (gateEntries l 0 256) 0, base, cycle⟩

/-- The operational list of a port. -/
def Port.operList (p : Port) : GateList := mkGates p.oper p.base p.cycle

/-- The list a pending takeover will put in force, with its instant. -/
def Port.nextList (p : Port) : Option (Nat × GateList) := p.takeover.map fun (t, b, c) => (t, mkGates p.admin b c)

/-- R235: place of an instant (tenths) in the cycle. -/
def GateList.phase (g : GateList) (t : Nat) : Nat :=
  if g.cycle = 0 then 0 else (((t : Int) - (g.base * 10 : Nat)) % (g.cycle * 10 : Nat)).toNat

/-- R235: the gates at an instant in tenths of a ns. -/
def GateList.gatesAt (g : GateList) (t : Nat) : Nat :=
  match g.spans.find? fun (a, b, _) => a * 10 ≤ g.phase t && g.phase t < b * 10 with
  | some (_, _, m) => m
  | none => 0

/-- R236: queue `q` is open throughout the cycle. -/
def GateList.always (g : GateList) (q : Nat) : Bool := g.spans.all fun (_, _, m) => m.testBit q

/-- The leading run of spans that open `q`, as a length in ns. -/
def openRun (q : Nat) : List (Nat × Nat × Nat) → Nat
  | [] => 0
  | (a, b, m) :: r => if m.testBit q then (b - a) + openRun q r else 0

/-- R236: what is left of the window of `q` at an instant (tenths) at which `q` is open; none: endless. -/
def GateList.leftAt (g : GateList) (q t : Nat) : Option Nat :=
  if g.always q then none
  else
    let ph := g.phase t
    let rest := g.spans.dropWhile fun (_, b, _) => b * 10 ≤ ph
    match rest with
    | [] => some 0
    | (a, _, _) :: _ => some (openRun q (rest ++ g.spans) * 10 - (ph - a * 10))

/-- R236: the lengths of the windows of `q`, in ns, when it is not open throughout. -/
def windowsOf (q : Nat) : List (Nat × Nat × Nat) → Nat → List Nat
  | [], run => if run = 0 then [] else [run]
  | (a, b, m) :: r, run =>
    if m.testBit q then windowsOf q r (run + (b - a))
    else if run = 0 then windowsOf q r 0 else run :: windowsOf q r 0

/-- R236: every window of `q`; none: endless. -/
def GateList.windows (g : GateList) (q : Nat) : Option (List Nat) :=
  if g.always q then none
  else
    let i := g.spans.findIdx fun (_, _, m) => !m.testBit q
    some (windowsOf q (g.spans.drop i ++ g.spans.take i) 0)

/-- The longest window of `q` in ns; none: endless. -/
def GateList.longest (g : GateList) (q : Nat) : Option Nat := (g.windows q).map fun l => l.foldl max 0

/-- The shortest window of `q` in ns (0: no window); none: endless. -/
def GateList.shortest (g : GateList) (q : Nat) : Option Nat := (g.windows q).map fun l => (l.min?).getD 0

/-- R236: the end of the window of `q` in a list that holds the instant `t` (tenths); none: endless; some 0: `q` is closed. -/
def GateList.endAt (g : GateList) (q t : Nat) : Option Nat :=
  if !(g.gatesAt t).testBit q then some 0 else (g.leftAt q t).map (t + ·)

/-- R237, R243: the end of the window of `q` that holds the instant `t` (tenths), across a pending takeover, whose list
judges every instant from T on; none: endless; some 0: `q` is closed. -/
def Port.windowEnd (p : Port) (q t : Nat) : Option Nat :=
  let e := p.operList.endAt q t
  match p.nextList with
  | none => e
  | some (tt, n) =>
    if tt * 10 ≤ t then n.endAt q t
    else if e ≠ some 0 && e.all (fun x => tt * 10 ≤ x) then
      (if (n.gatesAt (tt * 10)).testBit q then n.endAt q (tt * 10) else some (tt * 10))
    else e

/-- R235, R243: the gates of a port at an instant (tenths), by the list that judges it. -/
def Port.gatesAt (p : Port) (t : Nat) : Nat :=
  match p.nextList with
  | some (tt, n) => if tt * 10 ≤ t then n.gatesAt t else p.operList.gatesAt t
  | none => p.operList.gatesAt t

/-! ### Frames -/

/-- R179, R200: bytes per pixel of a canvas. -/
def State.bppOf (s : State) (cv : Nat) : Nat := if s.bit (Reg.cvMode cv) 1 then 4 else 6

/-- R237: frame bytes from the destination address through the FCS. -/
def State.frameBytes (s : State) : LFrame → Nat
  | .pix p => p.count * s.bppOf p.cv + 42
  | .msg _ _ body => max 64 (26 + body.length)

/-- R237: wire time of `n` frame bytes in tenths of a ns. -/
def wireTime (rate n : Nat) : Nat := (n + 20) * byteTime rate

/-- R238: a frame of `n` bytes fits some window of `q` in a list. -/
def GateList.admits (g : GateList) (rate q n : Nat) : Bool :=
  match g.longest q with
  | none => true
  | some w => wireTime rate n + wordTime rate ≤ w * 10

/-- R238, R291: a frame fits no window of its queue, now or after a pending takeover, or is longer than 9,216 bytes. -/
def State.oversize (s : State) (p q n : Nat) : Bool :=
  let pt := s.prt p
  9216 < n || !(pt.operList.admits (s.rateOf p) q n || (match pt.nextList with
    | none => false
    | some (_, g) => g.admits (s.rateOf p) q n))

/-- R238: the window limit on a pixel segment of `n` frame bytes: the shortest LQ0 window of each list. -/
def segmentFits (rate n : Nat) (lists : List GateList) : Bool :=
  lists.all fun g =>
    match g.shortest 0 with
    | none => true
    | some w => wireTime rate n + wordTime rate ≤ w * 10

/-- R201: the smallest number of segments of a tile line of `w` pixels. -/
def segCount (rate bpp pmax w : Nat) (lists : List GateList) : Nat → Nat → Nat
  | _, 0 => w
  | k, fuel + 1 =>
    let px := cdiv w k
    if px * bpp ≤ pmax && segmentFits rate (px * bpp + 42) lists then k
    else if w ≤ k then w else segCount rate bpp pmax w lists (k + 1) fuel

/-- R201: P_max of a tile. -/
def pmaxOf (cap : Nat) : Nat := if cap.testBit 2 then 9174 else 1476

/-- R201: the segments of a tile line: first column and pixels. -/
def segments (w k : Nat) : List (Nat × Nat) :=
  (List.range k).map fun i =>
    let big := cdiv w k
    let m := w % k
    if m = 0 then (i * big, big)
    else if i < m then (i * big, big) else (m * big + (i - m) * (w / k), w / k)

end Sys2Proof.Machine
end

