-- ==== Sys2Proof/Machine/Link.lean ====
section
/-! DEFINITION. Link queues, frames on the wire, transmission decisions, shapers, deficit round robin and inbound
policing (R197-R200, R232-R251). -/
namespace Sys2Proof.Machine

/-! ### Bytes of a frame -/

/-- R223: the protocol version a port speaks. -/
def State.verOf (s : State) (p : Nat) : Nat := if s.bit (Reg.prtMode p) 2 then 1 else 2

/-- R197: the Hasp ring position of the device. -/
def State.ringPos (s : State) : Nat := s.fld (Reg.haspRing 0) 3 0

/-- R197, R198: Ethernet header, Parolo header and body of a downstream message, padded, with its FCS. -/
def State.frameFor (s : State) (p type tile seq : Nat) (body : List Byte) : List Byte :=
  let hdr := beBytes 6 0x03504C4B0000 ++ ([0x02, 0x50, 0x4C, 0x00] : List Byte) ++ beBytes 1 s.ringPos ++ beBytes 1 p
    ++ beBytes 2 (s.fld Reg.schedEtype 15 0)
    ++ beBytes 1 (s.verOf p * 16) ++ beBytes 1 type ++ beBytes 2 tile ++ beBytes 2 seq ++ ([0] : List Byte) ++ beBytes 1 p
  let b := hdr ++ body
  let b := b ++ List.replicate (60 - b.length) 0
  b ++ leBytes 4 (crc32 b)

/-- R176, R183: the vault address of a tail granule: in the tail reserve, or from 16 on in the area within system use that
takes its place once its section is lost (notes/assumptions/131). -/
def tailAddr (t : Nat) : Nat := if t < 16 then 0x01F00000 + t * 65536 else 0x01B00000 + (t - 16) * 65536

/-- R177, R178: the vault address of byte `i` of a bank of a canvas. -/
def Bank.addr (b : Bank) (bankB : Bool) (i : Nat) : Nat :=
  let g := if bankB then b.granB else b.granA
  match g[i / 65536]? with
  | some n => 0x02000000 + n * 65536 + i % 65536
  | none => tailAddr ((if bankB then b.tailB else b.tailA).getD 0) + i % 65536

/-- R177: the vault address of byte `i` of a ring, through the page map. -/
def Bank.ringAddr (b : Bank) (i : Nat) : Nat := b.ring.getD (i / 4096) 0 * 4096 + i % 4096

/-- R229: the canvas position, relative to the tile's corner, of tile column `u`, row `v` under ORIENT. -/
def orientXY (o w h u v : Nat) : Nat × Nat :=
  let u := if 4 ≤ o then w - 1 - u else u
  match o % 4 with
  | 0 => (u, v)
  | 1 => (h - 1 - v, u)
  | 2 => (w - 1 - u, h - 1 - v)
  | _ => (v, w - 1 - u)

/-- R229: the size of a tile on its canvas after its orientation. -/
def orientSize (o w h : Nat) : Nat × Nat := if o % 2 = 0 then (w, h) else (h, w)

/-- R185: the vault address of byte `i` of the raster of a through-mode canvas in its ring: line y lies in slot y mod L. -/
def State.ringByte (s : State) (cv i : Nat) : Nat :=
  let b := s.bank cv
  let n := b.w * b.bpp
  b.ringAddr (i / n % s.fld (Reg.scnLeadLines cv) 10 0 * n + i % n)

/-- R179, R180, R185: the vault addresses that scan-out reads for a packet, in payload order: the ring for a first transmission
of a through-mode frame, the bank for everything else. -/
def State.pixAddrs (s : State) (x : Pix) (bankB : Bool) : List Nat :=
  let t := s.tile x.tile
  let b := s.bank x.cv
  let at_ := fun i => if b.single && !x.resend then s.ringByte x.cv i else b.addr bankB i
  (List.range x.count).flatMap fun i =>
    let (dx, dy) := orientXY t.orient t.w t.h (x.x0 + i) x.line
    let p := ((t.y + dy) * b.w + t.x + dx) * b.bpp
    (List.range b.bpp).map fun k => at_ (p + k)

/-- R179, R200: the payload of a pixel packet: the vault codes of its pixels. -/
def State.payload (s : State) (x : Pix) (bankB : Bool) : List Byte := (s.pixAddrs x bankB).map s.vb

/-- The bank that holds a frame under delivery (R180). -/
def State.bankOf (s : State) (cv frame : Nat) : Bool :=
  match (s.cv cv).deliv with
  | some d => if d.frame = frame then d.bank = 1 else false
  | none => false

/-- R189: line latching is active on a canvas. -/
def State.lineLatch (s : State) (cv : Nat) : Bool := s.bit (Reg.cvMode cv) 2 && s.bit (Reg.scnCtrl cv) 0

/-- R200: the body of a PIXELS frame with its payload. -/
def State.pixBody (s : State) (p : Nat) (x : Pix) : List Byte :=
  let pay := s.payload x (s.bankOf x.cv x.frame)
  let fmt := (if s.bppOf x.cv = 6 then 1 else 0) + (if x.resend then 2 else 0) + (if s.lineLatch x.cv then 4 else 0)
  beBytes 4 x.frame ++ beBytes 2 x.line ++ beBytes 2 x.x0 ++ beBytes 2 x.count ++ beBytes 1 fmt ++ ([0] : List Byte)
    ++ beBytes 4 (if s.verOf p = 1 then 0 else crc32c pay) ++ pay

/-- R208, R209: ORIGIN of a TIME and T1 of an ECHO request are written as the frame leaves: the wall time at which
its start-of-frame delimiter leaves, seven bytes after its first bit. -/
def stampBody (type rate start : Nat) (body : List Byte) : List Byte :=
  if type = 0x20 || type = 0x21 then beBytes 8 ((start + 7 * byteTime rate) / 10) ++ body.drop 8 else body

/-- The message type and tile number of a frame. -/
def LFrame.typeTile : LFrame → Nat × Nat
  | .pix p => (0x10, p.tile)
  | .msg t n _ => (t, n)

/-- The bytes a frame has on the wire when it starts at `start`. -/
def State.wireBytes (s : State) (p seq start : Nat) (f : LFrame) : List Byte :=
  match f with
  | .pix x => s.frameFor p 0x10 x.tile seq (s.pixBody p x)
  | .msg type tile body => s.frameFor p type tile seq (stampBody type (s.rateOf p) start body)

/-! ### Shapers -/

/-- Tokens are counted in 1/(256 × 10^10) byte. -/
def tokenUnit : Nat := 2560000000000

/-- R246: a bucket depth, at least 9,216 bytes. -/
def depthOf (bytes : Nat) : Nat := max 9216 bytes * tokenUnit

/-- A bucket pair filled up to an instant in tenths of a nanosecond, at rates per tenth; one not used yet is full. -/
def refill (b : Option Bucket) (rc rp dc dp at_ : Nat) : Bucket :=
  match b with
  | none => ⟨dc, dp, at_⟩
  | some b => ⟨min dc (b.c + rc * (at_ - b.at_)), min dp (b.p + rp * (at_ - b.at_)), max at_ b.at_⟩

/-- The colours of R246. -/
inductive Colour | green | yellow | red
  deriving DecidableEq, Repr

/-- R247: RED is worse than YELLOW, and YELLOW than GREEN. -/
def Colour.worse : Colour → Colour → Colour
  | .red, _ | _, .red => .red
  | .yellow, _ | _, .yellow => .yellow
  | _, _ => .green

/-- R246, R248: the colour of `n` bytes against a bucket. -/
def colourOf (b : Bucket) (n : Nat) (v1 : Bool) : Colour :=
  let k := n * tokenUnit
  if v1 then (if k ≤ b.c then .green else .red)
  else if k ≤ b.c && k ≤ b.p then .green else if k ≤ b.p then .yellow else .red

/-- R246, R248: what sending takes. -/
def Bucket.take (b : Bucket) (n : Nat) (c : Colour) (v1 : Bool) : Bucket :=
  let k := n * tokenUnit
  if v1 then { b with c := b.c - k } else { b with p := b.p - k, c := if c = .green then b.c - k else b.c }

/-- The rate and depth words of a tile shaper. -/
def State.shaperWord (s : State) (t w : Nat) : Nat := (mget s.shapers (t * 2 + w) 0).toNat

/-- R246: a tile shaper's bucket at an instant in tenths of a nanosecond. -/
def State.tileBucket (s : State) (t at_ : Nat) : Bucket :=
  let r := s.shaperWord t 0
  let d := s.shaperWord t 1
  refill (mget s.tshaper t none) (bitsOf r 15 0 * 31250 * 256) (bitsOf r 31 16 * 31250 * 256)
    (depthOf (bitsOf d 15 0 * 64)) (depthOf (bitsOf d 31 16 * 64)) at_

/-- R249: a tile shaper's bucket settled at its parameters, now. -/
def State.settleTile (s : State) (t : Nat) : State :=
  { s with tshaper := mset s.tshaper t none (some (s.tileBucket t (s.now * 10))) }

/-- Bytes per second of a line. -/
def lineRate (rate : Nat) : Nat := match rate with | 0 => 125000000 | 1 => 312500000 | _ => 1250000000

/-- R247: a port shaper's bucket at an instant in tenths of a nanosecond. -/
def State.portBucket (s : State) (p at_ : Nat) : Bucket :=
  let o := Reg.prtShape p
  let l := lineRate (s.rateOf p)
  refill (s.prt p).shaper (l * s.fld o 7 0) (l * s.fld o 15 8)
    (depthOf (s.fld o 21 16 * 1024)) (depthOf (s.fld o 27 22 * 1024)) at_

/-- R249: a port shaper's bucket settled at its parameters, now. -/
def State.settleShape (s : State) (p : Nat) : State :=
  s.setPrt p { (s.prt p) with shaper := some (s.portBucket p (s.now * 10)) }

/-- The class of a queue (R232): 0 GATED, 1 EXPRESS, 2 BEST_EFFORT. -/
def State.lqClass (s : State) (p q : Nat) : Nat := if q = 0 then 0 else if q = 7 then 1 else s.fld (Reg.prtLqCfg p q) 1 0

/-- The tile shaper that a frame from queue `q` meets, if any (R246). -/
def State.tileShaped (s : State) (p q tile : Nat) : Bool :=
  q ≠ 0 && q ≠ 7 && s.bit (Reg.prtLqCfg p q) 24 && tile < 4096 && bitsOf (s.shaperWord tile 0) 31 16 ≠ 0

/-- The port shaper applies to a queue (R247). -/
def State.portShaped (s : State) (p q : Nat) : Bool :=
  q ≠ 0 && q ≠ 7 && s.bit (Reg.prtLqCfg p q) 25 && s.fld (Reg.prtShape p) 15 8 ≠ 0

/-- R247: frame bytes plus OVH. -/
def State.ovhBytes (s : State) (p n : Nat) : Nat := n + s.fld (Reg.prtShape p) 31 28 * 4

/-- R246-R248: the colour at `d` (tenths) of a frame at the head of a queue. -/
def State.frameColour (s : State) (p q d : Nat) (f : LFrame) : Colour :=
  let n := s.frameBytes f
  let v1 := s.verOf p = 1
  let t := f.typeTile.2
  let ct := if s.tileShaped p q t then colourOf (s.tileBucket t d) n v1 else .green
  let cp := if s.portShaped p q then colourOf (s.portBucket p d) (s.ovhBytes p n) v1 else .green
  ct.worse cp

/-! ### Queues -/

/-- The frames of a link queue. -/
def Port.queue (p : Port) (q : Nat) : List Queued := mget p.lq q []

/-- The port with another content of a link queue. -/
def Port.setQueue (p : Port) (q : Nat) (l : List Queued) : Port := { p with lq := mset p.lq q [] l }

/-- Bytes in a queue. -/
def State.queueBytes (s : State) (l : List Queued) : Nat := l.foldl (fun n x => n + s.frameBytes x.frame) 0

/-- R229: the first and the last canvas line that the pixels of a packet lie on. -/
def State.pixRows (s : State) (x : Pix) : Nat × Nat :=
  let t := s.tile x.tile
  let a := (orientXY t.orient t.w t.h x.x0 x.line).2
  let b := (orientXY t.orient t.w t.h (x.x0 + x.count - 1) x.line).2
  (t.y + min a b, t.y + max a b)

/-- R186: every line that a packet's pixels lie on has been composed. -/
def State.rowsComposed (s : State) (k : Comp) (x : Pix) : Bool :=
  let (a, b) := s.pixRows x
  (List.range (b + 1 - a)).all fun i => k.composedLines.contains (a + i)

/-- R186: a pixel packet of a through-mode frame may go once its pixels are composed and delivery has started. -/
def State.pixReady (s : State) (x : Pix) : Bool :=
  let c := s.cv x.cv
  if s.bit (Reg.cvMode x.cv) 2 then
    match c.comp, c.deliv with
    | some k, some d => if k.frame = d.frame then k.done || s.rowsComposed k x else true
    | _, some _ => true
    | _, none => false
  else true

/-- R234, R237: the head of a queue may start at `d` (tenths). -/
def State.eligible (s : State) (p q d : Nat) : Option Queued :=
  match (s.prt p).queue q with
  | [] => none
  | h :: _ =>
    let n := s.frameBytes h.frame
    let fits := match (s.prt p).windowEnd q d with
      | none => true
      | some e => d + wireTime (s.rateOf p) n ≤ e
    let ready := match h.frame with
      | .pix x => s.pixReady x
      | _ => true
    if fits && ready && h.at_ * 10 ≤ d && s.frameColour p q d h.frame ≠ .red then some h else none

/-- R245: the deficit round robin pass for one colour: the queue picked, the pointer and the deficits. After a whole round
in which no head qualifies, the pointer is back where it stood (notes/assumptions/125). -/
def State.drr (s : State) (p d : Nat) (col : Colour) (stood : Nat) : Nat → Nat → Nat → Sparse Nat → Option Nat × Nat × Sparse Nat
  | 0, _, _, def_ => (none, stood, def_)
  | fuel + 1, idle, at_, def_ =>
    if 6 < idle then (none, stood, def_)
    else
      let q := if at_ = 0 then 1 else at_
      let arrived := at_ = 0 || idle ≠ 0
      let next := if q = 6 then 1 else q + 1
      if s.lqClass p q ≠ 2 then s.drr p d col stood fuel (idle + 1) next def_
      else
        match (s.prt p).queue q with
        | [] => s.drr p d col stood fuel (idle + 1) next (mset def_ q 0 0)
        | h :: _ =>
          if (s.eligible p q d).isSome && s.frameColour p q d h.frame = col then
            let x := mget def_ q 0 + (if arrived then s.fld (Reg.prtLqCfg p q) 15 8 * 64 else 0)
            if s.frameBytes h.frame ≤ x then (some q, q, mset def_ q 0 x)
            else s.drr p d col stood fuel 1 next (mset def_ q 0 x)
          else s.drr p d col stood fuel (idle + 1) next def_

/-- R234: the queue whose head goes at `d`, if any, with the round robin state left. -/
def State.pick (s : State) (p d : Nat) : Option Nat × Nat × Sparse Nat :=
  let pt := s.prt p
  if (s.eligible p 0 d).isSome then (some 0, pt.drrAt, pt.deficit)
  else
    match [7, 6, 5, 4, 3, 2, 1].find? fun q => s.lqClass p q = 1 && (s.eligible p q d).isSome with
    | some q => (some q, pt.drrAt, pt.deficit)
    | none =>
      match s.drr p d .green pt.drrAt 2000 0 pt.drrAt pt.deficit with
      | (none, a, df) => s.drr p d .yellow a 2000 0 a df
      | r => r

/-- R234: an instant rounded up to the port's next word boundary. -/
def State.wordUp (s : State) (p t : Nat) : Nat :=
  let w := wordTime (s.rateOf p)
  let g := (s.prt p).grid % w
  if t ≤ g then g else g + cdiv (t - g) w * w

/-- A sample of a queue after a change (R251). -/
def Port.sample (p : Port) (q : Nat) (f : QSample → QSample) : Port :=
  { p with samples := mset p.samples q {} (f (mget p.samples q {})) }

/-- Count one in a port counter of ITEM 7 (R251); counts wrap at 32 bits. -/
def Port.count (p : Port) (i : Nat) : Port :=
  { p with counters := mset p.counters i 0 ((mget p.counters i 0 + 1) % 2 ^ 32) }

/-- R237, R251: at `d` LQ0 is open and its head, ready to go, does not fit the rest of the window. -/
def State.inTail (s : State) (p d : Nat) : Bool :=
  let pt := s.prt p
  (pt.gatesAt d).testBit 0 && match pt.queue 0 with
    | ⟨.pix x, t⟩ :: _ => s.pixReady x && t * 10 ≤ d && (s.eligible p 0 d).isNone
    | _ => false

/-- R234, R246, R251: send the head of queue `q` at `d`. -/
def State.transmit (s : State) (p q d drrAt : Nat) (def_ : Sparse Nat) : State :=
  let pt := s.prt p
  match pt.queue q with
  | [] => s
  | h :: rest =>
    let n := s.frameBytes h.frame
    let (ty, tl) := h.frame.typeTile
    let v1 := s.verOf p = 1
    let seq := mget pt.seqs ty 0
    let was : Choice := ⟨h.at_, pt.drrAt, pt.deficit, seq, mget pt.samples q {}, pt.counters, pt.shaper, mget s.tshaper tl none,
      s.rn (Reg.prtTxFrames p)⟩
    let wire : Wire := ⟨h.frame, q, s.wireBytes p seq d h.frame, d, d + wireTime (s.rateOf p) n, was⟩
    let col := s.frameColour p q d h.frame
    let tailUse := q ≠ 0 && s.inTail p d
    let def2 := if s.lqClass p q = 2 then mset def_ q 0 (mget def_ q 0 - n) else def_
    let s1 := if s.tileShaped p q tl then
        let b := s.tileBucket tl d
        { s with tshaper := mset s.tshaper tl none (some (b.take n (colourOf b n v1) v1)) }
      else s
    let pt1 := if s.portShaped p q then
        let b := s.portBucket p d
        let m := s.ovhBytes p n
        { pt with shaper := some (b.take m (colourOf b m v1) v1) }
      else pt
    let pt2 := { (pt1.setQueue q rest) with
      wire := some wire, drrAt := drrAt, deficit := def2, seqs := mset pt.seqs ty 0 ((seq + 1) % 65536) }
    let pt3 := pt2.sample q fun x => { x with
      maxWait := min 0xFFFFFFFF (max x.maxWait (d / 10 - h.at_)), sent := (x.sent + 1) % 2 ^ 32, bytes := x.bytes + n }
    let pt4 := if col = .yellow then pt3.count 2 else pt3
    let pt5 := if tailUse then pt4.count 3 else pt4
    (s1.setPrt p pt5).incr (Reg.prtTxFrames p)

/-- R72: the effective latch lead of a canvas. -/
def State.leadOf (s : State) (cv : Nat) : Nat :=
  let l := s.fld (Reg.cvLead cv) 20 0
  if s.bit (Reg.cvMode cv) 3 then max l 50000 else l

/-- R77: T_max of a canvas: at least T_min. -/
def State.tmaxOf (s : State) (cv : Nat) : Nat := max (s.fld (Reg.cvTmax cv) 25 0) (s.fld (Reg.cvTmin cv) 25 0)

/-- R71, R77: the timing values that the generator uses: those of a delayed start, else the registers. -/
def State.timingOf (s : State) (cv : Nat) : Timing :=
  (s.cv cv).held.getD ⟨s.fld (Reg.cvTmin cv) 25 0, s.tmaxOf cv, s.leadOf cv, s.rn (Reg.cvGenlock cv)⟩

/-- R192: the instant by which a resend of a canvas's frame must have ended: L_N less the lead, or the deadline; none: the
frame is no longer in delivery. -/
def State.resendLimit (s : State) (cv frame : Nat) : Option Nat :=
  let c := s.cv cv
  let t := s.timingOf cv
  if c.deliv.any (·.frame = frame) then some ((c.latchAt.getD (c.lastLatch + t.tmax)) - t.lead) else none

/-- R68: a resend has been sent, or will not be sent: delivery waits for it no longer. -/
def State.settleOwed (s : State) (x : Pix) : State :=
  let c := s.cv x.cv
  match c.deliv with
  | some d => s.setCv x.cv { c with deliv := some { d with owed := d.owed.erase { x with resend := false } } }
  | none => s

/-- R192: resends at the head of a pixel queue that could not end before the deadline are dropped. -/
def State.dropLate (s : State) (p d : Nat) : Nat → State
  | 0 => s
  | fuel + 1 =>
    match (s.prt p).queue 0 with
    | ⟨.pix x, _⟩ :: r =>
      let late := match s.resendLimit x.cv x.frame with
        | some l => l * 10 ≤ d + wireTime (s.rateOf p) (s.frameBytes (.pix x))
        | none => true
      if x.resend && late then
        (((s.setPrt p ((s.prt p).setQueue 0 r)).settleOwed x).setBit (Reg.scnStat x.cv) 2).dropLate p d fuel
      else s
    | _ => s

/-- R234: a frame taken for a decision point that has not come yet goes back to the head of its queue, so that the point
finds every head that is present then. -/
def State.takeBack (s : State) (p : Nat) : State :=
  let pt := s.prt p
  match pt.wire with
  | none => s
  | some w =>
    if w.start ≤ s.now * 10 then s
    else
      let (ty, tl) := w.frame.typeTile
      let pt1 := (pt.setQueue w.queue (⟨w.frame, w.was.at_⟩ :: pt.queue w.queue)).sample w.queue fun _ => w.was.sample
      let pt2 := { pt1 with
        wire := none, drrAt := w.was.drrAt, deficit := w.was.deficit, seqs := mset pt1.seqs ty 0 w.was.seq
        counters := w.was.counters, shaper := w.was.shaper }
      ({ s with tshaper := mset s.tshaper tl none w.was.tile }.setPrt p pt2).setRn (Reg.prtTxFrames p) w.was.frames

/-! ### Words that scan-out cannot correct (R182) -/

/-- R13: a frame outside the promise counts, once. -/
def State.countDegraded (s : State) (cv frame : Nat) : State :=
  let c := s.cv cv
  if c.degraded.contains frame then s
  else
    (((s.setCv cv { c with degraded := frame :: c.degraded.take 3 }).incr Reg.wardDegrCnt).lifeAdd64 8 1).journal 10 cv 0 0 frame

/-- The delivery with the count of a packet's resends. -/
def Deliv.setResent (d : Deliv) (x : Pix) (n : Nat) : Deliv :=
  let y := { x with resend := false }
  { d with resends := (d.resends.filter (·.1 ≠ y)) ++ [(y, n)] }

/-- R182: scan-out would read an uncorrectable word for a packet. -/
def State.readsBad (s : State) (x : Pix) : Bool :=
  !s.vault.bad.isEmpty && (s.pixAddrs x (s.bankOf x.cv x.frame)).any fun a => s.vault.bad.contains (a / 8)

/-- R13, R182: a packet is withheld: it is neither sent nor resent in its frame, which counts as degraded. -/
def State.withholdPix (s : State) (p : Nat) (x : Pix) : State :=
  let y := { x with resend := false }
  let same := fun (f : LFrame) => match f with
    | .pix z => { z with resend := false } = y
    | .msg _ _ _ => false
  let s1 := (s.setPrt p ((s.prt p).setQueue 0 (((s.prt p).queue 0).filter fun q => !same q.frame))).setBit (Reg.scnStat x.cv) 4
  let c := s1.cv x.cv
  match c.deliv with
  | some d => (s1.setCv x.cv { c with deliv := some { d.setResent x 255 with degr := true, owed := d.owed.filter (· ≠ y) } }).countDegraded
      x.cv d.frame
  | none => s1

/-- R182: packets at the head of a pixel queue that are ready and would carry an uncorrectable word are withheld. -/
def State.withholdBad (s : State) (p : Nat) : Nat → State
  | 0 => s
  | fuel + 1 =>
    match (s.prt p).queue 0 with
    | ⟨.pix x, _⟩ :: _ => if s.pixReady x && s.readsBad x then (s.withholdPix p x).withholdBad p fuel else s
    | _ => s

/-- R234: a transmission decision at instant `t` (tenths); `follows`: the wire has just become free there. -/
def State.decide (s : State) (p t : Nat) (follows : Bool) : State :=
  let s := s.takeBack p
  if (s.prt p).wire.isSome || !(s.prt p).up then s
  else
    let d := if follows then t else s.wordUp p t
    let s := s.withholdBad p ((s.prt p).queue 0).length
    let s := s.dropLate p d ((s.prt p).queue 0).length
    match s.pick p d with
    | (none, a, df) => s.setPrt p { (s.prt p) with drrAt := a, deficit := df }
    | (some q, a, df) => s.transmit p q d a df

/-- R233: bytes a queue of LQ1-LQ6 may hold. -/
def State.lqLimit (s : State) (p q : Nat) : Nat := s.fld (Reg.prtLqCfg p q) 23 16 * 1024

/-- R233: the place of frames that wait with their producer for room in a queue of LQ1-LQ6. -/
def waitQueue (q : Nat) : Nat := 8 + q

/-- R232, R251: what stands in a queue's buffer: of LQ0, which is refilled from the vault, two packets. -/
def Port.buffered (p : Port) (q : Nat) : List Queued := if q = 0 then (p.queue 0).take 2 else p.queue q

/-- Append a frame to a queue and keep its depth sample (R251). -/
def State.append (s : State) (p q : Nat) (f : LFrame) : State :=
  let pt := (s.prt p).setQueue q ((s.prt p).queue q ++ [⟨f, s.now⟩])
  let n := s.queueBytes (pt.buffered q)
  s.setPrt p (pt.sample q fun x => { x with maxBytes := max x.maxBytes n })

/-- R238: a frame that fits no window is dropped. -/
def State.dropOversize (s : State) (p q : Nat) : State :=
  let s1 := (s.incr (Reg.prtOversizeCnt p)).setBit Reg.schedStat 1
  s1.setPrt p ((s1.prt p).sample q fun x => { x with oversize := (x.oversize + 1) % 2 ^ 32 })

/-- R233: a queue of LQ1-LQ6 has no room for `n` more bytes; a frame of any size finds room in an empty one
(notes/assumptions/138). -/
def State.noRoom (s : State) (p q n : Nat) : Bool :=
  1 ≤ q && q ≤ 6 && s.lqLimit p q < s.queueBytes ((s.prt p).queue q) + n && !((s.prt p).queue q).isEmpty

/-- R233, R238: enqueue a frame; one that fits no window is dropped, a TIME not yet sent is replaced, and a frame for a
queue without room waits with its producer, behind those that wait already. -/
def State.enqueue (s : State) (p q : Nat) (f : LFrame) : State :=
  let s := s.takeBack p
  let n := s.frameBytes f
  let s1 :=
    if s.oversize p q n then s.dropOversize p q
    else if q = 7 && f.typeTile.1 = 0x20 then
      let pt := s.prt p
      (s.setPrt p (pt.setQueue 7 ((pt.queue 7).filter fun x => x.frame.typeTile.1 ≠ 0x20))).append p 7 f
    else if s.noRoom p q n || (q < 7 && !((s.prt p).queue (waitQueue q)).isEmpty) then
      let pt := s.prt p
      s.setPrt p (pt.setQueue (waitQueue q) (pt.queue (waitQueue q) ++ [⟨f, s.now⟩]))
    else s.append p q f
  s1.decide p (s1.now * 10) false

/-- R233: move waiting frames into their queue while there is room. -/
def State.drainQueue (s : State) (p q : Nat) : Nat → State
  | 0 => s
  | fuel + 1 =>
    match (s.prt p).queue (waitQueue q) with
    | [] => s
    | h :: r =>
      if s.noRoom p q (s.frameBytes h.frame) then s
      else ((s.setPrt p ((s.prt p).setQueue (waitQueue q) r)).append p q h.frame).drainQueue p q fuel

/-- R233: room has returned on a port. -/
def State.drainWaiting (s : State) (p : Nat) : State :=
  s.each [1, 2, 3, 4, 5, 6] fun q s => s.drainQueue p q ((s.prt p).queue (waitQueue q)).length

/-- R242: arm the takeover of the admin list of a port, with the new base and cycle. -/
def State.armTakeover (s : State) (p : Nat) : State :=
  let b := s.rn64 (Reg.prtGateBaseLo p)
  let c := s.fld (Reg.prtGateCycle p) 26 0
  let t := if s.now + 2000 ≤ b then b else b + cdiv (s.now + 2000 - b) c * c
  let s1 := if s.now + 2000 ≤ b then s else (s.setBit Reg.schedStat 0).incr Reg.schedLateStartCnt
  s1.setPrt p { (s1.prt p) with takeover := some (t, b, c) }

/-- R357, R242: the operational list begins again at T, on its own base and cycle. -/
def State.retake (s : State) (p : Nat) : State :=
  match (s.prt p).retake with
  | none => s
  | some t =>
    if s.now < t then s
    else ((s.setPrt p { (s.prt p) with retake := none }).setBit Reg.schedStat 2).decide p (s.now * 10) false

/-- R243: the takeover of a port at T. -/
def State.takeOver (s : State) (p : Nat) : State :=
  match (s.prt p).takeover with
  | none => s.retake p
  | some (t, b, c) =>
    if s.now < t then s
    else
      let pt := s.prt p
      ((s.setPrt p { pt with oper := pt.admin, base := b, cycle := c, takeover := none }).setBit Reg.schedStat 2).decide p
        (s.now * 10) false

/-! ### Inbound -/

/-- R250: the policer bucket of a port now, in tokens. -/
def State.policeBucket (s : State) (p : Nat) : Bucket :=
  let o := Reg.prtPolice p
  refill (s.prt p).police (s.fld o 15 0 * 12500 * 256) 0 (s.fld o 23 16 * 1024 * tokenUnit) 0 (s.now * 10)

/-- R250: the discovery bucket of a port now, in frames. -/
def State.discBucket (s : State) (p : Nat) : Bucket :=
  let o := Reg.schedDiscRate
  refill (s.prt p).disc (s.fld o 15 0 * 256) 0 (s.fld o 23 16 * tokenUnit) 0 (s.now * 10)

/-- An upstream frame that passed the checks of R250: type, source tile, HOP, and the bytes from the Parolo
header on. -/
structure Upstream where
  type : Nat
  tile : Nat
  hop  : Nat
  body : List Byte
  deriving DecidableEq, Repr

/-- R250 steps 1 and 2: FCS, EtherType, version and direction. -/
def State.checkFrame (s : State) (p : Nat) (f : List Byte) : Option Upstream :=
  let n := f.length
  if n < 64 then none
  else if ofLe (f.drop (n - 4)) ≠ crc32 (f.take (n - 4)) then none
  else if beAt f 12 2 ≠ s.fld Reg.schedEtype 15 0 then none
  else
    let h := f.drop 14
    let vd := beAt h 0 1
    if vd / 16 ≠ s.verOf p || !vd.testBit 3 then none
    else some ⟨beAt h 1 1, beAt h 2 2, beAt h 6 1, h⟩

/-- R250: receive an upstream frame: count, check and police it. -/
def State.receive (s : State) (p : Nat) (f : List Byte) : State × Option Upstream :=
  let s1 := s.incr (Reg.prtRxFrames p)
  match s1.checkFrame p f with
  | none => (s1, none)
  | some u =>
    if u.type = 0x02 && !(beAt u.body 26 1).testBit 0 then
      let b := s1.discBucket p
      if tokenUnit ≤ b.c && s1.fld Reg.schedDiscRate 15 0 ≠ 0 then (s1.setPrt p { (s1.prt p) with disc := some { b with c := b.c - tokenUnit } }, some u)
      else (((s1.setPrt p ({ (s1.prt p) with disc := some b }.count 1)).setBit Reg.schedStat 4), none)
    else
      let b := s1.policeBucket p
      let k := f.length * tokenUnit
      if k ≤ b.c then (s1.setPrt p { (s1.prt p) with police := some { b with c := b.c - k } }, some u)
      else (((s1.setPrt p ({ (s1.prt p) with police := some b }.count 0)).setBit Reg.schedStat 3), none)

/-! ### Indirect gate access and samples -/

/-- R253: the gate entry as GATE_DATA reads it. -/
def gateWord (g : Gate) : Nat := g.gates % 256 + g.interval % 2 ^ 23 * 256 + (if g.last then 2 ^ 31 else 0)

/-- R253: what GATE_DATA reads. -/
def State.gateData (s : State) (p : Nat) : Nat :=
  let o := Reg.prtGateIdx p
  let l := if s.bit o 8 then (s.prt p).oper else (s.prt p).admin
  gateWord (mget l (s.fld o 7 0) gateReset)

/-- R253: advance ENTRY under AUTOINC. -/
def State.gateAdvance (s : State) (p : Nat) : State :=
  let o := Reg.prtGateIdx p
  if s.bit o 16 then s.setFld o 7 0 (s.fld o 7 0 + 1) else s

/-- R241, R253: a write to GATE_DATA. -/
def State.writeGateData (s : State) (p : Nat) (v : Word) : State :=
  let o := Reg.prtGateData p
  if s.pageHeld (0xA0 + p) || (s.prt p).takeover.isSome then s.violate o 2
  else if s.bit (Reg.prtGateIdx p) 8 then s.violate o 3
  else
    let i := s.fld (Reg.prtGateIdx p) 7 0
    let g := mget (s.prt p).admin i gateReset
    let w := v.toNat
    let iv := bitsOf w 30 8
    let bad := iv ≠ g.interval && iv < 16
    let g2 : Gate := ⟨bitsOf w 7 0, if bad then g.interval else iv, bitsOf w 31 31 = 1⟩
    let s1 := s.setPrt p { (s.prt p) with admin := mset (s.prt p).admin i gateReset g2 }
    let s2 := if bad then s1.violate o 3 else s1
    if bad && g2 = g then s2 else s2.gateAdvance p

/-- R253: GATE_CMD.LOAD. -/
def State.gateLoad (s : State) (p : Nat) : State :=
  if (s.prt p).takeover.isSome then s.violate (Reg.prtGateCmd p) 2
  else s.setPrt p { (s.prt p) with admin := (s.prt p).oper }

/-- R251: the sampled value. -/
def State.qsample (s : State) : Nat :=
  let o := Reg.schedQsampleSel
  let p := s.prt (s.fld o 5 0)
  let q := s.fld o 8 6
  let x := mget p.samples q {}
  let l := p.buffered q
  match s.fld o 11 9 with
  | 0 => s.queueBytes l
  | 1 => x.maxBytes
  | 2 => l.length
  | 3 => x.maxWait
  | 4 => x.sent
  | 5 => x.bytes / 64 % 2 ^ 32
  | 6 => x.oversize
  | _ => if q < 4 then mget p.counters q 0 else 0

/-- R251: restart the maxima of the selected queue; the largest depth starts from the bytes that stand there. -/
def State.qRestart (s : State) : State :=
  let o := Reg.schedQsampleSel
  let p := s.fld o 5 0
  let q := s.fld o 8 6
  let n := s.queueBytes ((s.prt p).buffered q)
  s.setPrt p ((s.prt p).sample q fun x => { x with maxBytes := n, maxWait := 0 })

end Sys2Proof.Machine
end

