-- ==== Sys2Proof/Machine/HaspBase.lean ====
section
/-! DEFINITION. Hasp frames as they are sent (R381, R382). -/
namespace Sys2Proof.Machine

/-- An Ethernet frame padded to 60 bytes, with its FCS. -/
def ethFrame (l : List Byte) : List Byte :=
  let b := l ++ List.replicate (60 - l.length) (0 : Byte)
  b ++ leBytes 4 (crc32 b)

/-- R381: a Hasp frame from ring position `pos`. -/
def haspFrame (pos type src hop seq : Nat) (body : List Byte) : List Byte :=
  ethFrame (beBytes 6 0x0350_4C48_0000 ++ beBytes 5 0x02_504C_4800 ++ beBytes 1 pos ++ beBytes 2 0x88B6 ++ beBytes 1 1
    ++ beBytes 1 type ++ beBytes 1 src ++ beBytes 1 hop ++ beBytes 2 seq ++ body)

def State.haspPort (s : State) (p : Nat) : HaspPort := mget s.hasp.ports p {}

/-- The Hasp ports that carry frames. -/
def State.haspUp (s : State) : List Nat := [0, 1].filter fun p => (s.haspPort p).up && s.bit (Reg.haspCtrl p) 0

/-- R382: send a frame of the device's own out of both ports; its SEQ runs per TYPE. -/
def State.haspSend (s : State) (type : Nat) (body : List Byte) : State :=
  let seq := mget s.hasp.seqs type 0
  let f := haspFrame s.ringPos type s.ringPos 0 seq body
  { s with
    hasp := { s.hasp with seqs := mset s.hasp.seqs type 0 ((seq + 1) % 65536) }
    tx := s.tx ++ s.haspUp.map fun p => .hasp p f }

/-- R380: two devices with one position have been heard in the last 3 ms: neither is in the ring. -/
def State.haspClash (s : State) (pos : Nat) : Bool := (mget s.hasp.clash pos none).any fun t => Decidable.decide (s.now < t + 3000000)

/-- R383: the other members of the ring: the positions heard in the last 3 ms. -/
def State.haspMembers (s : State) : List (Nat × Member) :=
  if s.haspClash s.ringPos then []
  else s.hasp.members.filterMap fun x => match x.2 with
    | some m => if s.now < m.heard + 3000000 && !s.haspClash x.1 then some (x.1, m) else none
    | none => none

end Sys2Proof.Machine
end

