-- ==== Sys2Proof/Machine/AddrMap.lean ====
section
/-! DEFINITION. The device physical address map of the DDR5 memory and its bytes (R93-R95, R256-R259). -/
namespace Sys2Proof.Machine

/-- R257: an interleave set: its channels in ascending order, base and size in bytes. -/
structure IlvSet where
  channels : List Nat
  base     : Nat
  size     : Nat
  deriving DecidableEq, Repr

/-- R257: the set a word of ILVk spells; none: not enabled. -/
def ilvOf (w : Nat) : Option IlvSet :=
  if w.testBit 31 then
    let sz := bitsOf w 29 19
    some ⟨bitList w 8, bitsOf w 18 8 * 2 ^ 30, (if sz = 0 then 2048 else sz) * 2 ^ 30⟩
  else none

/-- R257: where a channel's share of set `k` starts, in channel address bytes. -/
def shareStart (sets : List (Option IlvSet)) (k c : Nat) : Nat :=
  (sets.take k).foldl (fun n x => match x with
    | some i => if i.channels.contains c && i.channels.length ≠ 0 then n + i.size / i.channels.length else n
    | none => n) 0

/-- The four sets as the registers hold them. -/
def State.ilvs (s : State) : List (Option IlvSet) := [0, 1, 2, 3].map fun k => ilvOf (s.rn (Reg.memIlv k))

/-- R258: log2 of the granule. -/
def granLog (gran : Nat) : Nat := 8 + 2 * gran

/-- R258: the channel and channel address of an address in a set. -/
def placeIn (i : IlvSet) (start : Nat → Nat) (gran : Nat) (hash : Bool) (a : Nat) : Nat × Nat :=
  let g := granLog gran
  let o := a - i.base
  let u := o >>> g
  let h := if hash then u ^^^ (u >>> 8) ^^^ (u >>> 16) ^^^ (u >>> 24) else u
  let n := i.channels.length
  let c := i.channels.getD (h % n) 0
  (c, start c + (u / n) * 2 ^ g + o % 2 ^ g)

/-- R257, R258: where an address lies: set, channel and channel address; none: unmapped. -/
def placeAddr (sets : List (Option IlvSet)) (gran : Nat) (hash : Bool) (a : Nat) : Option (Nat × Nat × Nat) :=
  match (sets.zipIdx).find? fun x => match x.1 with
      | some i => i.base ≤ a && a < i.base + i.size && i.channels ≠ []
      | none => false with
  | some (some i, k) => some (k, placeIn i (shareStart sets k) gran hash a)
  | _ => none

/-- R259: the fields of a channel address, with the mapped rank index and the byte offset within the rank. -/
structure ChanLoc where
  sub  : Nat
  bg   : Nat
  bank : Nat
  rank : Nat
  row  : Nat
  col  : Nat
  off  : Nat
  deriving DecidableEq, Repr

/-- R259: decode a channel address. `kLog` = log2 of the bursts in a row, `bankBits` 2 or 1, `ranks` the number of
mapped ranks, `rankBytes` the size of one. -/
def decodeCa (kLog bankBits ranks rankBytes : Nat) (rankTop hash : Bool) (ca : Nat) : ChanLoc :=
  let rtop := if rankTop && rankBytes ≠ 0 then ca / rankBytes else 0
  let low := if rankTop && rankBytes ≠ 0 then ca % rankBytes else ca
  let b := low / 64
  let n := 6 + (kLog - 2) + bankBits
  let bg := b / 8 % 8
  let ch := b / 64 % 2 ^ (kLog - 2)
  let bk := b / 2 ^ (6 + (kLog - 2)) % 2 ^ bankBits
  let up := b / 2 ^ n
  let (rk, row) := if rankTop then (rtop, up) else if ranks = 0 then (0, up) else (up % ranks, up / ranks)
  let off := (b % 2 ^ n + row * 2 ^ n) * 64 + low % 64
  ⟨b % 2, if hash then bg ^^^ (row % 8) else bg, if hash then bk ^^^ (row / 8 % 2 ^ bankBits) else bk, rk, row,
   ch * 4 + b / 2 % 4, off⟩

/-- R255: log2 of the bursts in a row, bank bits, logical ranks and rank size of a channel's DIMM. -/
def State.kLog (s : State) (c : Nat) : Nat := if s.bit (Reg.mcRanks c) 21 then 6 else 7
def State.bankBits (s : State) (c : Nat) : Nat := if s.bit (Reg.mcRanks c) 22 then 1 else 2
def State.logicalRanks (s : State) (c : Nat) : Nat := s.fld (Reg.mcRanks c) 7 4
def State.rankBytes (s : State) (c : Nat) : Nat := s.fld (Reg.mcRanks c) 19 8 * 2 ^ 30

/-- R256: the mapped logical ranks of a channel, in ascending order without the spare. -/
def State.mappedRanks (s : State) (c : Nat) : List Nat :=
  (List.range (s.logicalRanks c)).filter fun r => !(s.bit (Reg.mcSpare c) 3 && s.fld (Reg.mcSpare c) 2 0 = r)

/-- R256, R275: the rank that holds an offset of a mapped rank: the spare takes a retired rank's index, and during the
migration what lies below the copy mark. -/
def State.rankFor (s : State) (c r off : Nat) : Nat :=
  let m := Reg.mcMigrStat c
  if s.fld m 2 0 = r && (s.bit m 7 || (s.bit m 6 && off < (mget s.mem.chans c {}).migPos * 256)) then s.fld m 5 3 else r

/-- The key of a byte of a rank of a channel, by its place in the devices. -/
def locKey (c rank : Nat) (l : ChanLoc) : Nat :=
  c * 2 ^ 44 + rank * 2 ^ 41 + ((((l.row * 4 + l.bank) * 8 + l.bg) * 128 + l.col) * 2 + l.sub) * 64 + l.off % 64

/-- R259: a channel address decoded on the channel's DIMM. -/
def State.decodeOn (s : State) (c ca : Nat) : ChanLoc :=
  decodeCa (s.kLog c) (s.bankBits c) (s.mappedRanks c).length (s.rankBytes c) (s.bit Reg.memMap 2) (s.bit Reg.memHash 1) ca

/-- R256-R259, R281: where an address lies now: channel, rank, key and location; none where no set holds it, or its rank
is in maximum power saving mode. -/
def State.placeFull (s : State) (a : Nat) : Option (Nat × Nat × Nat × ChanLoc) :=
  match placeAddr s.ilvs (s.fld Reg.memMap 1 0) (s.bit Reg.memHash 0) (a % 2 ^ 41) with
  | none => none
  | some (_, c, ca) =>
    let l := s.decodeOn c ca
    match (s.mappedRanks c)[l.rank]? with
    | none => none
    | some r0 =>
      let r := s.rankFor c r0 l.off
      if (s.fld (Reg.mcSrStat c) 15 8).testBit r then none else some (c, r, locKey c r l, l)

/-- Channel, rank and key of an address. -/
def State.place (s : State) (a : Nat) : Option (Nat × Nat × Nat) := (s.placeFull a).map fun x => (x.1, x.2.1, x.2.2.1)

/-- R276, R334: a rank is lost. -/
def State.rankLost (s : State) (c r : Nat) : Bool := s.faults.lost.any fun k => k = 128 + 8 * c + r || k / 2 = 257

/-- A byte of memory as a read returns it: none where it is tainted (unmapped, R95, lost, R276, or poisoned, R273). -/
def State.rdByte (s : State) (a : Nat) : Option Byte :=
  match s.place a with
  | none => none
  | some (c, r, k) => if s.rankLost c r || mget s.poison (k / 64) false then none else some (mget s.dram k 0)

/-- A byte of memory with poison ignored: 0 where it is unmapped or poisoned. -/
def State.rdByte0 (s : State) (a : Nat) : Byte := (s.rdByte a).getD 0

/-- Write a byte; one at an unmapped address is discarded and sets MEM.STAT.UNMAPPED (R257), one in a lost rank is
discarded (R276). -/
def State.wrByte (s : State) (a : Nat) (b : Byte) : State :=
  match s.place a with
  | none => s.setBit Reg.memStat 2
  | some (c, r, k) => if s.rankLost c r then s else { s with dram := mset s.dram k 0 b }

/-- The burst of an address is written clean or poisoned (R182, R273). -/
def State.setPoison (s : State) (a : Nat) (p : Bool) : State :=
  match s.place a with
  | none => s
  | some (_, _, k) => { s with poison := mset s.poison (k / 64) false p }

def State.memChan (s : State) (c : Nat) : MemChan := mget s.mem.chans c {}
def State.setMemChan (s : State) (c : Nat) (x : MemChan) : State :=
  { s with mem := { s.mem with chans := mset s.mem.chans c {} x } }

/-- R279: the self-refresh state of a channel. -/
def State.srState (s : State) (c : Nat) : Nat := s.fld (Reg.mcSrStat c) 2 0

/-- R279: what a request does to a channel on its way into self-refresh or in it. -/
def State.srTouch (s : State) (c : Nat) : State :=
  match s.srState c with
  | 1 => (((s.setFld (Reg.mcSrStat c) 2 0 0).setFld (Reg.mcSrStat c) 7 4 2).incr (Reg.mcSrAbortCnt c)).setBit (Reg.mcStat c) 4
  | 2 =>
    let tie := (s.memChan c).exitAt = s.now && s.now ≠ 0
    ((s.setFld (Reg.mcSrStat c) 2 0 3).setMemChan c { (s.memChan c) with exitAt := s.now }).setBitIf tie (Reg.mcStat c) 5
  | _ => s

/-- R279: a request reaches a channel: it ends an entry into self-refresh or self-refresh itself, and its IDLE time runs anew. -/
def State.reachChan (s : State) (c : Nat) : State :=
  let s1 := s.srTouch c
  s1.setMemChan c { (s1.memChan c) with last := s.now }

/-- R279: a range is read or written, from any port: the channels it lies in are reached; unmapped bursts reach none. -/
def State.reach (s : State) (a n : Nat) : State :=
  (List.range (cdiv (a % 64 + n) 64)).foldl (fun s i => match s.place (a / 64 * 64 + 64 * i) with
    | some (c, _, _) => s.reachChan c
    | none => s) s

/-- Write bytes from an address up; a burst written whole is clean (R274). -/
def State.wrBytes (s : State) (a : Nat) (l : List Byte) : State :=
  let s1 := (l.zipIdx).foldl (fun s x => s.wrByte (a + x.2) x.1) (s.reach a l.length)
  let first := cdiv a 64
  (List.range ((a + l.length) / 64 - first)).foldl (fun s i => s.setPoison ((first + i) * 64) false) s1

/-- Read bytes with poison ignored. -/
def State.rdBytes (s : State) (a n : Nat) : List Byte := (List.range n).map fun i => s.rdByte0 (a + i)

/-- Whether a byte range meets an unmapped address. -/
def State.anyUnmapped (s : State) (a n : Nat) : Bool := (List.range (cdiv (a % 64 + n) 64)).any fun i => (s.place (a / 64 * 64 + 64 * i)).isNone

/-- A burst reads poisoned. -/
def State.burstPoisoned (s : State) (a : Nat) : Bool :=
  match s.place a with
  | some (c, r, k) => s.rankLost c r || mget s.poison (k / 64) false
  | none => false

/-- Whether a byte range meets a poisoned burst. -/
def State.anyPoison (s : State) (a n : Nat) : Bool :=
  (List.range (cdiv (a % 64 + n) 64)).any fun i => s.burstPoisoned (a / 64 * 64 + 64 * i)

/-- R109, R274: `n` poisoned bursts are read. -/
def State.countPoison (s : State) (n : Nat) : State :=
  if n = 0 then s
  else (s.setBit Reg.memStat 3).setRn Reg.memPoisonCnt (min 0xFFFFFFFF (s.rn Reg.memPoisonCnt + n))

/-- The poisoned bursts that a byte range meets. -/
def State.poisonedIn (s : State) (a n : Nat) : Nat :=
  ((List.range (cdiv (a % 64 + n) 64)).filter fun i => s.burstPoisoned (a / 64 * 64 + 64 * i)).length

/-- R95, R109, R257, R279: what reading a range reports, and the channels it reaches. -/
def State.reportRead (s : State) (a n : Nat) : State :=
  ((s.reach a n).setBitIf (s.anyUnmapped a n) Reg.memStat 2).countPoison (s.poisonedIn a n)

end Sys2Proof.Machine
end

