-- ==== Sys2Proof/Machine/L20.lean ====
section
/-! DEFINITION. The L20 format, its one rounding, and real functions in fixed point (R132, R133, R138-R140). -/
namespace Sys2Proof.Machine

/-- R132: the value of a code in units of 2^-46. -/
def l20Val (c : Nat) : Nat := if c / 16384 % 64 = 0 then 0 else (16384 + c % 16384) * 2 ^ (c / 16384 % 64)

/-- R133: the exact value num / den, in units of 2^-46, rounded once. -/
def l20Round (num : Int) (den : Nat) : Nat :=
  if num ≤ 0 then 0
  else
    let n := num.toNat
    let q := n / den
    if q < 2 ^ 15 then 0
    else
      let e := Nat.log2 q - 14
      let d := den * 2 ^ e
      let k := n / d
      let r := n % d
      let k := if d < 2 * r || (2 * r = d && k % 2 = 1) then k + 1 else k
      min 0xFFFFF (e * 16384 + (k - 16384))

/-- The largest code whose value does not exceed num / den (units of 2^-46), and whether it is exact. -/
def l20Floor (num den : Nat) : Nat × Bool :=
  let q := num / den
  if q < 2 ^ 15 then (0, num = 0)
  else
    let e := Nat.log2 q - 14
    let d := den * 2 ^ e
    (min 0xFFFFF (e * 16384 + (num / d - 16384)), num % d = 0)

/-- The code of an integer number of cd/m². -/
def l20Int (w : Nat) : Nat := l20Round (w * 2 ^ 46 : Nat) 1

/-! ### Real functions in fixed point with 128 fraction bits -/

def fxOne : Int := 2 ^ 128

def fxMul (a b : Int) : Int := a * b / fxOne

def fxDiv (a b : Int) : Int := if b = 0 then 0 else a * fxOne / b

/-- Σ z^(2k+1) / (2k+1), the series of atanh, `n` terms. -/
def fxAtanh (z : Int) : Nat → Int → Nat → Int
  | _, _, 0 => 0
  | k, p, n + 1 => p / (2 * k + 1 : Nat) + fxAtanh z (k + 1) (fxMul (fxMul p z) z) n

def fxLn2 : Int := 2 * fxAtanh (fxOne / 3) 0 (fxOne / 3) 44

/-- The natural logarithm of x > 0. -/
def fxLn (x : Int) : Int :=
  let k : Int := (Nat.log2 x.toNat : Int) - 128
  let m := if 0 ≤ k then x / 2 ^ k.toNat else x * 2 ^ (-k).toNat
  let z := fxDiv (m - fxOne) (m + fxOne)
  k * fxLn2 + 2 * fxAtanh z 0 z 44

/-- Σ r^k / k!, `n` terms. -/
def fxExpSum (r : Int) : Nat → Int → Nat → Int
  | _, _, 0 => 0
  | k, p, n + 1 => p + fxExpSum r (k + 1) (fxMul p r / (k + 1 : Nat)) n

/-- The exponential. -/
def fxExp (x : Int) : Int :=
  let k := x / fxLn2
  let r := x - k * fxLn2
  let e := fxExpSum r 0 fxOne 40
  if 0 ≤ k then e * 2 ^ k.toNat else e / 2 ^ (-k).toNat

/-- x^y for x > 0; 0 for x ≤ 0. -/
def fxPow (x y : Int) : Int := if x ≤ 0 then 0 else fxExp (fxMul y (fxLn x))

/-- A rational as fixed point. -/
def fxRat (n : Int) (d : Nat) : Int := n * fxOne / d

/-- sin(π n / d) for 0 ≤ n / d ≤ 1/2, by its series. -/
def fxSinSum (x2 : Int) : Nat → Int → Nat → Int
  | _, _, 0 => 0
  | k, p, n + 1 => p - fxSinSum x2 (k + 1) (fxMul p x2 / ((2 * k + 2) * (2 * k + 3) : Nat)) n

/-- π, by Machin's formula. -/
def fxAtan (d : Nat) : Nat → Int → Nat → Int
  | _, _, 0 => 0
  | k, p, n + 1 => p / (2 * k + 1 : Nat) - fxAtan d (k + 1) (p / (d * d : Nat)) n

def fxPi : Int := 4 * (4 * fxAtan 5 0 (fxOne / 5) 60 - fxAtan 239 0 (fxOne / 239) 20)

/-- sin(π n / d) for any integer n. -/
def fxSinPi (n : Int) (d : Nat) : Int :=
  let m := n % (2 * d : Nat)
  let (m, neg) := if (d : Int) ≤ m then (m - d, true) else (m, false)
  let m := if (d : Int) < 2 * m then (d : Int) - m else m
  let x := fxPi * m / d
  let v := fxSinSum (fxMul x x) 0 x 24
  if neg then -v else v

/-! ### Transfer functions -/

/-- R138: the power functions x = (n/d)^(12/5) × W: the largest L20 code that does not exceed it, found bit by bit
with exact integers, and whether it is exact. -/
def powFloor (n d w : Nat) : Nat × Bool :=
  let rhs := n ^ 12 * w ^ 5 * 2 ^ 230
  let le := fun (c : Nat) => l20Val c ^ 5 * d ^ 12 ≤ rhs
  let c := (List.range 20).foldl (fun c i => if le (c + 2 ^ (19 - i)) then c + 2 ^ (19 - i) else c) 0
  let c := if c < 16384 then 0 else c
  (c, l20Val c ^ 5 * d ^ 12 = rhs)

/-- R140: one of the two codes that enclose the exact result, monotone in the signal `e`. -/
def faithful (fn e : Nat) (r : Nat × Bool) : Nat :=
  if r.2 then r.1 else if Config.upFrom fn r.1 ≤ e then (if r.1 = 0 then 16384 else min 0xFFFFF (r.1 + 1)) else r.1

/-- R140: the code below a number known in fixed point to better than 2^-88, and whether the exact number is that code: it
is when a code lies within that distance. -/
def l20Near (v : Int) : Nat × Bool :=
  let at_ := fun (x : Int) => (l20Floor (x.toNat * 2 ^ 46) (2 ^ 128)).1
  let lo := at_ (v - 2 ^ 40)
  let hi := at_ (v + 2 ^ 40)
  (hi, lo ≠ hi)

/-- R138 PQ: 10,000 × ((E^(1/m2) − c1) / (c2 − c3 E^(1/m2)))^(1/m1), the L20 code below it. -/
def pqFloor (e : Nat) : Nat × Bool :=
  let p := fxPow (fxRat e 65536) (fxRat 32 2523)
  let num := p - fxRat 3424 4096
  if num ≤ 0 then (0, true)
  else
    let den := fxRat 2413 128 - fxMul (fxRat 2392 128) p
    l20Near (10000 * fxPow (fxDiv num den) (fxRat 16384 2610))

/-- R139: the inverse OETF of HLG, fixed point. -/
def hlgScene (e : Nat) : Int :=
  if e ≤ 32768 then fxRat (e * e : Nat) (3 * 65536 * 65536)
  else
    (fxExp (fxDiv (fxRat e 65536 - fxRat 55991073 100000000) (fxRat 17883277 100000000)) + fxRat 28466892 100000000) / 12

/-- R139: γ = 1.2 + 0.42 log10(W / 1,000), clamped to [1.0, 1.5]. -/
def hlgGamma (w : Nat) : Int :=
  let g := fxRat 12 10 + fxMul (fxRat 42 100) (fxDiv (fxLn (fxRat w 1000)) (fxLn (fxRat 10 1)))
  max fxOne (min (fxRat 15 10) g)

/-- R138-R140: linear light of a pixel as L20 codes, from R'G'B' on the 2^-16 grid. -/
def linearise (tf w : Nat) (r g b : Nat) : Nat × Nat × Nat :=
  let fn := tf * 65536 + w
  match tf with
  | 3 =>
    if r = 65536 && g = 65536 && b = 65536 then (l20Int w, l20Int w, l20Int w)
    else
      let er := hlgScene r
      let eg := hlgScene g
      let eb := hlgScene b
      let ys := (2627 * er + 6780 * eg + 593 * eb) / 10000
      if ys ≤ 0 then (0, 0, 0)
      else
        let k := fxPow ys (hlgGamma w - fxOne)
        let f := fun (e : Nat) (x : Int) =>
          if e = 0 then 0
          else faithful fn e (l20Near (w * fxMul k x))
        (f r er, f g eg, f b eb)
  | _ =>
    let f := fun (e : Nat) =>
      if e = 0 then 0
      else match tf with
        | 0 =>
          if e * 100000 ≤ 4045 * 65536 then faithful fn e (l20Floor (w * e * 100 * 2 ^ 46) (65536 * 1292))
          else if e = 65536 then l20Int w
          else faithful fn e (powFloor (1000 * e + 55 * 65536) (1055 * 65536) w)
        | 1 => if e = 65536 then l20Int w else faithful fn e (powFloor e 65536 w)
        | 2 => if e = 65536 then l20Int 10000 else faithful (2 * 65536) e (pqFloor e)
        | _ => faithful fn e (l20Floor (w * e * 2 ^ 46) 65536)
    (f r, f g, f b)

end Sys2Proof.Machine
end

