-- ==== Sys2Proof/Machine/Colour.lean ====
section
/-! DEFINITION. The colour path of a lane and of a canvas as functions on integers: normalisation, signal matrices,
tone, gamut, blending, canvas matrix, brightness, encode and dither (R131-R151). -/
namespace Sys2Proof.Machine

/-- Round half up of num / den, clamped to [0, top]. -/
def halfUp (num : Int) (den top : Nat) : Nat := min top ((2 * num + den) / (2 * den : Nat)).toNat

/-- R134: a component as a fraction (numerator, denominator): depth, full range, chroma. -/
def normalise (n : Nat) (full chroma : Bool) (v : Nat) : Int × Nat :=
  let f := (2 ^ n - 1) * 2 ^ (16 - n)
  match full, chroma with
  | false, false => ((v : Int) - 4096, 56064)
  | false, true => ((v : Int) - 32768, 57344)
  | true, false => (v, f)
  | true, true => ((v : Int) - 32768, f)

/-- R134, R136: a value on the 2^-16 grid, ties upward, clamped to [0, 1]. -/
def grid16 (num : Int) (den : Nat) : Nat := halfUp (num * 65536) den 65536

/-- R135: alpha of a container value as a 16-bit unorm, for an alpha depth of k bits. -/
def alphaOf (k v : Nat) : Nat :=
  let f := (2 ^ k - 1) * 2 ^ (16 - k)
  min 65535 ((2 * v * 65535 + f) / (2 * f))

/-- R136: a coefficient n / d on the 2^-16 grid, ties away from zero (n, d > 0). -/
def coef16 (n d : Nat) : Int := ((2 * n * 65536 + d) / (2 * d) : Nat)

/-- R136: the four coefficients of a YCbCr matrix: Cr in R, Cb and Cr in G, Cb in B. -/
def yccCoefs (matrix : Nat) : Int × Int × Int × Int :=
  let (kr, kb) := match matrix with | 0 => (2990, 1140) | 1 => (2126, 722) | _ => (2627, 593)
  let kg := 10000 - kr - kb
  (coef16 (2 * (10000 - kr)) 10000, coef16 (2 * kb * (10000 - kb)) (kg * 10000),
   coef16 (2 * kr * (10000 - kr)) (kg * 10000), coef16 (2 * (10000 - kb)) 10000)

/-- A custom matrix: coefficients row by row and offsets, signed 2^-16 (R154). -/
abbrev CMat := Nat → Int

/-- R134-R136: three container values to R'G'B' on the 2^-16 grid. -/
def toRgb (n : Nat) (full ycc : Bool) (matrix : Nat) (cm : CMat) (c : Nat × Nat × Nat) : Nat × Nat × Nat :=
  let y := normalise n full false c.1
  let u := normalise n full ycc c.2.1
  let v := normalise n full ycc c.2.2
  if matrix = 3 then
    let den := y.2 * u.2 * v.2 * 65536
    let row := fun (r : Nat) =>
      cm (3 * r) * y.1 * (u.2 * v.2 : Nat) + cm (3 * r + 1) * u.1 * (y.2 * v.2 : Nat) + cm (3 * r + 2) * v.1 * (y.2 * u.2 : Nat)
        + cm (9 + r) * (y.2 * u.2 * v.2 : Nat)
    (grid16 (row 0) den, grid16 (row 1) den, grid16 (row 2) den)
  else if ycc then
    let (a, b, c, d) := yccCoefs matrix
    let den := y.2 * u.2 * 65536
    (grid16 (y.1 * (u.2 * 65536 : Nat) + a * v.1 * y.2) den,
     grid16 (y.1 * (u.2 * 65536 : Nat) - (b * u.1 + c * v.1) * y.2) den,
     grid16 (y.1 * (u.2 * 65536 : Nat) + d * u.1 * y.2) den)
  else (grid16 y.1 y.2, grid16 u.1 u.2, grid16 v.1 v.2)

/-- R137: remove the premultiplication of a non-linear signal. -/
def unpremult (a e : Nat) : Nat := if a = 0 then 0 else min 65536 (grid16 ((e * 65535 : Nat) : Int) (a * 65536))

/-- R142: y(x) of a tone set exactly for inputs of 2^-16 and above, in units of 2^-46 / 512. -/
def toneExact (knot : Nat → Nat) (x : Nat) : Int :=
  let e := x / 16384 % 64
  let m := x % 16384
  if e < 16 then 0
  else if 48 ≤ e then (l20Val (knot 1024) * 512 : Nat)
  else
    let i := (e - 16) * 32 + m / 512
    let f := m % 512
    (l20Val (knot i) : Int) * (512 - f : Nat) + (l20Val (knot (i + 1)) : Int) * f

/-- R141: tone mapping of a pixel. -/
def toneMap (mode : Nat) (knot : Nat → Nat) (c : Nat × Nat × Nat) : Nat × Nat × Nat :=
  let y := fun (x : Nat) =>
    let e := x / 16384 % 64
    if e ≠ 0 && e < 16 then l20Round ((l20Val (knot 0) * l20Val x : Nat) : Int) (2 ^ 30) else l20Round (toneExact knot x) 512
  match mode with
  | 1 => (y c.1, y c.2.1, y c.2.2)
  | 2 =>
    let mc := if l20Val c.1 < l20Val c.2.1 then c.2.1 else c.1
    let mc := if l20Val mc < l20Val c.2.2 then c.2.2 else mc
    let mv := l20Val mc
    if mv = 0 then (0, 0, 0)
    else
      let low := mc / 16384 % 64 < 16
      let f := fun (x : Nat) =>
        if low then l20Round ((l20Val x * l20Val (knot 0) : Nat) : Int) (2 ^ 30)
        else l20Round ((l20Val x : Int) * toneExact knot mc) (mv * 512)
      (f c.1, f c.2.1, f c.2.2)
  | _ => c

/-- One rounded dot product of a matrix row with a pixel, over `den`. -/
def dotRow (k0 k1 k2 : Int) (den : Nat) (c : Nat × Nat × Nat) : Nat :=
  l20Round (k0 * l20Val c.1 + k1 * l20Val c.2.1 + k2 * l20Val c.2.2) den

/-- R143: a gamut matrix. -/
def gamutMap (src : Nat) (cm : CMat) (c : Nat × Nat × Nat) : Nat × Nat × Nat :=
  match src with
  | 0 => (dotRow 41117 21580 2839 65536 c, dotRow 4528 60263 745 65536 c, dotRow 1074 5768 58694 65536 c)
  | 1 => (dotRow 1 0 0 1 c, dotRow 0 1 0 1 c, dotRow 0 0 1 1 c)
  | _ => (dotRow (cm 0) (cm 1) (cm 2) 65536 c, dotRow (cm 3) (cm 4) (cm 5) 65536 c, dotRow (cm 6) (cm 7) (cm 8) 65536 c)

/-- R144: the effective alpha. -/
def effAlpha (a g : Nat) : Nat := (2 * a * g + 65535) / (2 * 65535)

/-- R145: one blend step of one component. -/
def blend1 (mode : Nat) (pre : Bool) (alpha g c d : Nat) : Nat :=
  let k := if pre then g else alpha
  let under := if mode = 0 then 65535 - alpha else 65535
  l20Round ((l20Val c * k + l20Val d * under : Nat) : Int) 65535

/-- R145: one blend step. -/
def blendStep (mode : Nat) (pre : Bool) (alpha g : Nat) (c d : Nat × Nat × Nat) : Nat × Nat × Nat :=
  (blend1 mode pre alpha g c.1 d.1, blend1 mode pre alpha g c.2.1 d.2.1, blend1 mode pre alpha g c.2.2 d.2.2)

/-- R147: the canvas matrix, and whether a negative result was turned to 0. -/
def canvasMatrix (k : Nat → Int) (c : Nat × Nat × Nat) : (Nat × Nat × Nat) × Bool :=
  let d := fun (r : Nat) => k (3 * r) * l20Val c.1 + k (3 * r + 1) * l20Val c.2.1 + k (3 * r + 2) * l20Val c.2.2
  ((l20Round (d 0) (2 ^ 30), l20Round (d 1) (2 ^ 30), l20Round (d 2) (2 ^ 30)), d 0 < 0 || d 1 < 0 || d 2 < 0)

/-- R148: the brightness gain b from ATTEN and the Keeper's limit k. -/
def brightGain (atten k : Nat) : Nat := (2 * (65535 - atten) * k + 65535) / (2 * 65535)

/-- R148: the brightness multiplication. -/
def brighten (b : Nat) (c : Nat × Nat × Nat) : Nat × Nat × Nat :=
  let f := fun (x : Nat) => l20Round ((l20Val x * b : Nat) : Int) 65535
  (f c.1, f c.2.1, f c.2.2)

/-- R149: the drive clip, and whether it acted. 1.0 is code 0x80000. -/
def driveClip (hue : Bool) (c : Nat × Nat × Nat) : (Nat × Nat × Nat) × Bool :=
  let one := 0x80000
  let m := max c.1 (max c.2.1 c.2.2)
  if m ≤ one then (c, false)
  else if hue then
    let f := fun (x : Nat) => l20Round ((l20Val x * 2 ^ 46 : Nat) : Int) (l20Val m)
    ((f c.1, f c.2.1, f c.2.2), true)
  else ((min c.1 one, min c.2.1 one, min c.2.2 one), true)

/-- R150: the output encode of one component. -/
def encodeLut (lutEn : Bool) (y : Nat → Nat) (x : Nat) : Nat :=
  let e := x / 16384 % 64
  let m := x % 16384
  if !lutEn then min 65535 ((2 * 65535 * l20Val x + 2 ^ 46) / 2 ^ 47)
  else if e = 0 then 0
  else if e < 16 then min 65535 ((2 * y 0 * l20Val x + 2 ^ 30) / 2 ^ 31)
  else if 32 ≤ e then min 65535 (y 1024)
  else
    let i := (e - 16) * 64 + m / 256
    let f := m % 256
    min 65535 ((2 * (y i * (256 - f) + y (i + 1) * f) + 256) / 512)

/-- R151: the ordered dither matrix. -/
def bayer (r c : Nat) : Nat :=
  ([0, 8, 2, 10, 12, 4, 14, 6, 3, 11, 1, 9, 15, 7, 13, 5] : List Nat).getD (r % 4 * 4 + c % 4) 0

/-- R151: the dither threshold. -/
def ditherT (mode : Nat) (temporal : Bool) (seed d x y f c : Nat) : Nat :=
  if d = 16 then 0
  else match mode with
    | 1 =>
      let px := if temporal then f % 4 else 0
      let py := if temporal then f / 4 % 4 else 0
      (2 * bayer (y + py) (x + px) + 1) * 2 ^ (16 - d) / 32
    | 2 =>
      let w := fun (n : Nat) => n % 2 ^ 32
      let h := (w (x * 0x9E37)) ^^^ (w (y * 0x85EB)) ^^^ (w (f * 0xC2B3)) ^^^ seed ^^^ (c * 2 ^ 14)
      let h := h ^^^ (h / 2 ^ 15)
      let h := w (h * 0x2C1B3C6D)
      let h := h ^^^ (h / 2 ^ 12)
      h % 2 ^ (16 - d)
    | _ => 0

/-- R151: quantisation: q. -/
def quantise (d v t : Nat) : Nat := min (2 ^ d - 1) ((v + t) / 2 ^ (16 - d))

/-- R179: the bytes of a pixel from its q codes. -/
def pixelBytes (compact : Bool) (d : Nat) (q : Nat × Nat × Nat) : List Byte :=
  if compact then leBytes 4 (q.1 + q.2.1 * 1024 + q.2.2 * 2 ^ 20)
  else
    let f := fun (x : Nat) => leBytes 2 (x * 2 ^ (16 - d))
    f q.1 ++ f q.2.1 ++ f q.2.2

/-! ### Defaults of the tables -/

/-- R142: knot i of the identity. -/
def toneIdentity (i : Nat) : Nat := if i < 1024 then (i / 32 + 16) * 16384 + i % 32 * 512 else 48 * 16384

/-- R154: the reset value of entry i of an object. -/
def toneDefault (obj i : Nat) : Nat :=
  if obj < 16 then toneIdentity i else if i = 0 || i = 4 || i = 8 then 65536 else 0

/-- R150: entry i of the ramp ⌊65,535 × x_i + 0.5⌋. -/
def lutRamp (i : Nat) : Nat :=
  if i < 1024 then (2 * 65535 * (64 + i % 64) * 2 ^ (i / 64) + 64 * 2 ^ 16) / (2 * 64 * 2 ^ 16) else 65535

/-- R120: sinc of n / d, fixed point. -/
def fxSinc (n : Int) (d : Nat) : Int := if n = 0 then fxOne else fxDiv (fxSinPi n d) (fxPi * n / d)

/-- R120: the Lanczos kernel with a lobes at n / 64. -/
def lanczos (a : Nat) (n : Int) : Int :=
  if ((64 * a : Nat) : Int) ≤ n || n ≤ -((64 * a : Nat) : Int) then 0 else fxMul (fxSinc n 64) (fxSinc n (64 * a))

/-- Rounded to the nearest integer. -/
def fxNearest (x : Int) : Int := (2 * x + fxOne) / (2 * fxOne)

/-- R120: the taps of one phase before the adjustment, in 1/1,024. -/
def rawTaps (t q : Nat) : List Int :=
  (List.range t).map fun (k : Nat) =>
    let n : Int := ((k : Int) - (((t / 2 : Nat) : Int) - 1)) * 64 - (q : Int)
    if t = 2 then (if n.natAbs < 64 then ((64 - n.natAbs : Nat) : Int) * 16 else 0) else fxNearest (1024 * lanczos (t / 2) n)

/-- R120: the largest tap of a phase is adjusted so that the phase sums to 1,024 (the first one where two are
equal, notes/assumptions/8). -/
def defaultTaps (t q : Nat) : List Int :=
  let l := rawTaps t q
  let m := l.foldl max (-100000)
  let i := l.findIdx (· = m)
  l.mapIdx fun j x => if j = i then x + (1024 - l.foldl (· + ·) 0) else x

/-- R119: the table an entry lies in: taps and base. -/
def coefTable (e : Nat) : Nat × Nat :=
  if e < 512 then (8, 0) else if e < 1024 then (8, 512) else if e < 1408 then (6, 1024) else if e < 1664 then (4, 1408) else (2, 1664)

/-- R120: the reset value of a coefficient entry, as 12-bit two's complement. -/
def coefDefault (e : Nat) : Nat :=
  let (t, b) := coefTable e
  toCode 12 ((defaultTaps t ((e - b) / t)).getD ((e - b) % t) 0)

end Sys2Proof.Machine
end

