-- ==== Sys2Proof/Machine/Fetch.lean ====
section
/-! DEFINITION. Surface formats, sample fetch, chroma upsampling and the two polyphase stages of a lane (R89-R97,
R106, R108, R111-R119). -/
namespace Sys2Proof.Machine

/-! ### Formats (R92) -/

/-- R92: the surface format codes of the table. -/
def fmtKnown (f : Nat) : Bool :=
  [0x01, 0x02, 0x03, 0x04, 0x05, 0x08, 0x09, 0x0A, 0x0B, 0x0C, 0x0D, 0x0E, 0x0F, 0x10, 0x14, 0x15, 0x16, 0x18, 0x1F].contains f

/-- A YCbCr format. -/
def fmtYcc (f : Nat) : Bool := (0x08 ≤ f && f ≤ 0x0D) || (0x14 ≤ f && f ≤ 0x16)

/-- Chroma is subsampled horizontally (4:2:2 and 4:2:0). -/
def fmtSub (f : Nat) : Bool := (0x08 ≤ f && f ≤ 0x0A) || (0x14 ≤ f && f ≤ 0x16)

/-- 4:2:0. -/
def fmt420 (f : Nat) : Bool := f = 0x14 || f = 0x15

/-- The formats with a second plane. -/
def fmtPlanes (f : Nat) : Nat := if f = 0x1F then 0 else if 0x14 ≤ f && f ≤ 0x16 then 2 else 1

/-- Component depth. -/
def fmtDepth (f : Nat) : Nat :=
  match f with
  | 0x04 | 0x09 | 0x0C | 0x0F | 0x15 | 0x16 => 10
  | 0x05 => 16
  | 0x0A | 0x0D | 0x10 => 12
  | _ => 8

/-- R135: alpha depth; 16 where the format has none. -/
def fmtAlpha (f : Nat) : Nat := match f with | 0x01 | 0x02 | 0x18 => 8 | 0x04 => 2 | _ => 16

/-- The format carries an alpha per pixel. -/
def fmtHasAlpha (f : Nat) : Bool := f = 1 || f = 2 || f = 4 || f = 5 || f = 0x18

/-- R92, R94: the group of a plane: pixels and bytes. -/
def fmtGroup (f plane : Nat) : Nat × Nat :=
  match f with
  | 0x01 | 0x02 | 0x03 | 0x04 => (1, 4)
  | 0x05 => (1, 8)
  | 0x08 => (2, 4)
  | 0x09 => (2, 5)
  | 0x0A => (2, 6)
  | 0x0B | 0x0E => (1, 3)
  | 0x0C | 0x0F => (4, 15)
  | 0x0D | 0x10 => (2, 9)
  | 0x14 => if plane = 0 then (1, 1) else (2, 2)
  | 0x15 | 0x16 => if plane = 0 then (1, 2) else (2, 4)
  | 0x18 => (1, 1)
  | _ => (1, 0)

/-- R92: bytes per line of a plane. -/
def fmtLineBytes (f plane w : Nat) : Nat := let g := fmtGroup f plane; cdiv w g.1 * g.2

/-! ### Samples -/

/-- What fetching one byte gives: the byte, a tainted one (R108), or one that has not arrived (R97). -/
inductive Got | byte (b : Nat) | taint | missing
  deriving DecidableEq, Repr

/-- A source of bytes by plane, line and byte of the line. -/
abbrev ByteSrc := Nat → Nat → Nat → Got

/-- A sample: three containers and alpha (R111), tainted, not arrived. -/
structure Samp where
  c0 : Nat
  c1 : Nat
  c2 : Nat
  a  : Nat
  taint : Bool := false
  miss  : Bool := false
  deriving DecidableEq, Repr

/-- A number read from bytes with its flags. -/
structure Val where
  v : Nat
  taint : Bool := false
  miss : Bool := false
  deriving DecidableEq, Repr

def Got.val : Got → Val
  | .byte b => ⟨b, false, false⟩
  | .taint => ⟨0, true, false⟩
  | .missing => ⟨0, false, true⟩

/-- `n` bits at bit position `pos` of a line, most significant bit first. -/
def packedBits (get : ByteSrc) (plane line pos n : Nat) : Val :=
  let b0 := pos / 8
  let k := (pos + n - 1) / 8 + 1 - b0
  let vs := (List.range k).map fun i => (get plane line (b0 + i)).val
  let w := vs.foldl (fun a x => a * 256 + x.v) 0
  ⟨(w >>> (8 * k - (pos - 8 * b0) - n)) % 2 ^ n, vs.any (·.taint), vs.any (·.miss)⟩

/-- `k` bytes, least significant first. -/
def leWord (get : ByteSrc) (plane line off k : Nat) : Val :=
  let vs := (List.range k).map fun i => (get plane line (off + i)).val
  ⟨vs.reverse.foldl (fun a x => a * 256 + x.v) 0, vs.any (·.taint), vs.any (·.miss)⟩

/-- Three values and an alpha as a sample, with the flags of all. -/
def mkSamp (a b c al : Val) : Samp :=
  ⟨a.v, b.v, c.v, al.v, a.taint || b.taint || c.taint || al.taint, a.miss || b.miss || c.miss || al.miss⟩

/-- Opaque alpha. -/
def opaqueA : Val := ⟨65535, false, false⟩

/-- R92: the sample of a format without subsampled chroma at surface pixel (x, y). -/
def fullSample (f : Nat) (get : ByteSrc) (x y : Nat) : Samp :=
  let b := fun (i : Nat) => let v := (get 0 y (4 * x + i)).val; { v with v := v.v * 256 }
  let n := fmtDepth f
  let p := fun (i : Nat) => let v := packedBits get 0 y (3 * n * x + i * n) n; { v with v := v.v * 2 ^ (16 - n) }
  match f with
  | 0x01 => mkSamp (b 0) (b 1) (b 2) (b 3)
  | 0x02 => mkSamp (b 2) (b 1) (b 0) (b 3)
  | 0x03 => mkSamp (b 0) (b 1) (b 2) opaqueA
  | 0x04 =>
    let w := leWord get 0 y (4 * x) 4
    ⟨bitsOf w.v 9 0 * 64, bitsOf w.v 19 10 * 64, bitsOf w.v 29 20 * 64, bitsOf w.v 31 30 * 2 ^ 14, w.taint, w.miss⟩
  | 0x05 => mkSamp (leWord get 0 y (8 * x) 2) (leWord get 0 y (8 * x + 2) 2) (leWord get 0 y (8 * x + 4) 2) (leWord get 0 y (8 * x + 6) 2)
  | 0x0B | 0x0C | 0x0D => mkSamp (p 1) (p 0) (p 2) opaqueA
  | 0x18 => let v := (get 0 y x).val; mkSamp ⟨0, false, false⟩ ⟨0, false, false⟩ ⟨0, false, false⟩ { v with v := v.v * 256 }
  | _ => mkSamp (p 0) (p 1) (p 2) opaqueA

/-- R92: the luma of a subsampled format at surface pixel (x, y). -/
def lumaSample (f : Nat) (get : ByteSrc) (x y : Nat) : Val :=
  match f with
  | 0x14 => let v := (get 0 y x).val; { v with v := v.v * 256 }
  | 0x15 | 0x16 => let v := leWord get 0 y (2 * x) 2; { v with v := v.v / 64 * 64 }
  | _ =>
    let n := fmtDepth f
    let v := packedBits get 0 y (x / 2 * (4 * n) + n + x % 2 * (2 * n)) n
    { v with v := v.v * 2 ^ (16 - n) }

/-- R92: chroma sample `j` (Cb, or Cr with `cr`) on chroma line `l`. -/
def chromaSample (f : Nat) (get : ByteSrc) (cr : Bool) (j l : Nat) : Val :=
  let k := if cr then 1 else 0
  match f with
  | 0x14 => let v := (get 1 l (2 * j + k)).val; { v with v := v.v * 256 }
  | 0x15 | 0x16 => let v := leWord get 1 l (4 * j + 2 * k) 2; { v with v := v.v / 64 * 64 }
  | _ =>
    let n := fmtDepth f
    let v := packedBits get 0 l (j * (4 * n) + k * (2 * n)) n
    { v with v := v.v * 2 ^ (16 - n) }

/-! ### Steps and positions (R112-R114) -/

/-- Sizes of 0 mean 65,536 (R110). -/
def size16 (n : Nat) : Nat := if n = 0 then 65536 else n

/-- R112: the effective step. -/
def effStep (step crop dst : Nat) : Nat := if step ≠ 0 then step else (crop * 2 ^ 20 + dst / 2) / dst

/-- R113: position of a destination pixel: floor and phase. -/
def position (s : Nat) (ph : Int) (x : Nat) : Int × Nat :=
  let p := ((s : Int) - 2 ^ 20) / 2 + 16 * ph + (x * s : Nat)
  (p / 2 ^ 20, (p % 2 ^ 20).toNat / 2 ^ 14)

/-- R114: an axis is bypassed. -/
def bypassed (s : Nat) (ph : Int) : Bool := s = 2 ^ 20 && ph = 0

/-- R113: the tap positions of a pixel and the phase. -/
def tapsAt (t s : Nat) (ph : Int) (x : Nat) : List Int × Nat :=
  let (i, q) := position s ph x
  ((List.range t).map fun (k : Nat) => i - (((t / 2 : Nat) : Int) - 1) + (k : Int), q)

/-- A position clamped into [0, n). -/
def clampTo (n : Nat) (i : Int) : Nat := if i < 0 then 0 else min i.toNat (n - 1)

/-- A position outside [0, n). -/
def outOf (n : Nat) (i : Int) : Bool := i < 0 || (n : Int) ≤ i

/-! ### The lane's source -/

/-- What a lane scales: format, surface size, crop, chroma siting and filters, edge, the bytes. -/
structure Source where
  fmt : Nat
  w   : Nat
  h   : Nat
  cx  : Nat
  cy  : Nat
  cw  : Nat
  ch  : Nat
  midH : Bool
  midV : Bool
  cupH : Nat
  cupV : Nat
  get : ByteSrc

/-- R117: the horizontal chroma weights of a pixel: denominator and (offset, weight). -/
def chromaH (mid : Bool) (cup : Nat) (odd : Bool) : Nat × List (Int × Int) :=
  match cup, mid, odd with
  | 0, false, true => (16, [(-1, -1), (0, 9), (1, 9), (2, -1)])
  | 0, true, false => (128, [(-2, -3), (-1, 29), (0, 111), (1, -9)])
  | 0, true, true => (128, [(-1, -9), (0, 111), (1, 29), (2, -3)])
  | 1, false, true => (2, [(0, 1), (1, 1)])
  | 1, true, false => (4, [(-1, 1), (0, 3)])
  | 1, true, true => (4, [(0, 3), (1, 1)])
  | _, _, _ => (1, [(0, 1)])

/-- R117: the vertical chroma weights of a line. -/
def chromaV (mid : Bool) (cup : Nat) (odd : Bool) : Nat × List (Int × Int) :=
  match cup, mid, odd with
  | 0, false, true => (2, [(0, 1), (1, 1)])
  | 0, true, false => (4, [(-1, 1), (0, 3)])
  | 0, true, true => (4, [(0, 3), (1, 1)])
  | _, _, _ => (1, [(0, 1)])

/-- R117: a weighted sum of values, rounded half up and clamped. -/
def weigh (den : Nat) (l : List (Int × Val)) : Val :=
  let n := l.foldl (fun a x => a + x.1 * (x.2.v : Int)) 0
  ⟨min 65535 ((2 * n + den) / (2 * den : Nat)).toNat, l.any (·.2.taint), l.any (·.2.miss)⟩

/-- R91, R117: a chroma sample of the crop's range; one outside the surface is tainted. -/
def Source.chroma0 (c : Source) (cr : Bool) (j : Nat) (l : Nat) : Val :=
  let lines := if fmt420 c.fmt then cdiv c.h 2 else c.h
  if cdiv c.w 2 ≤ j || lines ≤ l then ⟨0, true, false⟩ else chromaSample c.fmt c.get cr j l

/-- R117, R118: a chroma line at an offset from that of surface line `y`, clamped to the crop's chroma lines. -/
def Source.chromaRow (c : Source) (y : Nat) (o : Int) : Nat :=
  (max (c.cy / 2 : Int) (min ((c.cy + c.ch - 1) / 2 : Int) ((y / 2 : Nat) + o))).toNat

/-- R117, R118: the plane-1 lines that the vertical upsampling of surface line `y` reads. -/
def Source.chromaRows (c : Source) (y : Nat) : List Nat := ((chromaV c.midV c.cupV (y % 2 = 1)).2.map fun w => c.chromaRow y w.1).eraseDups

/-- R117: chroma at chroma column `j` for surface line `y`. -/
def Source.chromaLine (c : Source) (cr : Bool) (j y : Nat) : Val :=
  if fmt420 c.fmt then
    let (d, ws) := chromaV c.midV c.cupV (y % 2 = 1)
    weigh d (ws.map fun w => (w.2, c.chroma0 cr j (c.chromaRow y w.1)))
  else c.chroma0 cr j y

/-- R117: upsampled chroma of surface pixel (x, y). -/
def Source.chromaAt (c : Source) (cr : Bool) (x y : Nat) : Val :=
  let (d, ws) := chromaH c.midH c.cupH (x % 2 = 1)
  weigh d (ws.map fun w =>
    let j := max (c.cx / 2 : Int) (min ((c.cx + c.cw - 1) / 2 : Int) ((x / 2 : Nat) + w.1))
    (w.2, c.chromaLine cr j.toNat y))

/-- R91, R111 stage 1: the full-resolution sample at crop pixel (u, v). -/
def Source.at_ (c : Source) (u v : Nat) : Samp :=
  let x := c.cx + u
  let y := c.cy + v
  if fmtSub c.fmt then
    let lum : Val := if c.w ≤ x || c.h ≤ y then ⟨0, true, false⟩ else lumaSample c.fmt c.get x y
    mkSamp lum (c.chromaAt false x y) (c.chromaAt true x y) opaqueA
  else if c.w ≤ x || c.h ≤ y then ⟨0, 0, 0, 65535, true, false⟩
  else fullSample c.fmt c.get x y

/-! ### Filters (R115, R116) -/

/-- R116: one filtered value. -/
def filt1 (l : List (Int × Nat)) : Nat :=
  min 65535 ((l.foldl (fun a x => a + x.1 * (x.2 : Int)) 0 + 512) / 1024).toNat

/-- R116: a stage over taps with coefficients; a tap outside the crop has alpha 0 with EDGE = 1 (R115). -/
def filtS (edge : Bool) (l : List (Int × Bool × Samp)) : Samp :=
  ⟨filt1 (l.map fun x => (x.1, x.2.2.c0)), filt1 (l.map fun x => (x.1, x.2.2.c1)), filt1 (l.map fun x => (x.1, x.2.2.c2)),
   filt1 (l.map fun x => (x.1, if edge && x.2.1 then 0 else x.2.2.a)), l.any (·.2.2.taint), l.any (·.2.2.miss)⟩

/-- R119: base of the vertical table of a tap count. -/
def vBase (t : Nat) : Nat := match t with | 8 => 512 | 6 => 1024 | 4 => 1408 | _ => 1664

/-- What a lane's scaler works with: steps, phases, vertical taps, edge, coefficients. -/
structure Scaler where
  sh : Nat
  sv : Nat
  ph : Int
  pv : Int
  vt : Nat
  edge : Bool
  coef : Nat → Int
  pre : Bool

/-- R116: the vertical stage for destination line `y` at crop column `u`. -/
def Scaler.vertical (k : Scaler) (c : Source) (y u : Nat) : Samp :=
  if bypassed k.sv k.pv then
    let m := c.at_ u (min y (c.ch - 1))
    if k.edge && c.ch ≤ y then { m with a := 0 } else m
  else
    let (ts, q) := tapsAt k.vt k.sv k.pv y
    filtS k.edge (ts.mapIdx fun i p => (k.coef (vBase k.vt + q * k.vt + i), outOf c.ch p, c.at_ u (clampTo c.ch p)))

/-- R116: the clamp to premultiplied alpha. -/
def Samp.preClamp (s : Samp) (pre : Bool) : Samp :=
  if pre then { s with c0 := min s.c0 s.a, c1 := min s.c1 s.a, c2 := min s.c2 s.a } else s

/-- R116: the horizontal stage at destination pixel `x` over an intermediate line that starts at column `lo`. -/
def Scaler.horizontal (k : Scaler) (cw lo : Nat) (line : List Samp) (x : Nat) : Samp :=
  let g := fun (u : Nat) => line.getD (u - lo) ⟨0, 0, 0, 0, false, false⟩
  (if bypassed k.sh k.ph then
    let m := g (min x (cw - 1))
    if k.edge && cw ≤ x then { m with a := 0 } else m
   else
    let (ts, q) := tapsAt 8 k.sh k.ph x
    filtS k.edge (ts.mapIdx fun i p => (k.coef (q * 8 + i), outOf cw p, g (clampTo cw p)))).preClamp k.pre

/-- R111: the samples of destination pixels `xa … xa + n − 1` of destination line `y`. -/
def Scaler.row (k : Scaler) (c : Source) (y xa n : Nat) : List Samp :=
  if n = 0 then []
  else
    let (lo, hi) :=
      if bypassed k.sh k.ph then (min xa (c.cw - 1), min (xa + n - 1) (c.cw - 1))
      else (clampTo c.cw ((position k.sh k.ph xa).1 - 3), clampTo c.cw ((position k.sh k.ph (xa + n - 1)).1 + 4))
    let line := (List.range (hi + 1 - lo)).map fun i => k.vertical c y (lo + i)
    (List.range n).map fun i => k.horizontal c.cw lo line (xa + i)

end Sys2Proof.Machine
end

