-- ==== Sys2Proof/Machine/Image.lean ====
section
/-! DEFINITION. The firmware image as the Turnkey reads it, and its mailbox (R395, R396, R405). -/
namespace Sys2Proof.Machine

/-! ### The image (R395, R396) -/

/-- R395: a copy's bytes begin with a valid header. -/
def imgValid (l : List Byte) : Bool :=
  2048 ≤ l.length && sliceB l 0 4 = [0x45, 0x4C, 0x49, 0x4D] && ofLe (sliceB l 4 2) = 1 &&
    ofLe (sliceB l 2044 4) = crc32c (l.take 2044)

/-- A little-endian field of an image. -/
def leAt (l : List Byte) (i n : Nat) : Nat := ofLe (sliceB l i n)

/-- R395: of two copies, the newer valid one; none: the empty list. -/
def imgNewer (a b : List Byte) : List Byte :=
  match imgValid a, imgValid b with
  | true, true => if (leAt a 8 4 + 2 ^ 32 - leAt b 8 4) % 2 ^ 32 < 2 ^ 31 then a else b
  | true, false => a
  | false, true => b
  | false, false => []

/-- R395: the header of the image in use: FLAGS, DEFAULT_WAIT and PORTS, with no copy those of the empty image. -/
def State.imgFlags (s : State) : Nat := if s.turnkey.image = [] then 19 else leAt s.turnkey.image 6 2
def State.imgWait (s : State) : Nat := if s.turnkey.image = [] then 5 else leAt s.turnkey.image 14 2
def State.imgPorts (s : State) : Nat := if s.turnkey.image = [] then 2 ^ 64 - 1 else leAt s.turnkey.image 16 8

/-- R395: an entry of the section table: its place in the table, TYPE, FLAGS and the section's bytes. -/
structure ImgPart where
  num   : Nat
  type  : Nat
  flags : Nat
  bytes : List Byte
  sound : Bool

/-- R395: the sections of the image in use, in table order. -/
def State.sections (s : State) : List ImgPart :=
  let l := s.turnkey.image
  (List.range (if l = [] then 0 else min 125 (leAt l 12 2))).map fun i =>
    let e := 32 + 16 * i
    let b := sliceB l (leAt l (e + 4) 4) (leAt l (e + 8) 4)
    ⟨i, leAt l e 2, leAt l (e + 2) 2, b, crc32c b = leAt l (e + 12) 4⟩

/-- R395, R396: the sections of a type whose CRC holds. -/
def State.sectionsOf (s : State) (type : Nat) : List ImgPart := s.sections.filter fun x => x.type = type && x.sound

/-- R396: the COMMISSION record of a tile ID. -/
def State.commission (s : State) (id : Nat) : Option (List Byte) :=
  ((s.sectionsOf 2).flatMap fun x => (List.range (x.bytes.length / 48)).map fun i => sliceB x.bytes (48 * i) 48).find?
    fun r => leAt r 0 8 = id

/-! ### The mailbox (R405, R406) -/

/-- R406: an event is raised. -/
def State.notify (s : State) (e : Nat) : State := (s.setFld Reg.mboxStat 15 8 e).setBit Reg.mboxStat 3

/-- R395: sections that fail their CRC as they are read set their bits and raise event 5. -/
def State.readSections (s : State) (type : Nat) : State :=
  let bad := s.sections.filter fun x => x.type = type && !x.sound
  if bad.isEmpty then s
  else { s with turnkey := { s.turnkey with failed := bad.foldl (fun m (x : ImgPart) => m ||| 2 ^ x.num) s.turnkey.failed } }.notify 5

/-- R405: the Turnkey answers a request: STATUS, ID, response words from RSP1; BUSY clears, DONE and for a STATUS other
than 0 ERR are set. -/
def State.answer (s : State) (id status : Nat) (words : List Nat) : State :=
  let s1 := (words.zipIdx 1).foldl (fun s x => s.setRn (Reg.mboxRsp x.2) (x.1 % 2 ^ 32)) s
  ((((s1.setRn (Reg.mboxRsp 0) (status + id * 65536)).clrBit Reg.mboxStat 31).setBit Reg.mboxStat 0).setBitIf (status ≠ 0)
    Reg.mboxStat 1)

/-- R405: the request the Turnkey serves has this command code. -/
def State.mboxCmd (s : State) (code : Nat) : Bool := s.bit Reg.mboxStat 31 && s.fld (Reg.mboxReq 0) 15 0 = code

/-- R405: the identifier of the request. -/
def State.mboxId (s : State) : Nat := s.fld (Reg.mboxReq 0) 31 16

/-- R405: the Ward's verdict on a default commit answers the AUTOMAP request that waits for it. -/
def State.mboxVerdict (s : State) (seq code : Nat) : State :=
  match s.turnkey.await with
  | some (q, id) =>
    if q = seq then
      { s with turnkey := { s.turnkey with await := none } }.answer id (if code = 0 then 0 else 4) [code]
    else s
  | none => s

end Sys2Proof.Machine
end

