-- ==== Sys2Proof/Machine/Tiles.lean ====
section
/-! DEFINITION. Parolo Link: messages, tile table, discovery and assignment, time and ECHO, configuration,
telemetry and redundant loops (R199-R231). -/
namespace Sys2Proof.Machine

/-! ### Which ports and tiles -/

/-- The ports a canvas is mapped to (R194), less those lost (R335). -/
def State.portsOf (s : State) (cv : Nat) : List Nat :=
  (bitList (s.rn (Reg.scnPortsLo cv) + s.rn (Reg.scnPortsHi cv) * 2 ^ 32) 64).filter fun p => !(s.prt p).lost

/-- R220: the loop partner of a head port. -/
def State.partner (s : State) (p : Nat) : Option Nat :=
  if s.bit (Reg.prtLoop p) 8 then some (s.fld (Reg.prtLoop p) 5 0) else none

/-- R220: the head whose loop partner a port is. -/
def State.headOf (s : State) (p : Nat) : Option Nat := (List.range 64).find? fun h => s.partner h = some p

/-- The canvas a port carries, if any. -/
def State.cvOfPort (s : State) (p : Nat) : Option Nat := [0, 1, 2, 3].find? fun c => (s.portsOf c).contains p

/-- The ports of a canvas and the loop partner of each (R80, R204). -/
def State.withPartners (s : State) (ps : List Nat) : List Nat :=
  ps.flatMap fun p => match s.partner p with
    | some q => [p, q]
    | none => [p]

/-- R83, R84: the generator is in RUN or PRIMING. -/
def Canvas.live (c : Canvas) : Bool := c.gen = .run || c.gen = .priming

/-- A canvas is live. -/
def State.liveCv (s : State) (n : Nat) : Bool := (s.cv n).live

/-- Some canvas is live. -/
def State.anyLive (s : State) : Bool := [0, 1, 2, 3].any s.liveCv

/-- Every tile number in use with its entry. -/
def State.tileList (s : State) : List (Nat × Tile) := s.tiles.filter fun x => x.1 < 4096

/-- The tiles placed on a canvas. -/
def State.placedOn (s : State) (cv : Nat) : List (Nat × Tile) := s.tileList.filter fun x => x.2.placed && x.2.cv = cv

/-- R221: the partner serves a tile, from the failover instant F on. -/
def State.onPartner (s : State) (t : Tile) : Bool :=
  t.serve && (s.partner t.port).isSome && (s.prt t.port).switchAt.isNone

/-- The port a tile is served from (R221). -/
def State.servePort (s : State) (t : Tile) : Nat := if s.onPartner t then (s.partner t.port).getD t.port else t.port

/-- R60, R228: hardware updates a tile entry; one that a WRITE met at this instant is an overrun. -/
def State.setTileHw (s : State) (n : Nat) (t : Tile) : State :=
  (s.setTile n { t with hwAt := some s.now }).setBitIf (t.swAt = some s.now) Reg.ttblStat 2

/-- An entry whose tile number is given to a tile. -/
def Tile.given (t : Tile) : Bool := t.state = .assigned || t.state = .lost || t.state = .blanked

/-! ### Sending messages -/

/-- Enqueue a message on a port whose link is up. -/
def State.send (s : State) (p q type tile : Nat) (body : List Byte) : State :=
  if (s.prt p).up && s.bit (Reg.prtCtrl p) 0 then s.enqueue p q (.msg type tile body) else s

/-- R204: the body of a LATCH. -/
def State.latchBody (s : State) (cv frame time : Nat) : List Byte :=
  beBytes 4 frame ++ beBytes 8 time ++ beBytes 2 (s.fld (Reg.cvEpoch cv) 15 0)
    ++ beBytes 1 (if s.lineLatch cv then 1 else 0) ++ ([0] : List Byte)

/-- R223: the mean delay of the tiles of a version 1 port, at 500 ns a hop. -/
def State.meanDelayV1 (s : State) (p : Nat) : Nat :=
  let ts := s.tileList.filter fun x => x.2.given && x.2.port = p
  if ts.isEmpty then 0 else ts.foldl (fun n x => n + (x.2.pos + 1) * 500) 0 / ts.length

/-- R204, R223: send a copy of the LATCH of a frame on the ports of its canvas and their loop partners, `after` ns after the
first copy. -/
def State.sendLatch (s : State) (cv frame time after : Nat) : State :=
  s.each (s.withPartners (s.portsOf cv)) fun p s =>
    if s.verOf p = 1 then
      let pt := s.prt p
      s.setPrt p (pt.setQueue 7 (pt.queue 7 ++ [⟨.msg 0x11 0xFFFF (s.latchBody cv frame time), time - s.meanDelayV1 p + after⟩]))
    else s.send p 7 0x11 0xFFFF (s.latchBody cv frame time)

/-- R205: the body of a HOLD. -/
def holdBody (frame epoch : Nat) (blank cfg : Bool) : List Byte :=
  beBytes 4 frame ++ beBytes 2 epoch ++ beBytes 1 ((if blank then 1 else 0) + (if cfg then 2 else 0)) ++ ([0] : List Byte)

/-- R212: DISCOVER on a port. -/
def State.sendDiscover (s : State) (p : Nat) : State :=
  (s.setPrt p { (s.prt p) with lastDisc := s.now }).send p 6 0x01 0xFFFE (beBytes 8 Config.serial.toNat ++ beBytes 1 s.ringPos)

/-- R212: ASSIGN to a tile ID on a port. -/
def State.sendAssign (s : State) (p id num : Nat) : State :=
  s.send p 6 0x03 0xFFFE (beBytes 8 id ++ beBytes 8 Config.serial.toNat ++ beBytes 2 num)

/-- R209: an ECHO request to a tile on a port; T1 is written as it leaves. -/
def State.sendEcho (s : State) (p n : Nat) : State :=
  if s.verOf p = 1 then s
  else s.send p 7 0x21 n (beBytes 8 0 ++ beBytes 4 0 ++ beBytes 4 0 ++ beBytes 4 0 ++ beBytes 2 n)

/-- R209, R220: measure a tile from its head port, and from the loop partner where there is one. -/
def State.measure (s : State) (n : Nat) : State :=
  let t := s.tile n
  let s1 := s.sendEcho t.port n
  match s.partner t.port with
  | some q => s1.sendEcho q n
  | none => s1

/-- R216: the body of a CONFIG request. -/
def cfgBody (addr count flags epoch id : Nat) (data : List Word) : List Byte :=
  beBytes 2 addr ++ beBytes 1 count ++ beBytes 1 flags ++ beBytes 2 epoch ++ beBytes 2 id ++ beBytes 4 0
    ++ data.flatMap fun w => beBytes 4 w.toNat

/-- R216, R217: a CONFIG write to a tile with ACK_REQ, repeated until it is answered. -/
def State.sendConfig (s : State) (n addr epoch : Nat) (commit : Bool) (data : List Word) : State :=
  let t := s.tile n
  let id := s.cfgId % 65536
  let c : CfgWrite := { reqId := id, epoch := epoch, commit := commit, addr := addr, words := data, sentAt := s.now }
  let s1 := { s with cfgId := (s.cfgId + 1) % 65536 }
  let s2 := s1.setTile n { t with cfg := t.cfg ++ [c] }
  s2.send (s.servePort t) 6 0x30 n (cfgBody addr data.length ((if commit then 1 else 0) + 2) epoch id data)

/-- Send an unanswered CONFIG write again. -/
def State.resendConfig (s : State) (n : Nat) (c : CfgWrite) : State :=
  s.send (s.servePort (s.tile n)) 6 0x30 n (cfgBody c.addr c.words.length ((if c.commit then 1 else 0) + 2) c.epoch c.reqId c.words)

/-- R151, R216: the FORMAT word of a tile on a canvas: depth d and DEEP. -/
def State.formatFor (s : State) (cv : Nat) : Nat :=
  if s.bppOf cv = 6 then (16 - s.fld (Reg.cvcDither cv) 6 4) + 256 else 10

/-- R189, R216: the LATCH_MODE word of a tile on a canvas. -/
def State.latchModeFor (s : State) (cv : Nat) (t : Tile) : Nat := if s.lineLatch cv && t.cap.testBit 1 then 1 else 0

/-- R217: write FORMAT and LATCH_MODE with COMMIT on the last write; a version 1 tile has neither (R223). -/
def State.writeFormat (s : State) (n epoch : Nat) : State :=
  let t := s.tile n
  let f := s.formatFor t.cv
  let m := s.latchModeFor t.cv t
  if t.ver = 1 then s else
  let s1 := (s.sendConfig n 0x0011 epoch false [BitVec.ofNat 32 f]).sendConfig n 0x0016 epoch true [BitVec.ofNat 32 m]
  s1.setTile n { (s1.tile n) with format := f, latchMode := m }

/-- R217: what the device writes to a tile after assignment. -/
def State.writeTile (s : State) (n : Nat) : State :=
  let t := s.tile n
  let s1 := if t.delayA = 0 then s else s.sendConfig n 0x0012 0 false [BitVec.ofNat 32 t.delayA]
  let s2 := if t.delayB = 0 then s1 else s1.sendConfig n 0x0013 0 false [BitVec.ofNat 32 t.delayB]
  let s2 := s2.setTile n { (s2.tile n) with writtenA := t.delayA, writtenB := t.delayB }
  let o := Reg.prtCtrl t.port
  let s3 := s2.sendConfig n 0x0014 0 false [BitVec.ofNat 32 (s.fld o 27 16), BitVec.ofNat 32 ((s.fld o 31 28 + 1) * 100)]
  if t.placed && s.liveCv t.cv then s3.writeFormat n 0 else s3

/-! ### The announcement list -/

/-- R231: list an ID; one already listed is updated in place, and a full list keeps its oldest entries. -/
def State.listAnn (s : State) (a : Announced) : State :=
  let s1 := s.setPrt a.port { (s.prt a.port) with quiet := s.now }
  if s.announced.any (·.id = a.id) then { s1 with announced := s.announced.map fun x => if x.id = a.id then a else x }
  else if s.announced.length < 64 then { s1 with announced := s.announced ++ [a] } else s1

/-- Take an ID off the announcement list. -/
def State.unlist (s : State) (id : Nat) : State := { s with announced := s.announced.filter (·.id ≠ id) }

/-- R214: the lowest tile number whose entry is FREE. -/
def State.lowestFree (s : State) : Option Nat :=
  (List.range 4096).find? fun n => (s.tile n).state = .free && (s.tile n).id = 0

/-- The entry that holds an ID. -/
def State.findId (s : State) (id : Nat) : Option (Nat × Tile) := s.tileList.find? fun x => x.2.id = id && x.2.state ≠ .free

/-- How many tile numbers are given. -/
def State.assignedCount (s : State) : Nat := (s.tileList.filter fun x => x.2.given).length

/-- R219: three TELEM_PERIODs of a tile, in ns. -/
def State.telem3 (s : State) (t : Tile) : Nat := 3 * (s.fld (Reg.prtCtrl t.port) 31 28 + 1) * 100000000

/-- R214: send ASSIGN with a number to a tile that announced, and make the entry ASSIGNING. -/
def State.assign (s : State) (a : Announced) (n : Nat) : State :=
  let t := s.tile n
  (s.setTileHw n { t with id := a.id, prev := t.state, state := .assigning, assignAt := s.now, assignTries := 0, asking := some a }).sendAssign
    a.port a.id n

/-- R214: an announcement of an ID, without FLAGS.ASSIGNED. -/
def State.announceNew (s : State) (p : Nat) (a : Announced) : State :=
  let claim := p * 256 + a.pos
  match s.findId a.id with
  | some (n, t) =>
    if t.state = .assigning then s
    else if t.state = .conflict then
      s.setTile n (if claim = t.claim then { t with heard := s.now } else { t with claimOther := claim, heardOther := s.now })
    else if 255 ≤ a.pos then (s.listAnn { a with reason := 2 }).setBit (Reg.prtStat p) 5
    else if 4096 ≤ s.assignedCount then (s.listAnn { a with reason := 3 }).setBit (Reg.prtStat p) 5
    else if t.given && t.state ≠ .lost && s.now ≤ t.heard + s.telem3 t then
      let s1 := s.setTileHw n { t with
        state := .conflict, claim := t.port * 256 + t.pos, heard := s.now, claimOther := claim, heardOther := s.now }
      ((s1.sendAssign (s.servePort t) t.id 0xFFFF).listAnn { a with reason := 1 }).setBit (Reg.prtStat p) 4
    else s.assign a n
  | none =>
    if 255 ≤ a.pos then (s.listAnn { a with reason := 2 }).setBit (Reg.prtStat p) 5
    else if 4096 ≤ s.assignedCount then (s.listAnn { a with reason := 3 }).setBit (Reg.prtStat p) 5
    else if s.bit (Reg.prtCtrl p) 2 then
      match s.lowestFree with
      | some n => s.assign a n
      | none => (s.listAnn { a with reason := 3 }).setBit (Reg.prtStat p) 5
    else s.listAnn { a with reason := 0 }

/-- R230: a tile entry with a placement written: at once, or STAGED while a canvas concerned is live. -/
def State.placeTile (s : State) (t : Tile) (pl : Placement) : Tile :=
  if pl = t.staged.getD ⟨t.cv, t.placed, t.x, t.y, t.orient⟩ then t
  else if (t.placed && s.liveCv t.cv) || s.liveCv pl.cv then { t with staged := some pl }
  else { t with staged := none, cv := pl.cv, placed := pl.placed, x := pl.x, y := pl.y, orient := pl.orient }

/-- R396: a tile's COMMISSION record is written to its entry when it is assigned: placement on CV0, curve, base matrix. -/
def State.commissionTile (s : State) (t : Tile) : Tile :=
  match s.commission t.id with
  | none => t
  | some r =>
    s.placeTile { t with curve := leAt r 13 1 % 32, base := BitVec.ofNat 176 (leAt r 16 22) }
      ⟨0, leAt r 14 1 % 2 = 1, leAt r 8 2, leAt r 10 2, leAt r 12 1 % 8⟩

/-- R214, R229: where an answering tile stands: head port, position from the head and from the partner.  Of one that answers
through the loop partner the head position is what the entry knew, or unknown until an ECHO of the head gives it. -/
def State.standsAt (s : State) (p pos : Nat) (t : Tile) : Nat × Nat × Nat :=
  let known := fun (h : Nat) => t.port = h && t.prev ≠ .free && t.prev ≠ .reserved
  match s.headOf p with
  | some h => (h, if known h then t.pos else 255, pos)
  | none => (p, pos, if (s.partner p).isSome && known p then t.posT else 255)

/-- R214: an answer to an ASSIGN. The spec gives no action on a tile of more than 262,144 pixels (R3); it is assigned with the
size it announces (notes/assumptions/118). -/
def State.announceAnswer (s : State) (p num : Nat) (a : Announced) : State :=
  match s.findId a.id with
  | some (n, t) =>
    if n = num && t.state = .assigning then
      let (port, pos, posT) := s.standsAt p a.pos t
      let t1 := { t with
        state := .assigned, port := port, pos := pos, posT := posT, cap := a.cap, model := a.model, w := a.w, h := a.h
        ver := s.verOf p, heard := s.now, released := true, dark := false, asking := none, cfg := [], format := 10, latchMode := 0 }
      let s0 := s.setPrt p { (s.prt p) with quiet := s.now }
      (((s0.setTileHw n (s0.commissionTile t1)).unlist a.id).setBit (Reg.prtStat p) 2 |>.measure n).writeTile n
    else if n = num && (t.state = .assigned || t.state = .blanked) then s
    else s.sendAssign p a.id 0xFFFF
  | none => s.sendAssign p a.id 0xFFFF

/-- The announcement in an ANNOUNCE frame (R212). -/
def annOf (p : Nat) (u : Upstream) : Announced :=
  let b := u.body
  ⟨beAt b 8 8, p, u.hop, 0, beAt b 16 2, beAt b 18 2, beAt b 20 2, beAt b 22 2⟩

/-- R224: a version 1 ANNOUNCE on a port that speaks version 2. -/
def State.v1Announce (s : State) (p : Nat) (f : List Byte) : Option Announced :=
  let n := f.length
  if n < 64 || s.verOf p = 1 then none
  else if ofLe (f.drop (n - 4)) ≠ crc32 (f.take (n - 4)) || beAt f 12 2 ≠ s.fld Reg.schedEtype 15 0 then none
  else
    let h := f.drop 14
    if beAt h 0 1 = 0x18 && beAt h 1 1 = 0x02 then some (annOf p ⟨2, beAt h 2 2, beAt h 6 1, h⟩) else none

/-- R214, R224, R250: an ANNOUNCE reaches a port. -/
def State.onAnnounce (s : State) (p : Nat) (f : List Byte) : State :=
  match s.v1Announce p f with
  | some a => ((s.incr (Reg.prtRxFrames p)).listAnn { a with reason := 4 }).setBit (Reg.prtStat p) 12
  | none =>
    let (s1, u) := s.receive p f
    match u with
    | none => s1
    | some u =>
      if u.type ≠ 0x02 then s1
      else
        let a := annOf p u
        if (beAt u.body 26 1).testBit 0 then s1.announceAnswer p (beAt u.body 28 2) a else s1.announceNew p a

def execAnnounce (dt : Nat) (port : Fin 64) (frame : List Byte) (s : State) : Host.Outcome State Fault Refusal :=
  done ((s.tick dt).onAnnounce port frame)

/-- R214: an ASSIGN unanswered for 10 ms is repeated up to three times; then the entry returns to its previous state
and the ID is listed with reason 5. -/
def State.assignTimeout (s : State) (n : Nat) : State :=
  let t := s.tile n
  if t.state ≠ .assigning || s.now < t.assignAt + 10000000 then s
  else
    let a := t.asking.getD ⟨t.id, t.port, t.pos, 5, t.cap, t.model, t.w, t.h⟩
    if t.assignTries < 3 then
      (s.setTile n { t with assignTries := t.assignTries + 1, assignAt := s.now }).sendAssign a.port t.id n
    else
      let t1 := if t.prev = .free then { t with state := .free, id := 0 } else { t with state := t.prev }
      (s.setTileHw n { t1 with asking := none }).listAnn { a with reason := 5 }

def execAssignTimeout (dt : Nat) (tile : Fin 4096) (s : State) : Host.Outcome State Fault Refusal :=
  done ((s.tick dt).assignTimeout tile)

/-- R214: when only one ID of a conflict has been heard for 300 ms, the entry returns to RESERVED. -/
def State.conflictSettle (s : State) (n : Nat) : State :=
  let t := s.tile n
  let a := s.now < t.heard + 300000000
  let b := s.now < t.heardOther + 300000000
  if t.state = .conflict && a ≠ b then (s.setTileHw n { t with state := .reserved }).unlist t.id else s

def execConflictSettle (dt : Nat) (tile : Fin 4096) (s : State) : Host.Outcome State Fault Refusal :=
  done ((s.tick dt).conflictSettle tile)

/-! ### Links, discovery, time -/

/-- R221: evidence of a break on the loop of a head port. -/
def State.breakEvidence (s : State) (h : Nat) : State :=
  match s.partner h with
  | none => s
  | some q =>
    let s1 := s.setBit (Reg.prtStat h) 6
    if !s.bit (Reg.prtLoop h) 9 then s1
    else if (s.prt h).broken.isSome then s1.setPrt h { (s1.prt h) with wholeFrom := none, reverting := false }
    else
      let mine := s.tileList.filter fun x => x.2.given && x.2.port = h
      let s2 := s1.setPrt h { (s1.prt h) with broken := some s.now, wholeFrom := none, switchAt := none }
      let s3 := s2.each (mine.map (·.1)) fun n s => s.setTile n { (s.tile n) with reach := 0 }
      s3.each (mine.map (·.1)) fun n s => (s.sendEcho h n).sendEcho q n

/-- The head port of the loop a port takes part in. -/
def State.loopHead (s : State) (p : Nat) : Option Nat := if (s.partner p).isSome then some p else s.headOf p

/-- R208: the body of a TIME; ORIGIN is written as it leaves. -/
def State.timeBody (s : State) (p : Nat) (resync : Bool) : List Byte :=
  beBytes 8 0 ++ beBytes 4 0 ++ beBytes 2 (s.fld (Reg.prtCtrl p) 15 8)
    ++ beBytes 1 ((if resync then 1 else 0) + (if s.bit Reg.timeStat 27 then 2 else 0)) ++ ([0] : List Byte)

/-- R208, R220: send TIME on a port, and a copy on its loop partner. -/
def State.sendTime (s : State) (p : Nat) (resync : Bool) : State :=
  if s.verOf p = 1 then s
  else
    let s1 := s.send p 7 0x20 0xFFFF (s.timeBody p resync)
    match s.partner p with
    | some q => s1.send q 7 0x20 0xFFFF (s.timeBody p resync)
    | none => s1

/-- R213: a chain port's link comes up. -/
def State.linkUp (s : State) (p grid : Nat) : State :=
  if !s.bit (Reg.prtCtrl p) 0 || (s.prt p).up || (s.prt p).lost then s
  else
    let s1 := (s.setPrt p { (s.prt p) with up := true, quiet := s.now, grid := grid, wire := none, v1 := s.verOf p = 1, resync := false }).setBit (Reg.prtStat p) 0
    let s2 := if (s.prt p).resync && (s.headOf p).isNone then s1.sendTime p true else s1
    if s.bit (Reg.prtCtrl p) 1 then s2.sendDiscover p else s2

def execLinkUp (dt : Nat) (port : Fin 64) (grid : Nat) (s : State) : Host.Outcome State Fault Refusal :=
  done ((s.tick dt).linkUp port grid)

/-- R221, R234: a chain port's link goes down; on a loop this is evidence of a break. -/
def State.linkDown (s : State) (p : Nat) : State :=
  if !(s.prt p).up then s
  else
    let s1 := (s.setPrt p { (s.prt p) with up := false, wire := none }).setBit (Reg.prtStat p) 1
    match s.loopHead p with
    | some h => s1.breakEvidence h
    | none => s1

def execLinkDown (dt : Nat) (port : Fin 64) (s : State) : Host.Outcome State Fault Refusal :=
  done ((s.tick dt).linkDown port)

/-- R213: some tile on the port is known and unassigned. -/
def State.unassignedOn (s : State) (p : Nat) : Bool :=
  s.announced.any (·.port = p) || s.tileList.any fun x => x.2.port = p && (x.2.state = .assigning || x.2.state = .conflict)

/-- R213: once a second, while any tile is unassigned on the port, the device sends DISCOVER. -/
def State.discoverTimer (s : State) (p : Nat) : State :=
  if s.bit (Reg.prtCtrl p) 1 && s.unassignedOn p && (s.prt p).lastDisc + 1000000000 ≤ s.now then s.sendDiscover p else s

def execDiscoverTimer (dt : Nat) (port : Fin 64) (s : State) : Host.Outcome State Fault Refusal :=
  done ((s.tick dt).discoverTimer port)

/-- R208: the TIME period of a port in ns. -/
def State.timePeriod (s : State) (p : Nat) : Nat := s.fld (Reg.prtCtrl p) 15 8 * 125000

/-- R240: at every multiple of the port's TIME period, a TIME is enqueued in LQ7. -/
def State.onTimePeriod (s : State) (p : Nat) : State :=
  let d := s.timePeriod p
  if d = 0 || s.now % d ≠ 0 || (s.headOf p).isSome then s else s.sendTime p false

def execTimePeriod (dt : Nat) (port : Fin 64) (s : State) : Host.Outcome State Fault Refusal :=
  done ((s.tick dt).onTimePeriod port)

/-- R209, R240: the next tile of a port's round robin is measured. -/
def State.echoPort (s : State) (p : Nat) : State :=
  let ts := (s.tileList.filter fun x => x.2.given && x.2.port = p).map (·.1)
  match (ts.find? fun n => (s.prt p).echoNext ≤ n) <|> ts.head? with
  | none => s
  | some n => (s.setPrt p { (s.prt p) with echoNext := n + 1 }).measure n

/-- R209: the round-robin measurement of each port goes one tile on. -/
def State.echoRound (s : State) : State :=
  s.each (List.range 64) fun p s => if (s.prt p).up then s.echoPort p else s

def execEchoRound (dt : Nat) (s : State) : Host.Outcome State Fault Refusal := done (s.tick dt).echoRound

/-- R211: LINK.PATH of a port, in ns: the longest measured from it to a tile it serves. -/
def State.pathOf (s : State) (p : Nat) : Nat :=
  ((s.tileList.filter fun x => x.2.given && s.servePort x.2 = p).map fun x => if s.onPartner x.2 then x.2.pathB else x.2.pathNs).foldl max 0

/-- R211: set LEAD_SHORT where the lead of the port's canvas is too short. -/
def State.leadCheck (s : State) (p : Nat) : State :=
  let cv := s.cvOfPort p <|> (s.headOf p).bind s.cvOfPort
  match cv with
  | none => s
  | some c => s.setBitIf (s.leadOf c < 12000 + cdiv (9236 * byteTime (s.rateOf p)) 10 + s.pathOf p) (Reg.prtStat p) 11

/-- R211: every port's LEAD_SHORT is looked at anew: leads, ports, rates or paths may have changed. -/
def State.leadCheckAll (s : State) : State := s.each (List.range 64) fun p s => s.leadCheck p

/-- R209: the one-way delay of an ECHO reply, in 1/16 ns. -/
def echoDelay (t4 t1 corrDn turn corrUp : Int) : Int := (16 * (t4 - t1) - corrDn - turn - corrUp) / 2

/-- R209: write a measured delay to the tile when it differs from the last written value by more than 32. -/
def State.writeDelay (s : State) (n addr old new : Nat) : State :=
  if old + 32 < new || new + 32 < old then s.sendConfig n addr 0 false [BitVec.ofNat 32 new] else s

/-- R209, R221: an ECHO reply from tile `n` at a port. -/
def State.onEchoReply (s : State) (p n hop t4 : Nat) (b : List Byte) : State :=
  let t := s.tile n
  let d := (echoDelay t4 (beAt b 8 8) (signedOf 32 (beAt b 16 4)) (signedOf 32 (beAt b 20 4)) (signedOf 32 (beAt b 24 4))).toNat % 2 ^ 24
  let path := cdiv (d + beAt b 16 4) 16
  if p = t.port then
    let far := 32 < (d : Int) - t.writtenA || 32 < (t.writtenA : Int) - d
    let s1 := s.setTileHw n { t with
      delayA := d, pathNs := path, reach := t.reach ||| 1, writtenA := if far then d else t.writtenA
      pos := if t.pos = 255 then hop else t.pos }
    (s1.writeDelay n 0x0012 t.writtenA d).leadCheck p
  else if s.partner t.port = some p then
    let far := 32 < (d : Int) - t.writtenB || 32 < (t.writtenB : Int) - d
    let s1 := s.setTileHw n { t with
      delayB := d, pathB := path, posT := hop, reach := t.reach ||| 2, writtenB := if far then d else t.writtenB }
    (s1.writeDelay n 0x0013 t.writtenB d).leadCheck p
  else s

/-- R209, R250: an ECHO frame arrives; only a reply that names a given tile number counts. -/
def State.onEcho (s : State) (p : Nat) (f : List Byte) (t4 : Nat) : State :=
  let (s1, u) := s.receive p f
  match u with
  | none => s1
  | some u =>
    if u.type = 0x21 && u.tile < 4096 && (s1.tile u.tile).given then s1.onEchoReply p u.tile u.hop t4 u.body else s1

def execEcho (dt : Nat) (port : Fin 64) (frame : List Byte) (t4 : Nat) (s : State) : Host.Outcome State Fault Refusal :=
  done ((s.tick dt).onEcho port frame t4)

/-! ### Configuration -/

/-- R228: a tile access completes with a reply. -/
def State.accessReply (s : State) (a : TAccess) (b : List Byte) : State :=
  let st := beAt b 16 1
  let s1 := if a.read && st = 0 then
      s.each (List.range a.count) fun i s => s.setRn (Reg.ttblData (i + 1)) (beAt b (20 + 4 * i) 4)
    else s
  let s2 := (s1.setFld (Reg.ttblData 15) 7 0 st).setBit Reg.ttblStat (if st = 0 then 3 else 4)
  { s2 with taccess := none }

/-- R399: the Turnkey adopts the tile of a FREE entry whose ID it has read. -/
def State.adoptTile (s : State) (p n : Nat) (b : List Byte) : State :=
  let id := beAt b 20 4 + beAt b 24 4 * 2 ^ 32
  let s0 := { s with adopt := s.adopt.filter (·.1 ≠ n) }
  match s.findId id with
  | some _ => s0.sendAssign p id 0xFFFF
  | none =>
    if (s.tile n).state = .free then (s0.setTile n { (s.tile n) with id := id, state := .reserved }).sendAssign p id 0xFFFF
    else s0

/-- R217: a tile answers a CONFIG write: OK acknowledges it, anything else is no acknowledgement. -/
def State.cfgAnswered (s : State) (n id : Nat) (ok : Bool) : State :=
  let t := s.tile n
  let mark := fun (c : CfgWrite) => if c.reqId = id then { c with refused := true } else c
  s.setTile n { t with cfg := if ok then t.cfg.filter (·.reqId ≠ id) else t.cfg.map mark }

/-- R216, R217: a CONFIG reply; an OK reply to a write acknowledges it. -/
def State.onConfigReply (s : State) (p : Nat) (f : List Byte) : State :=
  let (s1, u) := s.receive p f
  match u with
  | none => s1
  | some u =>
    let id := beAt u.body 14 2
    if u.type ≠ 0x30 && u.type ≠ 0x31 || 4096 ≤ u.tile then s1
    else if s1.adopt.contains (u.tile, id) then s1.adoptTile p u.tile u.body
    else
      match s1.taccess.filter fun a => a.tile = u.tile && a.reqId = id with
      | some a => s1.accessReply a u.body
      | none => s1.cfgAnswered u.tile id (beAt u.body 16 1 = 0)

def execConfigReply (dt : Nat) (port : Fin 64) (frame : List Byte) (s : State) : Host.Outcome State Fault Refusal :=
  done ((s.tick dt).onConfigReply port frame)

/-- R217: an unanswered CONFIG write is due again: every 2 ms until the hinge deadline of its canvas, once per frame after
it; a write outside a hinge every 2 ms. -/
def State.cfgDue (s : State) (cv : Nat) (c : CfgWrite) : Bool :=
  let v := s.cv cv
  !c.refused && (if c.epoch ≠ 0 && v.hinge.all (fun h => h.lh.isSome && h.deadline ≤ s.now) then c.sentAt < v.lastLatch
    else c.sentAt + 2000000 ≤ s.now)

/-- R217: repeat the unanswered CONFIG writes that are due to the tiles of a canvas. -/
def State.configRetry (s : State) (cv : Nat) : State :=
  s.each ((s.tileList.filter fun x => x.2.given && x.2.cv = cv).map (·.1)) fun n s =>
    let t := s.tile n
    let s1 := (t.cfg.filter (s.cfgDue cv)).foldl (fun s c => s.resendConfig n c) s
    s1.setTile n { (s1.tile n) with cfg := t.cfg.map fun (c : CfgWrite) => if s.cfgDue cv c then { c with sentAt := s.now } else c }

def execConfigRetry (dt : Nat) (cv : Fin 4) (s : State) : Host.Outcome State Fault Refusal :=
  done ((s.tick dt).configRetry cv)

/-! ### Telemetry -/

/-- R231: the words of TTBL space 3 that a STATUS or EVENT leaves. -/
def telemWords (b : List Byte) (now : Nat) : List Word :=
  let n := min (beAt b 9 1) 16
  let recs := (List.range 6).map fun i =>
    let r := n - 3
    if i / 2 < n - r then BitVec.ofNat 32 (beAt b (40 + 8 * (r + i / 2) + 4 * (i % 2)) 4) else 0
  ((List.range 8).map fun i => BitVec.ofNat 32 (beAt b (8 + 4 * i) 4)) ++ recs
    ++ [BitVec.ofNat 32 now, BitVec.ofNat 32 (now / 2 ^ 32)]

/-- R399: STATUS for a FREE entry: the Turnkey reads the tile's ID; a version 1 tile has no CONFIG-read (R223). -/
def State.adoptStart (s : State) (p n : Nat) : State :=
  if s.adopt.any (·.1 = n) || s.verOf p = 1 then s
  else
    let id := s.cfgId % 65536
    { s with cfgId := (s.cfgId + 1) % 65536, adopt := s.adopt ++ [(n, id)] }.send p 6 0x31 n (cfgBody 0 2 0 0 id [])

/-- R219: store a STATUS or EVENT and reflect its flags. -/
def State.storeTelem (s : State) (p : Nat) (u : Upstream) : State :=
  let fl := beAt u.body 10 2
  let s1 := ((s.setBitIf (fl.testBit 3) (Reg.prtStat p) 10).setBitIf (fl.testBit 1) (Reg.prtStat p) 13).setBitIf
    (fl.testBit 4) (Reg.prtStat p) 14
  if 4096 ≤ u.tile then s1
  else
    let t := s1.tile u.tile
    if t.state = .free then s1.adoptStart p u.tile
    else
      let t1 := { t with heard := s.now, telem := telemWords u.body s.now }
      if t.state = .lost then s1.setTileHw u.tile { t1 with state := if t.dark then .blanked else .assigned } else s1.setTile u.tile t1

/-- R219: a STATUS arrives. -/
def State.onStatus (s : State) (p : Nat) (f : List Byte) : State :=
  let (s1, u) := s.receive p f
  match u with
  | none => s1
  | some u => if u.type = 0x40 && beAt u.body 8 1 = 0 then s1.storeTelem p u else s1

def execStatus (dt : Nat) (port : Fin 64) (frame : List Byte) (s : State) : Host.Outcome State Fault Refusal :=
  done ((s.tick dt).onStatus port frame)

/-- R219, R221: an EVENT arrives; PORT_A_DOWN or PORT_B_DOWN is evidence of a loop break. -/
def State.onEvent (s : State) (p : Nat) (f : List Byte) : State :=
  let (s1, u) := s.receive p f
  match u with
  | none => s1
  | some u =>
    if u.type = 0x40 && beAt u.body 8 1 = 2 then
      let s2 := s1.storeTelem p u
      let fl := beAt u.body 10 2
      match s2.loopHead p with
      | some h => if fl.testBit 5 || fl.testBit 6 then s2.breakEvidence h else s2
      | none => s2
    else s1

def execEvent (dt : Nat) (port : Fin 64) (frame : List Byte) (s : State) : Host.Outcome State Fault Refusal :=
  done ((s.tick dt).onEvent port frame)

/-- R219: a tile heard neither in STATUS nor in EVENT for three TELEM_PERIODs becomes LOST. -/
def State.tileLost (s : State) (n : Nat) : State :=
  let t := s.tile n
  if (t.state = .assigned || t.state = .blanked) && t.heard + s.telem3 t ≤ s.now then
    (s.setTileHw n { t with state := .lost }).setBit (Reg.prtStat t.port) 3
  else s

def execTileLost (dt : Nat) (tile : Fin 4096) (s : State) : Host.Outcome State Fault Refusal :=
  done ((s.tick dt).tileLost tile)

/-! ### Loops -/

/-- R221: three consecutive head TIMEs have failed to arrive at the partner. -/
def State.loopTimeMiss (s : State) (h : Nat) : State :=
  match s.partner h with
  | none => s
  | some q => if (s.prt q).headAt + 3 * s.timePeriod h ≤ s.now then s.breakEvidence h else s

def execLoopTimeMiss (dt : Nat) (port : Fin 64) (s : State) : Host.Outcome State Fault Refusal :=
  done ((s.tick dt).loopTimeMiss port)

/-- R235: the first cycle start of a port's gate list at or after now. -/
def Port.nextCycle (p : Port) (now : Nat) : Nat :=
  if p.cycle = 0 then now
  else if now ≤ p.base then p.base - (p.base - now) / p.cycle * p.cycle
  else p.base + cdiv (now - p.base) p.cycle * p.cycle

/-- R221 steps 2 to 4: the failover sweep ends; tiles only the partner reaches become partner-served, from the
partner's next gate-cycle start. -/
def State.failoverSweepDone (s : State) (h : Nat) : State :=
  match s.partner h, (s.prt h).broken with
  | some q, some _ =>
    if (s.prt h).switchAt.isSome then s
    else
      let mine := s.tileList.filter fun x => x.2.given && x.2.port = h && x.2.reach = 2
      let s1 := s.each (mine.map (·.1)) fun n s => s.setTileHw n { (s.tile n) with serve := true }
      s1.setPrt h { (s1.prt h) with switchAt := some ((s.prt q).nextCycle s.now) }
  | _, _ => s

def execFailoverSweepDone (dt : Nat) (port : Fin 64) (s : State) : Host.Outcome State Fault Refusal :=
  done ((s.tick dt).failoverSweepDone port)

/-- The frame goes to a partner-served tile. -/
def State.partnerServed (s : State) (f : LFrame) : Bool := f.typeTile.2 < 4096 && (s.tile f.typeTile.2).serve

/-- R221 step 4: the packets of the current frame that the head of a loop sent to partner-served tiles since the last TIME
the partner received, the one on its wire included, as first transmissions. -/
def State.sentIntoCut (s : State) (h q : Nat) : List Queued :=
  let mine := fun (x : Pix) => (s.tile x.tile).serve && (s.tile x.tile).port = h
  match (s.cvOfPort h).bind fun c => (s.cv c).deliv with
  | none => []
  | some d =>
    let sent := (d.sent.filter fun x => (s.prt q).headSeen ≤ x.2 && mine x.1).map (·.1)
    let wire := match (s.prt h).wire.map (·.frame) with
      | some (.pix x) => if mine x && x.frame = d.frame then [x] else []
      | _ => []
    (sent ++ wire).map fun x => ⟨.pix { x with resend := false }, s.now⟩

/-- R221 steps 4 and 5: at F the partner-served tiles' PIXELS, resends and CONFIG that the head has not sent move to the
partner, those it sent into the cut first. -/
def State.failoverSwitch (s : State) (h : Nat) : State :=
  match s.partner h, (s.prt h).switchAt with
  | some q, some f =>
    if s.now < f then s
    else
      let s := (s.takeBack h).takeBack q
      let ph := s.prt h
      let pq := s.prt q
      let mv := fun (k : Nat) => (ph.queue k).filter fun x => s.partnerServed x.frame
      let kp := fun (k : Nat) => (ph.queue k).filter fun x => !s.partnerServed x.frame
      let w := waitQueue 6
      let ph1 := ((ph.setQueue 0 (kp 0)).setQueue 6 (kp 6)).setQueue w (kp w)
      let pq1 := ((pq.setQueue 0 (s.sentIntoCut h q ++ mv 0 ++ pq.queue 0)).setQueue 6 (pq.queue 6 ++ mv 6)).setQueue w (pq.queue w ++ mv w)
      let s1 := ((s.setPrt h { ph1 with switchAt := none }).setPrt q pq1).setBit (Reg.prtStat h) 7
      ((s1.decide q (s1.now * 10) false).decide h (s1.now * 10) false).leadCheckAll
  | _, _ => s

def execFailoverSwitch (dt : Nat) (port : Fin 64) (s : State) : Host.Outcome State Fault Refusal :=
  done ((s.tick dt).failoverSwitch port)

/-- R222: the head reaches every tile and the loop has been whole for 10 s: service is to return to the head at its next
composition start. -/
def State.revertLoop (s : State) (h : Nat) : State :=
  match (s.prt h).wholeFrom with
  | none => s
  | some t =>
    let mine := s.tileList.filter fun x => x.2.given && x.2.port = h
    if s.bit (Reg.prtLoop h) 10 && t + 10000000000 ≤ s.now && mine.all fun x => x.2.reach.testBit 0 then
      s.setPrt h { (s.prt h) with reverting := true }
    else s

/-- R222: at a composition start of a canvas, the heads among its ports that wait for it serve every tile again. -/
def State.revertHeads (s : State) (cv : Nat) : State :=
  let hs := (s.portsOf cv).filter fun h => (s.prt h).reverting
  let s1 := s.each hs fun h s =>
    let mine := (s.tileList.filter fun x => x.2.serve && x.2.port = h).map (·.1)
    let s1 := s.each mine fun n s => s.setTileHw n { (s.tile n) with serve := false }
    (s1.setPrt h { (s1.prt h) with broken := none, wholeFrom := none, reverting := false }).setBit (Reg.prtStat h) 8
  if hs.isEmpty then s else s1.leadCheckAll

def execRevert (dt : Nat) (port : Fin 64) (s : State) : Host.Outcome State Fault Refusal :=
  done ((s.tick dt).revertLoop port)

/-- R220, R221: a head port's TIME arrives at its loop partner and proves the loop whole. -/
def State.headTime (s : State) (q : Nat) (f : List Byte) : State :=
  let s1 := s.incr (Reg.prtRxFrames q)
  match s.headOf q with
  | none => s1
  | some h =>
    let b := f.drop 14
    if f.length < 64 || ofLe (f.drop (f.length - 4)) ≠ crc32 (f.take (f.length - 4)) || beAt b 1 1 ≠ 0x20 then s1
    else
      let s2 := s1.setPrt q { (s1.prt q) with headAt := s.now, headSeen := beAt b 8 8 }
      let ph := s2.prt h
      if ph.broken.isSome && ph.wholeFrom.isNone then s2.setPrt h { ph with wholeFrom := some s.now } else s2

def execHeadTimeAtPartner (dt : Nat) (port : Fin 64) (frame : List Byte) (s : State) : Host.Outcome State Fault Refusal :=
  done ((s.tick dt).headTime port frame)

/-! ### The TTBL page -/

/-- R229: the code of a tile state. -/
def TileState.code : TileState → Nat
  | .free => 0 | .reserved => 1 | .assigning => 2 | .assigned => 3 | .lost => 4 | .blanked => 5 | .conflict => 6

/-- R229: word `k` of a tile entry; placement fields read what software wrote, staged or in force. -/
def tileWord (t : Tile) (k : Nat) : Nat :=
  let pl := t.staged.getD ⟨t.cv, t.placed, t.x, t.y, t.orient⟩
  match k with
  | 0 => t.id % 2 ^ 32
  | 1 => t.id / 2 ^ 32 % 2 ^ 32
  | 2 => t.port + pl.cv * 64 + t.pos * 256 + t.posT * 65536 + t.state.code * 2 ^ 24 + (if pl.placed then 2 ^ 28 else 0)
      + (if t.capped then 2 ^ 29 else 0) + (if t.serve then 2 ^ 30 else 0) + (if t.staged.isSome then 2 ^ 31 else 0)
  | 3 => pl.x + pl.y * 65536
  | 4 => t.w + t.h * 65536
  | 5 => t.pixBase + pl.orient * 2 ^ 26 + t.ver * 2 ^ 29
  | 6 => t.cap + t.model * 65536
  | 7 => t.delayA + t.curve * 2 ^ 24
  | 8 => t.delayB
  | 9 => t.gR + t.gG * 65536
  | 10 => t.gB + t.base.toNat % 2 ^ 16 * 65536
  | _ => (t.base.toNat >>> (16 + 32 * (k - 11))) % 2 ^ 32

/-- R228, R231: word `k` of an object. -/
def State.objWord (s : State) (space idx k : Nat) : Nat :=
  match space with
  | 0 => tileWord (s.tile idx) k
  | 1 =>
    if k < 12 then
      let c := idx / 8 % 32
      let g := idx % 8
      let at_ := fun (i : Nat) => mget s.curves ((c * 3 + k / 4) * 64 + 8 * g + i) 65535
      at_ (2 * (k % 4)) + at_ (2 * (k % 4) + 1) * 65536
    else 0
  | 2 =>
    match s.announced[idx]? with
    | none => 0
    | some a => match k with
      | 0 => a.id % 2 ^ 32
      | 1 => a.id / 2 ^ 32
      | 2 => a.port + a.pos * 256 + a.reason * 65536
      | 3 => a.cap + a.model * 65536
      | 4 => a.w + a.h * 65536
      | _ => 0
  | 3 => ((s.tile idx).telem.getD k 0).toNat
  | _ => s.rn (Reg.ttblData k)

/-- R228: a command is in progress. -/
def State.ttblBusy (s : State) : Bool := s.taccess.isSome

/-- The selected object. -/
def State.ttblIdx (s : State) : Nat := s.fld Reg.ttblIdx 11 0
def State.ttblSpace (s : State) : Nat := s.fld Reg.ttblIdx 14 12

/-- R228: CMD.READ. -/
def State.ttblRead (s : State) : State :=
  if s.ttblBusy then s
  else
    let ws := (List.range 16).map fun k => s.objWord s.ttblSpace s.ttblIdx k
    ((List.range 16).foldl (fun s k => s.setRn (Reg.ttblData k) (ws.getD k 0)) s).setBit Reg.ttblStat 0

/-- R230: the tile entry a WRITE leaves: software-owned fields only. -/
def State.tileWrite (s : State) (t : Tile) : Tile :=
  let w := fun k => s.rn (Reg.ttblData k)
  let id := w 0 + w 1 * 2 ^ 32
  let own := t.state = .free || t.state = .reserved
  let t1 := if own then { t with id := id, state := if id = 0 then .free else .reserved } else t
  let pl : Placement := ⟨bitsOf (w 2) 7 6, (w 2).testBit 28, bitsOf (w 3) 15 0, bitsOf (w 3) 31 16, bitsOf (w 5) 28 26⟩
  let base : Nat := bitsOf (w 10) 31 16 + (List.range 5).foldl (fun n i => n + w (11 + i) * 2 ^ (16 + 32 * i)) 0
  s.placeTile { t1 with pixBase := bitsOf (w 5) 25 0, curve := bitsOf (w 7) 28 24, base := BitVec.ofNat 176 base } pl

/-- R228, R230, R231: CMD.WRITE. -/
def State.ttblWrite (s : State) : State :=
  if s.ttblBusy then s
  else
    let i := s.ttblIdx
    match s.ttblSpace with
    | 0 =>
      let t := s.tile i
      let id := s.rn (Reg.ttblData 0) + s.rn (Reg.ttblData 1) * 2 ^ 32
      let own := t.state = .free || t.state = .reserved
      let dup := id ≠ 0 && s.tileList.any fun x => x.1 ≠ i && x.2.id = id && x.2.state ≠ .free
      if own && dup then (s.setBit Reg.ttblStat 1).setBit Reg.ttblStat 0
      else
        let tie := [0, 1, 2, 3].any fun cv => (s.cv cv).comp.any (·.start = s.now)
        let s1 := ((s.setTile i { s.tileWrite t with swAt := some s.now }).setBitIf tie (pgStat 0x080) 14).setBitIf
          (t.hwAt = some s.now) Reg.ttblStat 2
        { s1 with ttblAt := some s1.now }.setBit Reg.ttblStat 0
    | 1 =>
      let c := i / 8 % 32
      let g := i % 8
      let cs := (List.range 24).foldl (fun m j =>
        let v := bitsOf (s.rn (Reg.ttblData (j / 2))) (if j % 2 = 0 then 15 else 31) (if j % 2 = 0 then 0 else 16)
        mset m ((c * 3 + j / 8) * 64 + 8 * g + j % 8) 65535 v) s.curves
      { s with curves := cs }.setBit Reg.ttblStat 0
    | _ => s.setBit Reg.ttblStat 0

/-- R228, R230: CMD.RELEASE. -/
def State.ttblRelease (s : State) : State :=
  if s.ttblBusy then s
  else
    let i := s.ttblIdx
    let t := s.tile i
    if t.placed && s.liveCv t.cv then (s.setBit Reg.ttblStat 1).setBit Reg.ttblStat 0
    else
      let s1 := if t.state = .free || t.state = .reserved then s else s.sendAssign (s.servePort t) t.id 0xFFFF
      (s1.setTile i { wornBy := (s1.tile i).wornBy }).setBit Reg.ttblStat 0

/-- R228: CMD.DISCOVER. -/
def State.ttblDiscover (s : State) : State :=
  if s.ttblBusy then s
  else (s.each (List.range 64) fun p s => if s.bit (Reg.prtCtrl p) 1 then s.sendDiscover p else s).setBit Reg.ttblStat 0

/-- R228, R231: CMD.TWRITE and CMD.TREAD. -/
def State.ttblAccess (s : State) (read : Bool) : State :=
  if s.ttblBusy then s
  else
    let i := s.ttblIdx
    let d0 := s.rn (Reg.ttblData 0)
    let n := bitsOf d0 19 16
    let id := s.cfgId % 65536
    let data := if read then [] else (List.range n).map fun k => s.reg (Reg.ttblData (k + 1))
    let fl := if read then 0 else (if d0.testBit 24 then 1 else 0) + 2
    let s1 := { s with cfgId := (s.cfgId + 1) % 65536, taccess := some ⟨i, id, read, n, s.now⟩ }
    s1.send (s.servePort (s.tile i)) 6 (if read then 0x31 else 0x30) i (cfgBody (bitsOf d0 15 0) n fl 0 id data)

/-- R228: CMD.CLR_ANN. -/
def State.ttblClrAnn (s : State) : State :=
  if s.ttblBusy then s else { s with announced := [] }.setBit Reg.ttblStat 0

/-- R228: CMD.ECHO. -/
def State.ttblEcho (s : State) : State :=
  if s.ttblBusy then s else (s.measure s.ttblIdx).setBit Reg.ttblStat 0

/-- R228: a write to TTBL.CMD starts each command whose bit is 1. -/
def State.ttblCmd (s : State) (v : Word) : State :=
  let act := fun (b : Nat) (f : State → State) (s : State) => if v.toNat.testBit b then f s else s
  act 7 State.ttblEcho (act 6 State.ttblClrAnn (act 5 (fun s => s.ttblAccess true) (act 4 (fun s => s.ttblAccess false)
    (act 3 State.ttblDiscover (act 2 State.ttblRelease (act 1 State.ttblWrite (act 0 State.ttblRead s)))))))

def execTtblRead (dt : Nat) (_req : Nat) (s : State) : Host.Outcome State Fault Refusal := done (s.tick dt).ttblRead
def execTtblWrite (dt : Nat) (_req : Nat) (s : State) : Host.Outcome State Fault Refusal := done (s.tick dt).ttblWrite
def execRelease (dt : Nat) (_req : Nat) (s : State) : Host.Outcome State Fault Refusal := done (s.tick dt).ttblRelease
def execDiscover (dt : Nat) (_req : Nat) (s : State) : Host.Outcome State Fault Refusal := done (s.tick dt).ttblDiscover
def execTwrite (dt : Nat) (_req : Nat) (s : State) : Host.Outcome State Fault Refusal := done ((s.tick dt).ttblAccess false)
def execTread (dt : Nat) (_req : Nat) (s : State) : Host.Outcome State Fault Refusal := done ((s.tick dt).ttblAccess true)
def execClrAnn (dt : Nat) (_req : Nat) (s : State) : Host.Outcome State Fault Refusal := done (s.tick dt).ttblClrAnn
def execTtblEcho (dt : Nat) (_req : Nat) (s : State) : Host.Outcome State Fault Refusal := done (s.tick dt).ttblEcho

/-- R228: no reply within 10 ms. -/
def State.accessTimeout (s : State) : State :=
  match s.taccess with
  | none => s
  | some a =>
    if s.now < a.sentAt + 10000000 then s
    else { ((s.setFld (Reg.ttblData 15) 7 0 0xFF).setBit Reg.ttblStat 4) with taccess := none }

def execTileAccessTimeout (dt : Nat) (s : State) : Host.Outcome State Fault Refusal := done (s.tick dt).accessTimeout

/-- R228: TTBL.CONFLICT. -/
def State.conflictWord (s : State) : Nat :=
  let n := (s.announced.filter (·.reason = 1)).length
  n % 256 + (if n = 0 then 0 else 2 ^ 31)

/-- R226: PRTnn.LINK. -/
def State.linkWord (s : State) (p : Nat) : Nat :=
  let pt := s.prt p
  let mine := s.tileList.filter fun x => x.2.given && s.servePort x.2 = p
  let act := s.tileList.any fun x => s.onPartner x.2 && x.2.port = p
  (if pt.up then 1 else 0) + (if s.bit (Reg.prtCtrl p) 0 && !pt.up then 2 else 0)
    + (if pt.up && s.bit (Reg.prtMode p) 3 then 4 else 0) + (if s.verOf p = 1 then 8 else 0) + (if act then 16 else 0)
    + min mine.length 255 * 256 + min (cdiv (s.pathOf p) 32) 65535 * 65536

/-! ### Commands of the link scheduler -/

/-- R233, R238, R291: a producer's frame, from the Parolo header on, is enqueued to a link queue. -/
def State.frameEnqueue (s : State) (p q : Nat) (f : List Byte) : State :=
  if q = 0 then s else s.enqueue p q (.msg (beAt f 1 1) (beAt f 2 2) (f.drop 8))

def execFrameEnqueue (dt : Nat) (port : Fin 64) (queue : Fin 8) (frame : List Byte) (s : State) :
    Host.Outcome State Fault Refusal :=
  done ((s.tick dt).frameEnqueue port queue frame)

/-- R68, R191: a pixel packet has left: it is recorded as sent, and its read-back is awaited. -/
def State.pixSent (s : State) (p : Nat) (x : Pix) (start : Nat) (w : Wire) : State :=
  let c := s.cv x.cv
  let s1 := match c.deliv with
    | some d =>
      if d.frame ≠ x.frame then s
      else if x.resend then s.settleOwed x
      else s.setCv x.cv { c with deliv := some { d with sent := d.sent ++ [(x, start)], lastEnd := s.now } }
    | none => s
  if s.bit (Reg.scnCtrl x.cv) 1 then
    let pay := (w.bytes.drop 38).take (w.bytes.length - 42)
    s1.setPrt p { (s1.prt p) with readback := (s1.prt p).readback ++ [(x, crc32c pay)] }
  else s1

/-- R232, R251: a packet has left LQ0, whose second place is filled from the vault now. -/
def State.refillLq0 (s : State) (p : Nat) : State :=
  let pt := s.prt p
  let s1 := s.setPrt p (pt.setQueue 0 ((pt.queue 0).zipIdx.map fun x => if x.2 = 1 then { x.1 with at_ := s.now } else x.1))
  s1.setPrt p ((s1.prt p).sample 0 fun x => { x with maxBytes := max x.maxBytes (s1.queueBytes ((s1.prt p).buffered 0)) })

/-- R234: a frame's transmission ends, the wire becomes free and the port takes a decision. -/
def State.txEnd (s : State) (p : Nat) : State :=
  match (s.prt p).wire with
  | none => s
  | some w =>
    if s.now * 10 < w.stop then s
    else
      let s1 := s.setPrt p { (s.prt p) with wire := none, wireFree := w.stop }
      let s2 := match w.frame with
        | .pix x => s1.pixSent p x (w.start / 10) w
        | .msg _ _ _ => s1
      let s3 := (if w.queue = 0 then s2.refillLq0 p else s2).drainWaiting p
      if s.now * 10 < w.stop + 10 then s3.decide p w.stop true else s3.decide p (s.now * 10) false

def execLoad (dt : Nat) (_req : Nat) (port : Fin 64) (s : State) : Host.Outcome State Fault Refusal :=
  done ((s.tick dt).gateLoad port)

def execGateDataWrite (dt : Nat) (_req : Nat) (port : Fin 64) (v : Word) (s : State) : Host.Outcome State Fault Refusal :=
  done ((s.tick dt).writeGateData port v)

/-- R253: a read of GATE_DATA returns the entry and advances ENTRY under AUTOINC. -/
def State.readGateData (s : State) (p : Nat) : State := { s with bus := [s.gateData p] }.gateAdvance p

def execGateDataRead (dt : Nat) (_req : Nat) (port : Fin 64) (s : State) : Host.Outcome State Fault Refusal :=
  done ((s.tick dt).readGateData port)

/-- R251: a write to QSAMPLE_SEL; the selection lands and RESTART restarts the maxima of the queue it selects. -/
def State.writeQsel (s : State) (v : Word) : State :=
  let s1 := s.setFld Reg.schedQsampleSel 11 0 v.toNat
  if v.getLsbD 16 then s1.qRestart else s1

def execRestart (dt : Nat) (_req : Nat) (v : Word) (s : State) : Host.Outcome State Fault Refusal :=
  done ((s.tick dt).writeQsel v)

/-- R252: a write to SHAPER_DATA goes to the shadow of the addressed word and marks it pending. -/
def State.writeShaperData (s : State) (v : Word) : State :=
  if s.pageHeld 0x0E0 then (s.violate Reg.schedShaperData 2).setBit Reg.wardStat 4
  else
    let k := s.fld Reg.schedShaperIdx 11 0 * 2 + s.fld Reg.schedShaperIdx 12 12
    { s with shaperSh := mset s.shaperSh k none (some v) }

def execShaperDataWrite (dt : Nat) (_req : Nat) (v : Word) (s : State) : Host.Outcome State Fault Refusal :=
  done ((s.tick dt).writeShaperData v)

/-- R252: what SHAPER_DATA reads. -/
def State.shaperData (s : State) : Nat :=
  let k := s.fld Reg.schedShaperIdx 11 0 * 2 + s.fld Reg.schedShaperIdx 12 12
  let act := (mget s.shapers k 0).toNat
  if s.bit Reg.latchCtrl 0 then act else ((mget s.shaperSh k none).map BitVec.toNat).getD act

end Sys2Proof.Machine
end

