-- ==== Sys2Proof/Machine/Render.lean ====
section
/-! DEFINITION. What a Tumbler composes for one line: SL values per Tumbler (R57, R58), the lanes' colour path
(R131-R146), canvas matrix, lamp correction, brightness, encode and quantisation (R147-R163), the write to bank and
capture (R177, R179, R190), visible spans and what fetch reports (R104-R109). -/
namespace Sys2Proof.Machine

/-! ### Tables -/

/-- R119: coefficient `i` of a bank of a set. -/
def State.coefAt (s : State) (set bank i : Nat) : Int :=
  signedOf 12 (mget s.coef ((set * 2 + bank) * 1792 + i) (coefDefault i))

/-- R154: entry `i` of a bank of a TONE object. -/
def State.toneAt (s : State) (obj bank i : Nat) : Nat := mget s.tone ((obj * 2 + bank) * 2048 + i) (toneDefault obj i)

/-- R154: entry `i` of a custom matrix as a signed number. -/
def State.cmAt (s : State) (cm bank i : Nat) : Int := signedOf 20 (s.toneAt (16 + cm) bank i)

/-- R150: entry `i` of a bank of a canvas's encode LUT. -/
def State.lutAt (s : State) (cv bank i : Nat) : Nat := mget s.lut ((cv * 2 + bank) * 2048 + i) (lutRamp i)

/-- Bit `i` of a mask as 0 or 1. -/
def bit01 (m i : Nat) : Nat := if m.testBit i then 1 else 0

/-! ### SL values -/

/-- R57, R58: the value of a register that a Tumbler uses for a line of the frame it composes. -/
def State.slAt (s : State) (k : Comp) (tmb y off : Nat) : Word :=
  match k.slOld.find? fun e => e.tmb = tmb && e.off = off && y < e.upTo with
  | some e => e.old
  | none => s.reg off

/-- R57, R58, R87: the registers as a Tumbler uses them for a line of the frame it composes. -/
def State.viewAt (s : State) (k : Comp) (tmb y : Nat) : State :=
  k.slOld.reverse.foldl (fun s e => if e.tmb = tmb && y < e.upTo then s.setReg e.off e.old else s) s

/-- R18, R185: the Tumbler that composes a line. -/
def Comp.tmbOf (k : Comp) (through : Bool) (y : Nat) : Nat :=
  if through then (k.bands.getD (if k.bands.length = 0 then 0 else y % k.bands.length) ⟨0, 0, 0⟩).tmb
  else match k.bands.find? fun b => b.first ≤ y && y ≤ b.last with
    | some b => b.tmb
    | none => 0

/-! ### The lane of one line -/

/-- R89: destination and colour settings of a lane on a line. -/
structure LaneLine where
  dx : Int
  dy : Int
  dw : Nat
  dh : Nat
  alpha : Nat
  blend : Nat
  pre : Bool
  fill : Nat

/-- The SL settings of a layer for a line. -/
def State.laneLine (s : State) (k : Comp) (tmb y n : Nat) : LaneLine :=
  let g := fun off => (s.slAt k tmb y off).toNat
  let dp := g (Reg.layDstPos n)
  let ds := g (Reg.layDstSize n)
  let bl := g (Reg.layBlend n)
  ⟨signedOf 16 dp, signedOf 16 (dp / 65536), size16 (ds % 65536), size16 (ds / 65536),
   g (Reg.layAlpha n) % 65536, bl % 4, bl.testBit 2, g (Reg.layFill n)⟩

/-- R90: the lane covers canvas pixel (x, y). -/
def LaneLine.covers (l : LaneLine) (x y : Nat) : Bool :=
  l.dx ≤ x && (x : Int) < l.dx + l.dw && l.dy ≤ y && (y : Int) < l.dy + l.dh

/-- R104: the lane is an occluder on the line. -/
def State.occludes (s : State) (k : Lane) (l : LaneLine) : Bool :=
  !k.hidden && s.bit (Reg.layCtrl k.layer) 3 && l.alpha = 65535 && l.blend = 0 && l.fill.testBit 30

/-- R187: the line store of a BIND lane still holds a source line: it keeps the newest ⌊65,536 / crop width⌋ lines of the crop. -/
def State.storeKeeps (s : State) (k : Lane) (f line : Nat) : Bool :=
  let cy := s.fld (Reg.layCropPos k.layer) 31 16
  let ch := size16 (s.fld (Reg.layCropSize k.layer) 31 16)
  let num := (mget (s.flw f).bind line (0, [])).1
  ((s.flw f).bind.filter fun x => cy ≤ x.1 && x.1 < cy + ch && (num < x.2.1 || (num = x.2.1 && line < x.1))).length
    < 65536 / size16 (s.fld (Reg.layCropSize k.layer) 15 0)

/-- The bytes a lane draws on: DRAM, or for BIND what its line store has of its source frame (R93, R97, R187). -/
def State.laneBytes (s : State) (k : Lane) : ByteSrc :=
  match k.bind with
  | none => fun plane line off =>
    let (a, p) := if plane = 0 then (k.set.addr0, k.set.pitch0) else (k.set.addr1, k.set.pitch1)
    match s.rdByte ((a + line * p + off) % 2 ^ 41) with
    | some b => .byte b.toNat
    | none => .taint
  | some (f, id) => fun _ line off =>
    let e := mget (s.flw f).bind line (0, [])
    if e.1 < id || !s.storeKeeps k f line then .missing
    else match mfind e.2 off with
      | some b => .byte b.toNat
      | none => .missing

/-- R97: a BIND lane holds a source line: every byte of its crop has arrived. -/
def State.holdsLine (s : State) (k : Lane) (line : Nat) : Bool :=
  let (gp, gb) := fmtGroup k.set.fmt 0
  let cx := s.fld (Reg.layCropPos k.layer) 15 0
  let a := cx / gp * gb
  let b := min (cx + size16 (s.fld (Reg.layCropSize k.layer) 15 0) - 1) (size16 k.set.w - 1) / gp * gb + gb
  (List.range (b - a)).all fun i => s.laneBytes k 0 line (a + i) ≠ .missing

/-- R97: the newest source line a BIND lane holds: of the newest source frame, the lowest on it. -/
def State.newestBindLine (s : State) (k : Lane) (f : Nat) : Option Nat :=
  (((s.flw f).bind.filter fun x => s.holdsLine k x.1).foldl (fun (m : Option (Nat × Nat)) x => match m with
    | some y => if y.1 < x.2.1 || (y.1 = x.2.1 && y.2 < x.1) then some (x.2.1, x.1) else m
    | none => some (x.2.1, x.1)) none).map (·.2)

/-- R97: the bytes a BIND lane draws on past its cutoff: the newest line held stands in for each line that is not held. -/
def State.repeatBytes (s : State) (k : Lane) : ByteSrc :=
  match k.bind with
  | none => s.laneBytes k
  | some (f, _) => fun p line off =>
    if s.holdsLine k line then s.laneBytes k p line off
    else match s.newestBindLine k f with
      | some n => s.laneBytes k p n off
      | none => .missing

/-- The source of a lane with a given byte source. -/
def State.laneSource (s : State) (k : Lane) (get : ByteSrc) : Source :=
  let n := k.layer
  let sc := Reg.layScale n
  ⟨k.set.fmt, size16 k.set.w, size16 k.set.h, s.fld (Reg.layCropPos n) 15 0, s.fld (Reg.layCropPos n) 31 16,
   size16 (s.fld (Reg.layCropSize n) 15 0), size16 (s.fld (Reg.layCropSize n) 31 16),
   s.bit sc 8, s.bit sc 9, s.fld sc 11 10, s.fld sc 12 12, get⟩

/-- The scaler of a lane: effective steps with the sizes in force for the line, taps in use (R112, R125). With OCCLUDE = 1 the
source alpha is 1.0, which limits no premultiplied colour (R104, R116, R144). -/
def State.laneScaler (s : State) (c : Comp) (k : Lane) (l : LaneLine) : Scaler :=
  let n := k.layer
  let sc := Reg.layScale n
  let set := s.fld sc 6 4
  let bank := bit01 c.coefBanks set
  ⟨effStep (s.fld (Reg.layStepH n) 23 0) (size16 (s.fld (Reg.layCropSize n) 15 0)) l.dw,
   effStep (s.fld (Reg.layStepV n) 23 0) (size16 (s.fld (Reg.layCropSize n) 31 16)) l.dh,
   signedOf 16 (s.rn (Reg.layHphase n)), signedOf 16 (s.rn (Reg.layVphase n)),
   2 * (s.fld (Reg.layTapsUsed n) 1 0 + 1), s.bit sc 3, fun i => s.coefAt set bank i, l.pre && !s.bit (Reg.layCtrl n) 3⟩

/-- R134-R145: what a lane adds to a pixel: its linear colour, effective alpha, and whether the premultiplied
formulas apply. -/
structure LanePx where
  c : Nat × Nat × Nat
  a : Nat
  pre : Bool
  deriving DecidableEq, Repr

/-- R108: the fill colour as signal values. -/
def fillSignal (f : Nat) : Nat × Nat × Nat :=
  (grid16 (bitsOf f 29 20 : Nat) 1023, grid16 (bitsOf f 19 10 : Nat) 1023, grid16 (bitsOf f 9 0 : Nat) 1023)

/-- R134-R144: one sample of a lane (none: SOLID) through its colour path. -/
def State.laneColour (s : State) (c : Comp) (k : Lane) (l : LaneLine) (m : Option Samp) : LanePx :=
  let n := k.layer
  let co := Reg.layColour n
  let f := k.set.fmt
  let tf := s.fld co 10 8
  let w := if s.fld co 31 16 = 0 then 203 else s.fld co 31 16
  let cmS := s.fld co 6 4
  let cm : CMat := fun i => s.cmAt cmS (bit01 c.toneBanks (16 + cmS)) i
  let isFill := match m with | none => true | some x => x.taint
  let a := match m with
    | none => if l.fill.testBit 30 then 65535 else 0
    | some x =>
      if x.taint then (if l.fill.testBit 30 then 65535 else 0)
      else if s.bit (Reg.layCtrl n) 3 then 65535
      else alphaOf (fmtAlpha f) x.a
  let colourFill := isFill || f = 0x18
  let e := if colourFill then fillSignal l.fill
    else match m with
      | some x => toRgb (fmtDepth f) (s.bit co 0) (fmtYcc f) (s.fld co 3 1) cm (x.c0, x.c1, x.c2)
      | none => (0, 0, 0)
  let pre := l.pre && !colourFill
  let e := if pre && tf ≠ 4 then (unpremult a e.1, unpremult a e.2.1, unpremult a e.2.2) else e
  let lin := linearise tf w e.1 e.2.1 e.2.2
  let t := Reg.layTone n
  let set := s.fld t 7 4
  let ton := toneMap (s.fld t 1 0) (fun i => s.toneAt set (bit01 c.toneBanks set) i) lin
  let g := Reg.layGamut n
  let gc := s.fld g 6 4
  let gam := gamutMap (s.fld g 1 0) (fun i => s.cmAt gc (bit01 c.toneBanks (16 + gc)) i) ton
  ⟨gam, effAlpha a l.alpha, pre && tf = 4⟩

/-! ### The composed line -/

/-- R97: what a BIND lane does with a line from its cutoff on. -/
def State.bindPolicy (s : State) (n : Nat) : Bool := s.fld (Reg.layNotReady n) 1 0 = 1

/-- The pixels a lane adds to a line of width `w`: none where it takes no part (R146); and whether a BIND lane came
late. -/
def State.laneRow (s : State) (c : Comp) (k : Lane) (l : LaneLine) (w y : Nat) : List (Option LanePx) × Bool :=
  let none' := List.replicate w (none : Option LanePx)
  if k.hidden || (y : Int) < l.dy || l.dy + l.dh ≤ (y : Int) then (none', false)
  else
    let x0 := max 0 l.dx
    let x1 := min (w : Int) (l.dx + l.dw)
    if x1 ≤ x0 then (none', false)
    else
      let a := x0.toNat
      let n := (x1 - x0).toNat
      let yy := ((y : Int) - l.dy).toNat
      let xa := (x0 - l.dx).toNat
      let wrap := fun (r : List (Option LanePx)) => List.replicate a none ++ r ++ List.replicate (w - a - n) none
      if k.set.fmt = 0x1F then (wrap (List.replicate n (some (s.laneColour c k l none))), false)
      else
        let sc := s.laneScaler c k l
        let row := sc.row (s.laneSource k (s.laneBytes k)) yy xa n
        if k.bind.isNone then (wrap (row.map fun m => some (s.laneColour c k l (some m))), false)
        else
          let cut := match c.late.find? fun e => e.1 = k.layer && e.2.1 = y with
            | some e => if e.2.2 < a then 0 else e.2.2 - a
            | none => n
          let from_ := min cut (row.findIdx (·.miss))
          let rep := if s.bindPolicy k.layer then sc.row (s.laneSource k (s.repeatBytes k)) yy xa n else []
          (wrap (row.mapIdx fun i m =>
            if i < from_ then some (s.laneColour c k l (some m))
            else match rep[i]? with
              | some r => if r.miss then none else some (s.laneColour c k l (some r))
              | none => none), from_ < n)

/-- R145, R146: one lane blended over a row. -/
def blendRow (l : LaneLine) (row : List (Option LanePx)) (d : List (Nat × Nat × Nat)) : List (Nat × Nat × Nat) :=
  List.zipWith (fun m d => match m with
    | none => d
    | some p => blendStep l.blend p.pre p.a l.alpha p.c d) row d

/-- R229: tile column and row of a canvas position relative to the tile's corner. -/
def tileUV (o w h dx dy : Nat) : Nat × Nat :=
  let (u, v) := match o % 4 with
    | 0 => (dx, dy)
    | 1 => (dy, h - 1 - dx)
    | 2 => (w - 1 - dx, h - 1 - dy)
    | _ => (w - 1 - dy, dx)
  (if 4 ≤ o then w - 1 - u else u, v)

/-- R158: the tile and calibration index of a canvas pixel, among the tiles the frame took. -/
def Comp.entryOf (k : Comp) (x y : Nat) : Option (Tile × Nat) :=
  match k.tiles.find? fun t =>
      let (w, h) := orientSize t.2.orient t.2.w t.2.h
      t.2.x ≤ x && x < t.2.x + w && t.2.y ≤ y && y < t.2.y + h with
  | none => none
  | some (_, t) =>
    let (u, v) := tileUV t.orient t.w t.h (x - t.x) (y - t.y)
    some (t, t.pixBase + v * t.w + u)

/-- R158: coefficient `k` of a tile's base matrix. -/
def Tile.baseAt (t : Tile) (k : Nat) : Int := signedOf 18 (t.base.toNat >>> (18 * k))

/-- R160, R163: a calibration entry; one of a poisoned burst is zero, and one in unmapped memory reads as a free value
(notes/assumptions/4). -/
def State.calEntry (s : State) (cal p : Nat) : Nat :=
  let a := (cal + 8 * p) % 2 ^ 41
  match s.place a with
  | none => Config.freeValue (2 ^ 70 + s.free * 2 ^ 30 + p) % 2 ^ 64
  | some (c, r, k) =>
    if s.rankLost c r || mget s.poison (k / 64) false then 0 else ofLe ((List.range 8).map fun i => mget s.dram (k + i) 0)

/-- What a composed pixel reports: negative clip, drive clip, the calibration burst read for it. -/
structure PxFlags where
  neg  : Bool := false
  clip : Bool := false
  cal  : Option Nat := none
  deriving DecidableEq, Repr

/-- R161, R162: the lamp correction of a pixel, and the calibration burst it reads. -/
def State.lampCorrect (s : State) (k : Comp) (x y : Nat) (c : Nat × Nat × Nat) : (Nat × Nat × Nat) × Option Nat :=
  match k.entryOf x y with
  | none => (c, none)
  | some (t, p) =>
    let on := s.bit Reg.lampCtrl 24
    let e := if on then s.calEntry k.cal p else 0
    let fault := on && e.testBit 63
    let mode := s.fld Reg.lampCtrl 29 28
    let d := fun (i : Nat) => if fault && mode = 2 then (0 : Int) else signedOf 7 (e >>> (7 * i))
    let row := fun (r : Nat) =>
      l20Round ((t.baseAt (3 * r) + 128 * d (3 * r)) * l20Val c.1 + (t.baseAt (3 * r + 1) + 128 * d (3 * r + 1)) * l20Val c.2.1
        + (t.baseAt (3 * r + 2) + 128 * d (3 * r + 2)) * l20Val c.2.2) 65536
    let yv := if fault && mode = 1 then (0, 0, 0) else if on then (row 0, row 1, row 2) else c
    let z := fun (v g : Nat) => l20Round ((l20Val v * g : Nat) : Int) 16384
    (if s.bit Reg.lampCtrl 25 then (z yv.1 t.gR, z yv.2.1 t.gG, z yv.2.2 t.gB) else yv,
     if on then some ((k.cal + 8 * p) % 2 ^ 41 / 64) else none)

/-- R151: the output depth of a canvas, for a DITHER word. -/
def State.depthOfCv (s : State) (cv : Nat) (dither : Nat) : Nat := if s.bit (Reg.cvMode cv) 1 then 10 else 16 - bitsOf dither 6 4

/-- R147-R151, R161: one canvas pixel from its blended colour to the codes in the vault. -/
def State.outPixel (s : State) (k : Comp) (cv tmb x y : Nat) (d : Nat × Nat × Nat) : List Byte × PxFlags :=
  let g := fun off => (s.slAt k tmb y off).toNat
  let (m, neg) := canvasMatrix (fun i => signedOf 32 (g (Reg.cvcMtx cv i))) d
  let (z, cal) := s.lampCorrect k x y m
  let (c, clip) := driveClip ((g (Reg.cvcCtrl cv)).testBit 1) (brighten (brightGain (g (Reg.cvcBright cv) % 65536) k.bright) z)
  let lutOn := (g (Reg.cvcCtrl cv)).testBit 0
  let bank := g (Reg.cvcLutSel cv) % 2
  let enc := encodeLut lutOn fun i => s.lutAt cv bank i
  let di := g (Reg.cvcDither cv)
  let dd := s.depthOfCv cv di
  let t := fun (i : Nat) => ditherT (di % 4) (di.testBit 2) (di / 65536) dd x y (k.frame % 16384) i
  let q := (quantise dd (enc c.1) (t 0), quantise dd (enc c.2.1) (t 1), quantise dd (enc c.2.2) (t 2))
  (pixelBytes (s.bit (Reg.cvMode cv) 1) dd q, ⟨neg, clip, cal⟩)

/-- The size of a canvas: width and height (R84: a WIDTH of 0 means 32,768). -/
def State.cvSize (s : State) (cv : Nat) : Nat × Nat :=
  let w := s.fld (Reg.cvSize cv) 15 0
  (if w = 0 then 32768 else w, s.fld (Reg.cvSize cv) 31 16)

/-- R146: the blended row of a line, and the layers of BIND lanes that came late. -/
def State.blendLine (s : State) (k : Comp) (tmb w y : Nat) : List (Nat × Nat × Nat) × List Nat :=
  k.lanes.foldl (fun acc ln =>
    let l := s.laneLine k tmb y ln.layer
    let (row, late) := s.laneRow k ln l w y
    (blendRow l row acc.1, if late then acc.2 ++ [ln.layer] else acc.2)) (List.replicate w (0, 0, 0), [])

/-- R105: whether a lane has a visible span on a line, and from which to which pixel; the lanes above are those
after it. -/
def State.visible (s : State) (k : Comp) (tmb w y : Nat) : List Lane → List (Nat × Option (Nat × Nat))
  | [] => []
  | ln :: above =>
    let l := s.laneLine k tmb y ln.layer
    let occ := above.filterMap fun o =>
      let q := s.laneLine k tmb y o.layer
      if s.occludes o q then some q else none
    let vis := (List.range w).filter fun x => l.covers x y && !occ.any fun q => q.covers x y
    let r := if ln.hidden then none else match vis.head?, vis.getLast? with
      | some a, some b => some ((a - l.dx).toNat, (b - l.dx).toNat)
      | _, _ => none
    (ln.layer, r) :: s.visible k tmb w y above

/-! ### Writing a line -/

/-- R177: write bytes into a bank, granule by granule. -/
def writeBank (b : Bank) (bankB : Bool) : Nat → Nat → List Byte → List Host.Cell → List Host.Cell
  | 0, _, _, m => m
  | fuel + 1, i, l, m =>
    if l.isEmpty then m
    else
      let n := 65536 - i % 65536
      writeBank b bankB fuel (i + n) (l.drop n) (mrun m (b.addr bankB i) (l.take n))

/-- R185: write bytes into a ring from a byte of it on, page by page. -/
def writeRing (b : Bank) : Nat → Nat → List Byte → List Host.Cell → List Host.Cell
  | 0, _, _, m => m
  | fuel + 1, i, l, m =>
    if l.isEmpty then m
    else
      let n := 4096 - i % 4096
      writeRing b fuel (i + n) (l.drop n) (mrun m (b.ringAddr i) (l.take n))

/-- R177, R182, R185: write a line of a frame into its bank and, in through mode, into ring slot y mod L; the words written
have no error any more. -/
def State.writeLine (s : State) (cv : Nat) (bankB : Bool) (y : Nat) (l : List Byte) : State :=
  let b := s.bank cv
  let i := y * l.length
  let slot := y % s.fld (Reg.scnLeadLines cv) 10 0 * l.length
  let m := writeBank b bankB 8 i l s.vault.bytes
  let hit := fun (w : Nat) => (List.range (cdiv l.length 8 + 1)).any fun k =>
    b.addr bankB (i + 8 * k) / 8 = w || (b.single && b.ringAddr (slot + 8 * k) / 8 = w)
  { s with vault := { s.vault with
      bytes := if b.single then writeRing b 64 slot l m else m
      bad := s.vault.bad.filter (!hit ·) } }

/-- R190: the address of a capture buffer. -/
def State.captAddr (s : State) (cv k : Nat) : Nat :=
  let (w, h) := s.cvSize cv
  s.rn64 (Reg.scnCaptLo cv) % 2 ^ 41 + k * (cdiv (w * h * s.bppOf cv) 64 * 64)

/-- R190: the capture write of a line; where memory cannot accept it, the rest of the frame's capture is dropped. -/
def State.captLine (s : State) (cv : Nat) (k : Comp) (at_ : Nat) (l : List Byte) : State × Bool :=
  match k.capt with
  | some c => if k.captDrop || s.mem.frozen.isSome then (s, true) else (s.wrBytes (s.captAddr cv c + at_) l, false)
  | none => (s, k.captDrop)

/-- R163, R274: the calibration bursts of a line are read. -/
def State.calReads (s : State) (l : List Nat) : State :=
  let s1 := s.setBitIf (l.any fun b => s.anyPoison (64 * b) 64) (pgStat 0x080) 12
  l.foldl (fun s b => s.reportRead (64 * b) 64) s1

/-- R131, R152, R179, R190: compose one line of a canvas's frame. -/
def State.composeLine (s : State) (cv y : Nat) : State :=
  match (s.cv cv).comp with
  | none => s
  | some k =>
    let through := s.bit (Reg.cvMode cv) 2
    let tmb := k.tmbOf through y
    let (w, _) := s.cvSize cv
    let v := s.viewAt k tmb y
    let (row, late) := v.blendLine k tmb w y
    let px := row.mapIdx fun x d => v.outPixel k cv tmb x y d
    let bytes := px.flatMap (·.1)
    let s1 := (s.writeLine cv (k.bank = 1) y bytes).calReads (px.filterMap (·.2.cal)).eraseDups
    let (s2, drop) := s1.captLine cv k (y * w * s.bppOf cv) bytes
    let s4 := (s2.setBitIf (px.any (·.2.neg)) (pgStat (0x18 + cv)) 8).setBitIf (px.any (·.2.clip)) (pgStat (0x18 + cv)) 9
    let s5 := late.foldl (fun s n => s.setBit (Reg.layStat n) 9) s4
    let seen := ((v.visible k tmb w y k.lanes).filter (·.2.isSome)).map (·.1)
    let k1 := { k with captDrop := drop, composedLines := k.composedLines ++ [y], seen := k.seen ++ seen.filter fun n => !k.seen.contains n }
    s5.setCv cv { (s5.cv cv) with comp := some k1 }

/-! ### What fetch reports -/

/-- R106: the source columns a visible span needs: first and last crop column. -/
def neededCols (c : Source) (sh x0 x1 : Nat) : Nat × Nat :=
  let lo : Int := (x0 * sh / 2 ^ 20 : Nat) - 4
  let hi : Int := ((cdiv ((x1 + 1) * sh) (2 ^ 20) : Nat) : Int) - 1 + 4
  let (lo, hi) :=
    if fmtSub c.fmt then ((((lo + c.cx) / 2 - 2) * 2 - c.cx : Int), (((hi + c.cx) / 2 + 2) * 2 + 1 - c.cx : Int)) else (lo, hi)
  (clampTo c.cw lo, clampTo c.cw hi)

/-- R106: the source lines an output line needs. -/
def neededLines (c : Source) (sv vt y : Nat) : Nat × Nat :=
  (clampTo c.ch ((y * sv / 2 ^ 20 : Nat) - (vt / 2 : Nat) : Int),
   clampTo c.ch (((cdiv ((y + 1) * sv) (2 ^ 20) : Nat) : Int) - 1 + (vt / 2 : Nat)))

/-- R94: the bytes of a plane's line that hold surface columns `a … b`, rounded outward to bursts: address and
length. -/
def fetchRun (set : FetchSet) (plane line a b : Nat) : Nat × Nat :=
  let (gp, gb) := fmtGroup set.fmt plane
  let (base, pitch) := if plane = 0 then (set.addr0, set.pitch0) else (set.addr1, set.pitch1)
  let p := base + line * pitch
  let st := (p + a / gp * gb) / 64 * 64
  (st, cdiv (p + (b / gp + 1) * gb - st) 64 * 64)

/-- The hull of a range and what is known already of a line. -/
def widen (m : Sparse (Nat × Nat)) (line a b : Nat) : Sparse (Nat × Nat) :=
  match mfind m line with
  | some r => mput (mdrop m line) line (min r.1 a, max r.2 b)
  | none => mput m line (a, b)

/-- R106, R118: per plane, the source lines that a Tumbler fetches for a lane and of each the columns from first to last. -/
structure Needs where
  luma   : Sparse (Nat × Nat) := []
  chroma : Sparse (Nat × Nat) := []

/-- R106, R118: what an output line with a visible span needs is added. -/
def State.addNeeds (s : State) (c : Comp) (ln : Lane) (l : LaneLine) (y : Nat) (span : Nat × Nat) (d : Needs) : Needs :=
  let src := s.laneSource ln (fun _ _ _ => .taint)
  let sc := s.laneScaler c ln l
  let (a, b) := neededCols src sc.sh span.1 span.2
  let vt := if bypassed sc.sv sc.pv then 1 else sc.vt
  let (v0, v1) := neededLines src sc.sv vt ((y : Int) - l.dy).toNat
  let xa := src.cx + a
  let xb := min (src.cx + b) (src.w - 1)
  let rows := (List.range (v1 + 1 - v0)).map (src.cy + v0 + ·)
  if src.w ≤ xa then d
  else (rows.filter (· < src.h)).foldl (fun (d : Needs) yy =>
    let d1 := { d with luma := widen d.luma yy xa xb }
    let rows1 :=
      if fmtPlanes ln.set.fmt < 2 then []
      else if fmt420 ln.set.fmt then (src.chromaRows yy).filter (· < cdiv src.h 2)
      else [yy]
    { d1 with chroma := rows1.foldl (fun m j => widen m j xa xb) d1.chroma }) d

/-- The lines that a Tumbler composes of a frame. -/
def Comp.linesOf (k : Comp) (through : Bool) (h tmb : Nat) : List Nat := (List.range h).filter fun y => k.tmbOf through y = tmb

/-- R94, R106, R118, R126: the runs a Tumbler fetches for a lane of a frame. Lines that its neighbour has fetched too are
fetched again. -/
def State.laneRuns (s : State) (cv : Nat) (c : Comp) (ln : Lane) (through : Bool) (tmb : Nat) : List (Nat × Nat) :=
  let (w, h) := s.cvSize cv
  let d := (c.linesOf through h tmb).foldl (fun (d : Needs) y =>
    let v := s.viewAt c tmb y
    match (v.visible c tmb w y c.lanes).find? fun e => e.1 = ln.layer with
    | some (_, some sp) => v.addNeeds c ln (v.laneLine c tmb y ln.layer) y sp d
    | _ => d) {}
  d.luma.map (fun x => fetchRun ln.set 0 x.1 x.2.1 x.2.2) ++ d.chroma.map fun x => fetchRun ln.set 1 x.1 x.2.1 x.2.2

/-- R95, R109: what the fetches of a frame report for one lane: UNMAPPED, POISON and each read of a poisoned burst. -/
def State.reportLane (s : State) (cv : Nat) (c : Comp) (ln : Lane) (through : Bool) : State :=
  if ln.set.fmt = 0x1F || ln.bind.isSome then s
  else
    let runs := ((c.bands.map (·.tmb)).eraseDups).flatMap (s.laneRuns cv c ln through)
    let s1 := (s.setBitIf (runs.any fun r => s.anyUnmapped r.1 r.2) (Reg.layStat ln.layer) 5).setBitIf
      (runs.any fun r => s.anyPoison r.1 r.2) (Reg.layStat ln.layer) 4
    runs.foldl (fun s r => s.reportRead r.1 r.2) s1

/-- R95, R107, R109: what is known of each lane's fetch when the frame's last line is composed. -/
def State.reportFetch (s : State) (cv : Nat) : State :=
  match (s.cv cv).comp with
  | none => s
  | some k =>
    let through := s.bit (Reg.cvMode cv) 2
    k.lanes.foldl (fun s ln =>
      if ln.hidden then s
      else (s.reportLane cv k ln through).setBitIf (!k.seen.contains ln.layer) (Reg.layStat ln.layer) 7) s

end Sys2Proof.Machine
end

