-- ==== Sys2Proof/Machine/VaultMap.lean ====
section
/-! DEFINITION. Where banks, tails and rings lie in the frame vault: allocation, ring layout, granule moves
(R176-R178, R183). -/
namespace Sys2Proof.Machine

/-- R182: the section of a vault address. -/
def sectionOf (a : Nat) : Nat := a / 4194304

/-- R176: the vault address of a granule of the bank region. -/
def granAddr (g : Nat) : Nat := 0x02000000 + g * 65536

/-- Every granule and every tail in use, and every ring page. -/
def State.granulesUsed (s : State) : List Nat := s.vault.banks.flatMap fun x => x.2.granA ++ x.2.granB
def State.tailsUsed (s : State) : List Nat := s.vault.banks.flatMap fun x => x.2.tailA.toList ++ x.2.tailB.toList
def State.pagesUsed (s : State) : List Nat := s.vault.banks.flatMap fun x => x.2.ring

/-- R177, R183: the free granules, lowest first; those of a lost section are skipped. -/
def State.freeGranules (s : State) : List Nat :=
  let used := s.granulesUsed
  (List.range 7680).filter fun g => !used.contains g && !s.vault.lost.contains (sectionOf (granAddr g))

/-- R177, R183: the free ring pages, lowest first; the few pages past 24 MiB come from system use. -/
def State.freePages (s : State) : List Nat :=
  let used := s.pagesUsed
  (List.range 6148).filter fun p => !used.contains p && !s.vault.lost.contains (sectionOf (p * 4096))

/-- Take the banks and the ring of a canvas away. -/
def State.freeBanks (s : State) (cv : Nat) : State :=
  { s with vault := { s.vault with banks := mdrop s.vault.banks cv, moves := s.vault.moves.filter (·.1 ≠ cv) } }

/-- R177: the ring length of a through-mode canvas in pages. -/
def State.ringPages (s : State) (cv w bpp : Nat) : Nat := cdiv (s.fld (Reg.scnLeadLines cv) 10 0 * w * bpp) 4096

/-- R178, R27: bytes of all banks, and the tiers that they are charged. -/
def State.bankTotal (s : State) : Nat :=
  s.vault.banks.foldl (fun n x => n + (if x.2.single then 1 else 2) * (x.2.w * x.2.h * x.2.bpp)) 0
def State.tiersCharged (s : State) : Nat :=
  cdiv (s.bankTotal + (s.vault.lost.filter (8 ≤ ·)).length * 4194304 + 33554432) 134217728

/-- R178: a granule lies above the charged tiers. -/
def State.granTooHigh (s : State) (g : Nat) : Bool := s.tiersCharged * 134217728 ≤ granAddr g

/-- R178: after an allocation, the granules to move, in canvas and bank order. -/
def State.planMoves (s : State) : State :=
  let l := s.vault.banks.flatMap fun x =>
    (x.2.granA.filter s.granTooHigh).map (fun g => (x.1, 0, g)) ++ (x.2.granB.filter s.granTooHigh).map fun g => (x.1, 1, g)
  { s with vault := { s.vault with moves := l } }

/-- R183: the first tail granule to allocate: the tail reserve's, or once its section is lost the reserved area's. -/
def State.tailBase (s : State) : Nat := if s.vault.lost.contains 7 then 16 else 0

/-- R183: the tails of a lost tail reserve move to the reserved area with what they hold. -/
def State.moveTails (s : State) : State :=
  let to_ := fun (t : Option Nat) => t.map fun n => if n < 16 then n + 16 else n
  let used := (s.tailsUsed).filter (· < 16)
  let move := fun (m : List Host.Cell) (t : Nat) =>
    mrun m (tailAddr (t + 16)) ((List.range 65536).map fun i => s.vb (tailAddr t + i))
  let bad := (s.vault.bad.filter fun w => used.any fun t => tailAddr t ≤ 8 * w && 8 * w < tailAddr t + 65536).map fun w =>
    w - tailAddr 0 / 8 + tailAddr 16 / 8
  { s with vault := { s.vault with
      bytes := used.foldl move s.vault.bytes
      bad := s.vault.bad ++ bad
      banks := s.vault.banks.map fun x => (x.1, { x.2 with tailA := to_ x.2.tailA, tailB := to_ x.2.tailB }) } }

/-- R177: lay out the banks and the ring of a canvas anew. -/
def State.allocBanks (s : State) (cv w h bpp : Nat) (through : Bool) : State :=
  let s0 := s.freeBanks cv
  let bytes := w * h * bpp
  let n := bytes / 65536
  let tail := bytes % 65536 ≠ 0
  let fg := s0.freeGranules
  let usedT := s0.tailsUsed
  let ft := ((List.range 16).map (· + s0.tailBase)).filter fun t => !usedT.contains t
  let b : Bank :=
    { w := w, h := h, bpp := bpp, granA := fg.take n, tailA := if tail then ft.head? else none
      granB := if through then [] else (fg.drop n).take n
      tailB := if tail && !through then ft[1]? else none
      ring := if through then s0.freePages.take (s0.ringPages cv w bpp) else []
      single := through, valid := true, showB := false }
  (s0.setBank cv b).planMoves

/-- R177: lay out the ring of a live through-mode canvas anew. -/
def State.allocRing (s : State) (cv : Nat) : State :=
  let b := s.bank cv
  if !b.single || !b.valid then s
  else
    let s0 := s.setBank cv { b with ring := [] }
    s0.setBank cv { b with ring := s0.freePages.take (s0.ringPages cv b.w b.bpp) }

/-- R193: VAULT.BANKn. -/
def State.bankWord (s : State) (cv : Nat) : Nat :=
  let b := s.bank cv
  if b.valid then
    b.granA.length + b.ring.length * 65536 + (if b.showB then 2 ^ 29 else 0) + (if b.single then 2 ^ 30 else 0) + 2 ^ 31
  else 0

/-- R193: VAULT.SPARE_MAP; `last` lists sections in order of retirement. -/
def State.vaultSpareMap (s : State) : Nat :=
  min s.vault.used.length 255 + (128 - s.vault.used.length) * 256
    + (match s.vault.used.getLast? with | some l => l % 128 * 65536 + 2 ^ 31 | none => 0)
    + (if s.vault.lost.isEmpty then 0 else 2 ^ 30)

end Sys2Proof.Machine
end

