-- ==== Sys2Proof/Machine/WardModel.lean ====
section
/-! DEFINITION. The Ward's capacity model as a function of a configuration (R14-R29, R112, R123, R124, R127, R201,
R239, R244). A configuration is a state whose active registers hold the candidate's values. -/
namespace Sys2Proof.Machine

/-! ### The corner (R15) -/

def cornerVolts : List Nat := [60, 66, 72, 80, 90]
def cornerRates : List Nat := [480000000, 620000000, 740000000, 850000000, 980000000]
/-- Corner power per running Tumbler in 0.01 W. -/
def cornerPower : List Nat := [450, 540, 640, 800, 1000]
def rateAt (v : Nat) : Nat := cornerRates.getD v 480000000
def powerAt (v : Nat) : Nat := cornerPower.getD v 450

/-- R15: the table row of a committed voltage: the next lower table voltage. -/
def voltIdx (v10 : Nat) : Nat := (cornerVolts.filter (· ≤ v10)).length - 1

/-- R18: cycles as ns at a table voltage, rounded up. -/
def cyclesNs (v cycles : Nat) : Nat := cdiv (cycles * 1000000000) (rateAt v)

/-! ### Layers -/

/-- What the Ward reads of a layer. -/
structure LayW where
  n     : Nat
  cv    : Nat
  prio  : Nat
  fmt   : Nat
  matrix : Nat
  mode  : Nat
  flow  : Nat
  dx    : Int
  dy    : Int
  dw    : Nat
  dh    : Nat
  cx    : Nat
  cy    : Nat
  cw    : Nat
  ch    : Nat
  sh    : Nat
  sv    : Nat
  pv    : Int
  taps  : Nat
  auto  : Bool
  set   : FetchSet
  depth : Nat
  step  : Nat

/-- R96: the fetch set a flow entry gives its layers, for buffer 0. -/
def Flow.fetchSet (f : Flow) : FetchSet :=
  ⟨bitsOf (f.word 0) 23 16, bitsOf (f.word 4) 15 0, bitsOf (f.word 4) 31 16,
   bitsOf (f.word 6) 31 12 * 4096 + bitsOf (f.word 7) 8 0 * 2 ^ 32, 0, bitsOf (f.word 8) 23 6 * 64, 0⟩

/-- R372: buffers of a ring, and the distance between two. -/
def Flow.depth (f : Flow) : Nat := bitsOf (f.word 0) 11 8 + 1
def Flow.bufStep (f : Flow) : Nat := cdiv (f.fetchSet.pitch0 * f.fetchSet.h) 4096 * 4096

/-- R92, R93: the fetch set a layer's registers give. -/
def State.regSet (s : State) (n : Nat) : FetchSet :=
  ⟨s.fld (Reg.layCtrl n) 13 8, s.fld (Reg.laySrcSize n) 15 0, s.fld (Reg.laySrcSize n) 31 16,
   s.rn64 (Reg.layAddr0Lo n) % 2 ^ 41 / 64 * 64, s.rn64 (Reg.layAddr1Lo n) % 2 ^ 41 / 64 * 64,
   s.fld (Reg.layPitch0 n) 23 6 * 64, s.fld (Reg.layPitch1 n) 23 6 * 64⟩

/-- The layer as a configuration gives it. -/
def State.layW (s : State) (n : Nat) : LayW :=
  let mode := s.fld (Reg.layFlow n) 5 4
  let fi := s.fld (Reg.layFlow n) 3 0
  let f := s.flw fi
  let dp := s.rn (Reg.layDstPos n)
  let ds := s.rn (Reg.layDstSize n)
  let dw := size16 (ds % 65536)
  let dh := size16 (ds / 65536)
  let cw := size16 (s.fld (Reg.layCropSize n) 15 0)
  let ch := size16 (s.fld (Reg.layCropSize n) 31 16)
  let sc := Reg.layScale n
  let set := if mode = 0 then s.regSet n else f.fetchSet
  { n := n, cv := s.fld (Reg.layCtrl n) 2 1, prio := s.fld (Reg.layPriority n) 7 0, fmt := set.fmt
    matrix := s.fld (Reg.layColour n) 3 1, mode := mode, flow := fi
    dx := signedOf 16 dp, dy := signedOf 16 (dp / 65536), dw := dw, dh := dh
    cx := s.fld (Reg.layCropPos n) 15 0, cy := s.fld (Reg.layCropPos n) 31 16, cw := cw, ch := ch
    sh := effStep (s.fld (Reg.layStepH n) 23 0) cw dw, sv := effStep (s.fld (Reg.layStepV n) 23 0) ch dh
    pv := signedOf 16 (s.rn (Reg.layVphase n)), taps := 2 * (s.fld sc 1 0 + 1), auto := s.bit sc 2
    set := set, depth := if mode = 0 then 1 else f.depth, step := f.bufStep }

/-- A layer is enabled. -/
def State.layEn (s : State) (n : Nat) : Bool := s.bit (Reg.layCtrl n) 0

/-- The Ward has shed a layer, a canvas. -/
def State.layShed (s : State) (n : Nat) : Bool := (s.rn Reg.wardShedLo + s.rn Reg.wardShedHi * 2 ^ 32).testBit n
def State.cvShed (s : State) (n : Nat) : Bool := s.bit Reg.wardShedCv n

/-- A canvas of the configuration: enabled and not shed. -/
def State.cvIn (s : State) (n : Nat) : Bool := s.bit (Reg.cvMode n) 0 && !s.cvShed n

/-- The canvases of the configuration. -/
def State.cvsIn (s : State) : List Nat := [0, 1, 2, 3].filter s.cvIn

/-- R85: the layers of the configuration that are composed. -/
def State.laysIn (s : State) : List LayW :=
  ((List.range 64).filter fun n => s.layEn n && !s.layShed n && s.cvIn (s.fld (Reg.layCtrl n) 2 1)).map s.layW

/-- R127: the cost of a layer in 1/256. -/
def LayW.cost (l : LayW) : Nat :=
  if l.fmt = 0x1F then 256 else cdiv (256 * max (2 ^ 21) l.sh * max (2 ^ 20) l.sv) (2 ^ 41)

/-- R23, R114: vertically unscaled. -/
def LayW.vbyp (l : LayW) : Bool := bypassed l.sv l.pv

/-- R123, R124: the effective taps of a layer; none: it does not fit. -/
def LayW.fitTaps (l : LayW) : Option Nat :=
  if l.vbyp then (if l.cw ≤ 65536 then some 1 else none)
  else
    let tries := if l.auto then [8, 6, 4, 2].filter (· ≤ l.taps) else [l.taps]
    tries.find? fun t => l.cw * t ≤ 65536

/-! ### Line costs (R17, R18) -/

/-- Insert into a rising list without repeats. -/
def insertUp (x : Nat) : List Nat → List Nat
  | [] => [x]
  | y :: r => if x < y then x :: y :: r else if x = y then y :: r else y :: insertUp x r

/-- The boundaries in [0, n] of some integer spans. -/
def cutsOf (n : Nat) (l : List (Int × Nat)) : List Nat :=
  l.foldl (fun acc x =>
    let a := min (max 0 x.1).toNat n
    let b := min (max 0 (x.1 + x.2)).toNat n
    insertUp a (insertUp b acc)) (insertUp n [0])

/-- Consecutive pairs. -/
def pairsOf : List Nat → List (Nat × Nat)
  | a :: b :: r => (a, b) :: pairsOf (b :: r)
  | _ => []

/-- R18, R187: cycles of a line whose layers are `ls`, on a canvas of width `w`, from pixel `x` to its end. -/
def cyclesFrom (w x : Nat) (ls : List LayW) : Nat :=
  let sum := (pairsOf (cutsOf w (ls.map fun l => (l.dx, l.dw)))).foldl (fun n (a, b) =>
    n + (b - max a x) * ((ls.filter fun l => l.dx ≤ (a : Int) && (a : Int) < l.dx + l.dw).map LayW.cost).foldl max 256) 0
  cdiv sum 256 + 32

/-- R18: cycles of a whole line. -/
def lineCycles (w : Nat) (ls : List LayW) : Nat := cyclesFrom w 0 ls

/-- Cycles of every line of a canvas. -/
def canvasCycles (w h : Nat) (ls : List LayW) : List Nat :=
  (pairsOf (cutsOf h (ls.map fun l => (l.dy, l.dh)))).flatMap fun (a, b) =>
    List.replicate (b - a) (lineCycles w (ls.filter fun l => l.dy ≤ (a : Int) && (a : Int) < l.dy + l.dh))

/-- Sums of consecutive line pairs: band boundaries fall on even lines. -/
def unitsOf : List Nat → List Nat
  | a :: b :: r => (a + b) :: unitsOf r
  | [a] => [a]
  | [] => []

/-- Prefix sums. -/
def prefixes (l : List Nat) : Array Nat := (l.foldl (fun (acc : List Nat × Nat) x => ((acc.2 + x) :: acc.1, acc.2 + x)) ([0], 0)).1.reverse.toArray

/-! ### Band plans (R19) -/

/-- Greedy number of bands of at most `cap` cycles each; 10 where more than 9 are needed. -/
def bandsNeeded (cap : Nat) : List Nat → Nat → Nat → Nat
  | [], n, _ => n
  | u :: r, n, cur =>
    if cap < u || 9 < n then 10
    else if cur + u ≤ cap then bandsNeeded cap r n (cur + u)
    else bandsNeeded cap r (n + 1) u

/-- The smallest cap in [lo, hi] with which `n` bands suffice. -/
def minCap (us : List Nat) (n : Nat) : Nat → Nat → Nat → Nat
  | 0, _, hi => hi
  | f + 1, lo, hi =>
    if hi ≤ lo then hi
    else
      let m := (lo + hi) / 2
      if bandsNeeded m us 1 0 ≤ n then minCap us n f lo m else minCap us n f (m + 1) hi

/-- A partial plan: band times from the largest down, from the top down, and the boundaries. -/
structure Plan where
  sorted : List Nat := []
  times  : List Nat := []
  cuts   : List Nat := []
  deriving DecidableEq, Repr

/-- Insert into a falling list. -/
def insertDown (x : Nat) : List Nat → List Nat
  | [] => [x]
  | y :: r => if y ≤ x then x :: y :: r else y :: insertDown x r

/-- Position by position comparison: -1, 0 or 1. -/
def lexCmp : List Nat → List Nat → Int
  | a :: r, b :: t => if a < b then -1 else if b < a then 1 else lexCmp r t
  | [], [] => 0
  | [], _ => -1
  | _, [] => 1

/-- R19 steps 1 to 4: plan `a` comes before plan `b`. -/
def Plan.before (a b : Plan) : Bool :=
  match lexCmp a.sorted b.sorted with
  | -1 => true
  | 1 => false
  | _ => match lexCmp a.times b.times with
    | 1 => true
    | -1 => false
    | _ => lexCmp a.cuts b.cuts = -1

/-- Add a band to a plan. -/
def Plan.add (p : Plan) (t cut : Nat) : Plan := ⟨insertDown t p.sorted, p.times ++ [t], p.cuts ++ [cut]⟩

/-- The best of two. -/
def betterPlan : Option Plan → Plan → Option Plan
  | none, p => some p
  | some q, p => if p.before q then some p else some q

/-- One step of the plan search: the best plan of one more band for each end position. `front` lists the positions
reached with their plans. -/
def planStep (v cap : Nat) (pre : Array Nat) (needed : Nat → Bool) (front : List (Nat × Plan)) : List (Nat × Plan) :=
  (List.range pre.size).filterMap fun e =>
    if !needed e then none
    else
      (front.foldl (fun best (x : Nat × Plan) =>
        if x.1 < e && pre.getD e 0 - pre.getD x.1 0 ≤ cap then
          betterPlan best (x.2.add (cyclesNs v (pre.getD e 0 - pre.getD x.1 0)) e)
        else best) none).map fun p => (e, p)

/-- Run the plan search for `n` bands over units `us`. -/
def planSearch (v cap : Nat) (us : List Nat) (pre : Array Nat) : Nat → List (Nat × Plan) → List (Nat × Plan)
  | 0, front => front
  | n + 1, front =>
    planSearch v cap us pre n (planStep v cap pre (fun e =>
      if n = 0 then e = us.length else e < us.length && n ≤ us.length - e && bandsNeeded cap (us.drop e) 1 0 ≤ n) front)

/-- R19: the plan of a canvas with the given line cycles for `n` Tumblers at a voltage; none: no such plan. -/
def bandPlan (v n : Nat) (cycles : List Nat) : Option Plan :=
  let us := unitsOf cycles
  if n = 0 || us.length < n then none
  else
    let total := us.foldl (· + ·) 0
    let c := minCap us n 64 (us.foldl max 0) total
    let cap := cyclesNs v c * rateAt v / 1000000000
    match (planSearch v cap us (prefixes us) n [(0, {})]).find? (·.1 = us.length) with
    | some (_, p) => some p
    | none => none

/-- The largest t_b of a plan. -/
def Plan.largest (p : Plan) : Nat := p.sorted.headD 0

/-- The bands of a plan as first and last lines. -/
def Plan.bands (p : Plan) (h : Nat) : List (Nat × Nat) := (pairsOf (0 :: p.cuts)).map fun (a, b) => (2 * a, min (2 * b) h - 1)

/-! ### Per canvas -/

/-- What the Ward works with for one canvas. -/
structure CvW where
  cv      : Nat
  w       : Nat
  h       : Nat
  bpp     : Nat
  through : Bool
  tmin    : Nat
  lead    : Nat
  cycles  : List Nat
  lead_   : Nat

/-- R24: w_d. -/
def CvW.wd (c : CvW) : Nat := c.tmin - c.lead

def State.cvW (s : State) (cv : Nat) : CvW :=
  let w := s.fld (Reg.cvSize cv) 15 0
  { cv := cv, w := if w = 0 then 32768 else w, h := s.fld (Reg.cvSize cv) 31 16, bpp := s.bppOf cv
    through := s.bit (Reg.cvMode cv) 2, tmin := s.fld (Reg.cvTmin cv) 25 0, lead := s.leadOf cv
    cycles := canvasCycles (if w = 0 then 32768 else w) (s.fld (Reg.cvSize cv) 31 16) (s.laysIn.filter (·.cv = cv))
    lead_ := s.fld (Reg.scnLeadLines cv) 10 0 }

/-- R18, R26: a canvas passes with `n` Tumblers at a voltage, for some line cycles. -/
def CvW.passes (c : CvW) (margin v n : Nat) (cycles : List Nat) : Bool :=
  if c.through then cycles.all fun x => cyclesNs v x ≤ n * (c.wd / c.h)
  else
    let us := unitsOf cycles
    n ≠ 0 && n ≤ us.length && cyclesNs v (minCap us n 64 (us.foldl max 0) (us.foldl (· + ·) 0)) + margin ≤ c.tmin

/-- R19: the smallest count that passes, up to `avail`. -/
def CvW.smallest (c : CvW) (margin v avail : Nat) : Option Nat :=
  ((List.range avail).map (· + 1)).find? fun n => c.passes margin v n c.cycles

/-! ### Operating points (R20) -/

/-- The counts each canvas takes at a point of `n` Tumblers and a voltage: smallest counts, then the rest one at a
time to the canvas whose largest t_b is largest, the lower number on a tie. -/
def giveOut (v : Nat) : Nat → List (CvW × Nat) → List (CvW × Nat)
  | 0, l => l
  | k + 1, l =>
    let big := fun (x : CvW × Nat) => match bandPlan v x.2 x.1.cycles with | some p => p.largest | none => 0
    let can := l.filter fun x => x.2 < (unitsOf x.1.cycles).length
    match can with
    | [] => l
    | a :: r =>
      let top := r.foldl (fun b x => if big b < big x then x else b) a
      giveOut v k (l.map fun x => if x.1.cv = top.1.cv then (x.1, x.2 + 1) else x)

/-- R20: the counts of a point; none: the point fails. -/
def pointCounts (cs : List CvW) (margin avail n v : Nat) : Option (List (CvW × Nat)) :=
  let mins := cs.map fun c => (c, (c.smallest margin v avail).getD 100)
  let sum := mins.foldl (fun a x => a + x.2) 0
  if n < sum then none else some (giveOut v (n - sum) mins)

/-- R20: the bands of a point, canvas by canvas in ascending number, top band first. -/
def pointBands (cs : List CvW) (margin avail n v : Nat) : Option (List (Nat × Nat × Nat)) :=
  (pointCounts cs margin avail n v).map fun l =>
    l.flatMap fun (c, k) => match bandPlan v k c.cycles with
      | some p => (p.bands c.h).map fun b => (c.cv, b.1, b.2)
      | none => []

/-! ### DRAM (R21) -/

/-- R21: the bytes from `s` up to `e` charged to each channel, in eighths of a byte. -/
def bytesCharge (sets : List (Option IlvSet)) (s e : Nat) : List Nat :=
  (List.range 8).map fun ch =>
    sets.foldl (fun n x => match x with
      | some i =>
        if i.channels.contains ch then n + (min e (i.base + i.size) - max s i.base) * 8 / i.channels.length else n
      | none => n) 0

/-- R21: the bursts of a byte range charged to each channel, in eighths of a byte. -/
def burstCharge (sets : List (Option IlvSet)) (a len : Nat) : List Nat :=
  if len = 0 then List.replicate 8 0 else bytesCharge sets (a / 64 * 64) (cdiv (a + len) 64 * 64)

/-- Sum of two charges. -/
def addCharge (a b : List Nat) : List Nat := List.zipWith (· + ·) a b
def noCharge : List Nat := List.replicate 8 0
/-- The larger charge, channel by channel. -/
def maxCharge (a b : List Nat) : List Nat := List.zipWith max a b

/-- Whether a range lies wholly in one set, and the number of lines that then cost the same. -/
def inOneSet (sets : List (Option IlvSet)) (a e : Nat) : Bool :=
  sets.any fun x => match x with
    | some i => i.base ≤ a && e ≤ i.base + i.size
    | none => false

/-- R21: `n` lines of `len` bytes at a pitch, each charged by `one` from its address and length. -/
def linesCharge (one : Nat → Nat → List Nat) (sets : List (Option IlvSet)) (a pitch n len : Nat) : List Nat :=
  if n = 0 then noCharge
  else if inOneSet sets (a / 64 * 64) (cdiv (a + (n - 1) * pitch + len) 64 * 64) then (one a len).map (· * n)
  else (List.range n).foldl (fun c k => addCharge c (one (a + k * pitch) len)) noCharge

/-- R21, R94, R118: the fetch of one plane of a layer for one frame, from a buffer at an offset. -/
def LayW.planeCharge (l : LayW) (sets : List (Option IlvSet)) (plane ofs : Nat) : List Nat :=
  let (gp, gb) := fmtGroup l.fmt plane
  let first := l.cx / gp * gb
  let len := ((l.cx + l.cw - 1) / gp + 1) * gb - first
  let (y0, n) := if plane = 1 && fmt420 l.fmt then (l.cy / 2, (l.cy + l.ch - 1) / 2 + 1 - l.cy / 2) else (l.cy, l.ch)
  let (a, p) := if plane = 0 then (l.set.addr0, l.set.pitch0) else (l.set.addr1, l.set.pitch1)
  linesCharge (burstCharge sets) sets (a + ofs + y0 * p + first) p n len

/-- R21: the fetch of a layer for one frame; a FOLLOW fetch at the largest charge of any buffer of its ring. -/
def LayW.charge (l : LayW) (sets : List (Option IlvSet)) : List Nat :=
  if l.mode = 2 || l.fmt = 0x1F then noCharge
  else
    (List.range l.depth).foldl (fun c k =>
      maxCharge c ((List.range (fmtPlanes l.fmt)).foldl (fun c p => addCharge c (l.planeCharge sets p (k * l.step))) noCharge)) noCharge

/-- R21: a flow's writes for one source frame: active bytes of each line. -/
def Flow.charge (f : Flow) (sets : List (Option IlvSet)) : List Nat :=
  let g := f.fetchSet
  (List.range f.depth).foldl (fun c k =>
    maxCharge c (linesCharge (fun a n => bytesCharge sets a (a + n)) sets (g.addr0 + k * f.bufStep) g.pitch0 g.h
      (fmtLineBytes g.fmt 0 g.w))) noCharge

/-- A sum of fractions kept as one fraction. -/
def addFrac (a b : Nat × Nat) : Nat × Nat := if b.1 = 0 then a else if a.1 = 0 then b else (a.1 * b.2 + b.1 * a.2, a.2 * b.2)

/-- R21, R190: a canvas's capture for one frame, at the largest charge of any of its buffers (notes/assumptions/121). -/
def State.captCharge (s : State) (c : CvW) (sets : List (Option IlvSet)) : List Nat :=
  if !s.bit (Reg.scnCaptCtrl c.cv) 0 then noCharge
  else
    let n := c.w * c.h * c.bpp
    (List.range (s.fld (Reg.scnCaptCtrl c.cv) 4 1 + 1)).foldl (fun x k =>
      let a := s.rn64 (Reg.scnCaptLo c.cv) % 2 ^ 41 + k * (cdiv n 64 * 64)
      maxCharge x (bytesCharge sets a (a + n))) noCharge

/-- R21: the bytes of a frame of a canvas that are charged to each channel: its calibration table, its capture and its layers. -/
def State.frameCharge (s : State) (sets : List (Option IlvSet)) (c : CvW) : List Nat :=
  let a := s.rn64 Reg.lampCalLo % 2 ^ 41
  (s.laysIn.filter (·.cv = c.cv)).foldl (fun x l => addCharge x (l.charge sets))
    (addCharge (bytesCharge sets a (a + 8 * c.w * c.h)) (s.captCharge c sets))

/-- R21: bytes per second charged to each channel, as exact fractions over all streams; a comparison or a report rounds
once (notes/assumptions/119). -/
def State.dramDemand (s : State) : List (Nat × Nat) :=
  let sets := s.ilvs
  let perCv := s.cvsIn.map fun cv => (s.frameCharge sets (s.cvW cv), (s.cvW cv).tmin)
  let named := ((List.range 64).filter fun n => s.layEn n && s.fld (Reg.layFlow n) 5 4 ≠ 0).map fun n => s.fld (Reg.layFlow n) 3 0
  let flows := ((List.range 16).filter fun f => (s.flw f).word 0 % 2 = 1 || named.contains f).map fun f =>
    let w := (s.flw f).word 5
    ((s.flw f).charge sets, bitsOf w 15 0, bitsOf w 31 16)
  (List.range 8).map fun ch =>
    let a := perCv.foldl (fun q x => addFrac q (x.1.getD ch 0 * 1000000000, 8 * x.2)) (0, 1)
    let b := flows.foldl (fun q x => if x.2.2 = 0 then q else addFrac q (x.1.getD ch 0 * x.2.1, 8 * x.2.2)) a
    s.rsv.foldl (fun q r => match sets.getD r.2.1 none with
      | some i => if i.channels.contains ch then addFrac q (2 * r.2.2 * 1000000, i.channels.length) else q
      | none => q) b

/-- R268: data rate of a set point in MT/s. -/
def State.fspRate (s : State) (f : Nat) : Nat :=
  match s.fld Reg.memFspCtrl (17 + 2 * f) (16 + 2 * f) with | 0 => 4800 | 1 => 5600 | _ => 6400

/-- The enabled memory channels. -/
def State.mcsOn (s : State) : List Nat := (List.range 8).filter fun m => s.bit (Reg.mcCtrl m) 0

/-- A set point is marked trained on every enabled channel. -/
def State.fspTrained (s : State) (f : Nat) : Bool := s.mcsOn.all fun m => s.bit Reg.mtrnTrained (4 * m + f)

/-- R21: the qualifying set points. -/
def State.fspsQualify (s : State) : List Nat :=
  let en := [0, 1, 2, 3].filter fun f => s.bit Reg.memFspCtrl (8 + f)
  let tr := en.filter s.fspTrained
  if tr.isEmpty then en else tr

/-- R21: a channel's demand passes at a set point. -/
def State.channelPasses (s : State) (d : Nat × Nat) (f : Nat) : Bool :=
  d.1 * 100 ≤ s.fld Reg.wardCeil 6 0 * s.fspRate f * 8000000 * d.2

/-- R21: the set points at which every channel passes, as a mask. -/
def State.fspPass (s : State) (d : List (Nat × Nat)) : Nat :=
  (s.fspsQualify.filter fun f => d.all fun x => s.channelPasses x f).foldl (fun m f => m + 2 ^ f) 0

/-! ### Links (R22, R24, R239, R244) -/

/-- The tiles of a head port's chain placed on a canvas. -/
def State.chainTiles (s : State) (cv p : Nat) : List Tile := ((s.placedOn cv).filter fun x => x.2.port = p).map (·.2)

/-- The gate lists of a port: the operational one, and one a takeover will put in force. -/
def State.gateLists (s : State) (p : Nat) : List GateList :=
  let pt := s.prt p
  pt.operList :: (match pt.nextList with | some (_, g) => [g] | none => [])

/-- R200, R201: the pixel packets of one frame on a port: payload bytes and how many; whether every segment fits. -/
def State.packetsOf (_s : State) (bpp rate : Nat) (ts : List Tile) (lists : List GateList) : List (Nat × Nat) × Bool :=
  let l := ts.map fun t =>
    let k := segCount rate bpp (pmaxOf t.cap) t.w lists 1 t.w
    let segs := if t.w = 0 then [] else segments t.w k
    (segs.map fun x => (x.2 * bpp, t.h), segs.all fun x => segmentFits rate (x.2 * bpp + 42) lists)
  (l.flatMap (·.1), l.all (·.2))

/-- R24: need and largest packet time. -/
def linkNeed (rate retx : Nat) (pk : List (Nat × Nat)) : Nat × Nat :=
  let tx := cdiv (pk.foldl (fun n x => n + (x.1 + 62) * byteTime rate * x.2) 0) 10
  (cdiv (tx * (1000 + retx)) 1000, cdiv ((pk.foldl (fun m x => max m (x.1 + 62)) 0) * byteTime rate) 10)

/-- R24, R236: have. -/
def linkHave (wd tpm : Nat) (g : GateList) : Nat :=
  match g.shortest 0 with
  | none => wd - tpm
  | some l => if l = 0 || g.cycle = 0 then 0 else (wd - l) / g.cycle * (l - tpm)

/-- R244: the least of a list of candidate splits. -/
def transitionHave (wd tpm : Nat) (o n : GateList) : Nat :=
  let first := fun (a : Nat) => match o.shortest 0 with
    | none => a - tpm
    | some l => if o.cycle = 0 then 0 else (a - l) / o.cycle * (l - tpm)
  let second := fun (r : Nat) => match n.shortest 0 with
    | none => r - tpm
    | some l => if l = 0 || n.cycle = 0 || r < l then 0 else ((r - l) / n.cycle + 1) * (l - tpm)
  let at_ := fun (a : Nat) => first a + second (wd - a)
  let os := match o.shortest 0 with
    | none => []
    | some l => if o.cycle = 0 then [] else (List.range (wd / o.cycle + 2)).flatMap fun m => [l + m * o.cycle - 1, l + m * o.cycle]
  let ns := match n.shortest 0 with
    | none => []
    | some l => if n.cycle = 0 then [] else (List.range (wd / n.cycle + 2)).flatMap fun m => [wd - l - m * n.cycle, wd - l - m * n.cycle + 1]
  (([0, wd, min wd tpm, wd - tpm] ++ os ++ ns).filter (· ≤ wd)).foldl (fun m a => min m (at_ a)) (at_ 0)

/-- R239: a list a port must not hold. -/
def gateListBad (rate : Nat) (g : GateList) : Bool :=
  g.shortest 0 = some 0 || [6, 7].any fun q => match g.longest q with
    | none => false
    | some w => w * 10 < 1538 * byteTime rate

/-- R239: a looped pair holds different lists. -/
def State.loopListsDiffer (s : State) (p : Nat) : Bool :=
  match s.partner p with
  | none => false
  | some q => (s.gateLists p).getLastD (mkGates [] 0 0) ≠ (s.gateLists q).getLastD (mkGates [] 0 0)

/-- R24: need and have of a port carrying a canvas (the chain of `head`) under its operational list, and whether R24, R239
and R244 pass; `arms`: the commit arms a takeover on it. The packets on the wire meet both lists while a takeover is
pending (R238); the list to come is judged by the packets it gives itself, and R244 takes the larger packet time. -/
def State.linkTerm (s : State) (cv p head : Nat) (arms : Bool) : Nat × Nat × Bool :=
  let c := s.cvW cv
  let rate := s.rateOf p
  let lists := s.gateLists p
  let packets := s.packetsOf c.bpp rate (s.chainTiles cv head)
  let term := fun ls => linkNeed rate (s.fld Reg.wardRetx 9 0) (packets ls).1
  let (need, tpm) := term lists
  let have_ := linkHave c.wd tpm (s.prt p).operList
  let next := (lists.drop 1).all fun g => (term [g]).1 ≤ linkHave c.wd (term [g]).2 g
  let ok := (packets lists).2 && need ≤ have_ && next && lists.all (!gateListBad rate ·) && !s.loopListsDiffer p
  let tr := !arms || match lists with
    | [o, n] => need ≤ transitionHave c.wd (max (term [o]).2 (term [n]).2) o n
    | _ => true
  (need, have_, ok && tr)

/-- R40: PORT_UTIL of a port. -/
def State.portUtil (s : State) (p : Nat) : Nat :=
  match s.cvsIn.find? fun cv => (s.withPartners (s.portsOf cv)).contains p with
  | none => 0
  | some cv =>
    let (need, have_, _) := s.linkTerm cv p ((s.headOf p).getD p) false
    if need = 0 then 0 else if have_ = 0 then 1023 else min 1023 (cdiv (1000 * need) have_)

/-! ### Vault and power (R25, R27) -/

/-- R176: the regions of lost sections: bank region, ring range. -/
def State.lostBank (s : State) : Nat := (s.vault.lost.filter (8 ≤ ·)).length * 4194304
def State.lostRing (s : State) : Nat := (s.vault.lost.filter (· < 6)).length * 4194304

/-- R5: bank bytes of a configuration; R25: ring bytes. -/
def bankBytes (cs : List CvW) : Nat := cs.foldl (fun n c => n + (if c.through then 1 else 2) * c.bpp * c.w * c.h) 0
def ringBytes (cs : List CvW) : Nat := cs.foldl (fun n c => if c.through then n + c.lead_ * c.w * c.bpp else n) 0

/-- R27: the charges that no shedding removes, in 0.01 W. -/
def State.keepCharge (s : State) : Nat :=
  ([0, 1].filter fun m => s.bit (Reg.medCtrl m) 0).length * 400 + (if s.fld Reg.pcieStat 2 0 ≠ 0 then 350 else 0)
    + ([0, 1].filter fun m => s.bit (Reg.haspCtrl m) 0).length * 125 + 250

/-- R27: every charge but the Tumblers'; the vault is charged nothing with no canvas live (notes/assumptions/120). -/
def State.fixedCharge (s : State) (cs : List CvW) (d : List (Nat × Nat)) : Nat :=
  let v := if cs.isEmpty then 0 else 350 * cdiv (bankBytes cs + s.lostBank + 33554432) 134217728 + 1200
  let m := d.foldl (fun n x => if x.1 = 0 then n else n + 300 + cdiv (3 * x.1) (x.2 * 1000000000)) 0
  let p := cs.foldl (fun n c => (s.withPartners (s.portsOf c.cv)).foldl (fun n p =>
    n + (match s.rateOf p with | 0 => 8 | 1 => 12 | _ => 22)) n) 0
  v + m + p + s.keepCharge

/-- R337: the spare is charged as one further running Tumbler. -/
def State.checkCharged (s : State) (cs : List CvW) : Bool :=
  !cs.isEmpty && s.bit (Reg.tmbStat 8) 2 && !s.bit (Reg.tmbStat 8) 3 && !s.bit (Reg.tmbStat 8) 5 && s.faults.taking.isNone
    && s.bit (Reg.tmbCtrl 8) 0

/-- R27: the device power at a point. -/
def powerOf (fixed extra n v : Nat) : Nat := cdiv ((fixed + (n + extra) * powerAt v) * 109) 100

/-! ### Evaluation -/

/-- A verdict with what the Ward publishes of a configuration that passes. -/
structure Verdict where
  code  : Nat
  kind  : Nat := 0
  index : Nat := 0
  deriving DecidableEq, Repr

/-- The first object of a list that fails, as a verdict. -/
def failAt (code kind : Nat) (l : List Nat) (bad : Nat → Bool) : Option Verdict := (l.find? bad).map fun n => ⟨code, kind, n⟩

/-- The layers that GEOMETRY and FORMAT look at: for a commit `all` enabled ones, for a re-admission the composed ones
(R36, R112). -/
def State.checkedLays (s : State) (all : Bool) : List Nat :=
  (List.range 64).filter fun n => s.layEn n && (all || (!s.layShed n && s.cvIn (s.fld (Reg.layCtrl n) 2 1)))

/-- R29, R3, R85, R112: GEOMETRY; a commit is judged on `all` enabled layers, a re-admission on the composed ones.  Sizes
and placements are checked on canvases that are enabled and not shed (notes/assumptions/118). -/
def State.geometry (s : State) (all : Bool) : Option Verdict :=
  let lays := s.checkedLays all
  (failAt 8 1 [0, 1, 2, 3] fun cv =>
    let c := s.cvW cv
    (s.cvIn cv && (32768 < c.w || c.h = 0 || 16384 < c.h)) ||
    16 < (((List.range 64).filter s.layEn).filter fun n => s.fld (Reg.layCtrl n) 2 1 = cv).length ||
    (s.cvIn cv && (s.placedOn cv).any fun x =>
      let (w, h) := orientSize x.2.orient x.2.w x.2.h
      c.w < x.2.x + w || c.h < x.2.y + h)) <|>
  (failAt 8 2 lays fun n =>
    let l := s.layW n
    let c := s.cvW l.cv
    (l.fmt ≠ 0x1F && (l.sh < 8192 || 8388608 < l.sh || l.sv < 8192 || 8388608 < l.sv)) ||
    (s.cvIn l.cv && ((c.w : Int) ≤ l.dx || (c.h : Int) ≤ l.dy || l.dx + l.dw ≤ 0 || l.dy + l.dh ≤ 0))) <|>
  (failAt 8 3 (List.range 64) fun p => 1 < (s.cvsIn.filter fun cv => (s.portsOf cv).contains p).length)

/-- R29, R92, R110, R136: FORMAT. -/
def State.format_ (s : State) (all : Bool) : Option Verdict :=
  let lays := s.checkedLays all
  (failAt 7 2 lays fun n =>
    let l := s.layW n
    !fmtKnown l.fmt || (fmtYcc l.fmt && l.matrix = 4) || (l.mode = 2 && !s.bit (Reg.cvMode l.cv) 2)) <|>
  (failAt 7 3 (List.range 64) fun p => s.verOf p = 1 &&
    s.cvsIn.any fun cv => (s.portsOf cv).contains p && s.bppOf cv = 6) <|>
  (if s.fld Reg.keepVcommit 6 0 < 60 || 90 < s.fld Reg.keepVcommit 6 0 then some ⟨7, 5, 0⟩ else none)

/-- R23: LINE_STORE. -/
def State.lineStore (s : State) : Option Verdict :=
  (s.laysIn.find? fun l => l.fmt ≠ 0x1F && l.fitTaps.isNone).map fun l => ⟨3, 2, l.n⟩

/-- R25: VAULT_SPACE. -/
def State.vaultSpace (s : State) (cs : List CvW) : Option Verdict :=
  if 503316480 < bankBytes cs + s.lostBank then some ⟨6, 5, 0⟩
  else if 25165824 < ringBytes cs + s.lostRing then some ⟨6, 5, 1⟩ else none

/-- R55: the pending registers that could meet one composition start of a canvas are too many. -/
def State.applyBad (s : State) (count : Nat → Nat) (cv : Nat) : Bool := s.fld Reg.wardMargin 15 0 < 3 * count cv

/-- R55 alone: what a commit that needs no evaluation is checked for (R30). -/
def State.applyCount (s : State) (count : Nat → Nat) : Option Verdict := failAt 1 1 [0, 1, 2, 3] (s.applyBad count)

/-- R20: the published points as (count, voltage index). -/
def State.points (s : State) : List (Nat × Nat) :=
  let m := s.rn Reg.wardOpptLo + s.rn Reg.wardOpptHi * 2 ^ 32
  ((List.range 45).filter fun i => m.testBit i).map fun i => (i / 5 + 1, i % 5)

/-- R128: a commit changes, from configuration `base`, an SL register of a layer that is on a canvas before or after it. -/
def State.slChanged (s base : State) (cv : Nat) : Bool :=
  (List.range 64).any fun n => (s.fld (Reg.layCtrl n) 2 1 = cv || base.fld (Reg.layCtrl n) 2 1 = cv) &&
    [Reg.layDstPos n, Reg.layDstSize n, Reg.layAlpha n, Reg.layBlend n, Reg.layFill n].any fun o => s.reg o ≠ base.reg o

/-- R128: the transition frame of a canvas from the standing configuration `old` fails at a published point. -/
def State.transitionBad (s old : State) (cv : Nat) : Bool :=
  let margin := s.fld Reg.wardMargin 15 0
  let avail := s.fld Reg.wardTmbAvail 3 0
  let ocs := old.cvsIn.map old.cvW
  (s.cvIn cv && old.cvIn cv && s.rn (Reg.cvSize cv) = old.rn (Reg.cvSize cv)) &&
    let c := s.cvW cv
    let cyc := List.zipWith max c.cycles (old.cvW cv).cycles
    let pre := prefixes cyc
    old.points.any fun (n, v) => match pointCounts ocs margin avail n v with
      | none => false
      | some l => match l.find? fun x => x.1.cv = cv with
        | none => false
        | some (oc, k) =>
          if c.through then !c.passes margin v k cyc
          else match bandPlan v k oc.cycles with
            | none => false
            | some p => (p.bands c.h).any fun b => c.tmin < cyclesNs v (pre.getD (b.2 + 1) 0 - pre.getD b.1 0) + margin

/-- What a commit's candidate is compared with: the standing configuration, and that with the commits accepted before it,
which it changes (R30, R128). -/
structure Before where
  standing : State
  base : State

/-- R18, R19, R26, R55, R128: TUMBLER_RATE at the committed voltage: the lowest canvas that fails one of them, else the
Tumbler pool. A canvas that no count up to TMB_AVAIL carries is reported as the canvas (notes/assumptions/123). -/
def State.tumblerRate (s : State) (old : Option Before) (counts : Nat → Nat) (cs : List CvW) : Option Verdict :=
  let v := voltIdx (s.fld Reg.keepVcommit 6 0)
  let avail := s.fld Reg.wardTmbAvail 3 0
  let margin := s.fld Reg.wardMargin 15 0
  let mins := cs.map fun c => (c.cv, c.smallest margin v avail)
  (failAt 1 1 [0, 1, 2, 3] fun cv =>
    s.applyBad counts cv || mins.any (fun x => x.1 = cv && x.2.isNone) || old.any fun o => s.slChanged o.base cv && s.transitionBad o.standing cv) <|>
  (if avail < mins.foldl (fun n x => n + x.2.getD 0) 0 then some ⟨1, 6, 0⟩ else none)

/-- R21: DRAM_BW; with no qualifying set point it fails, at channel 0 (notes/assumptions/121). -/
def State.dramBw (s : State) (d : List (Nat × Nat)) : Option Verdict :=
  let q := s.fspsQualify
  if s.pllLost 1 && d.any (fun x => x.1 ≠ 0) then failAt 2 4 (List.range 8) fun ch => (d.getD ch (0, 1)).1 ≠ 0
  else if s.fspPass d ≠ 0 then none
  else if q.isEmpty then some ⟨2, 4, 0⟩
  else
    let best := q.foldl (fun b f => if s.fspRate b < s.fspRate f then f else b) (q.headD 0)
    failAt 2 4 (List.range 8) fun ch => !s.channelPasses (d.getD ch (0, 1)) best

/-- R24: LINK_BW; `arms p`: the commit arms a takeover on port `p`. -/
def State.linkBw (s : State) (arms : Nat → Bool) : Option Verdict :=
  failAt 4 3 (List.range 64) fun p => s.cvsIn.any fun cv =>
    (s.pllLost 2 && (s.rn (Reg.scnPortsLo cv) + s.rn (Reg.scnPortsHi cv) * 2 ^ 32).testBit p) ||
    (s.portsOf cv).any fun h => (h = p || s.partner h = some p) && !(s.linkTerm cv p h (arms p)).2.2

/-- R19: Tumblers of the committed point. -/
def State.committedCount (s : State) (cs : List CvW) : Nat :=
  let v := voltIdx (s.fld Reg.keepVcommit 6 0)
  cs.foldl (fun n c => n + (c.smallest (s.fld Reg.wardMargin 15 0) v (s.fld Reg.wardTmbAvail 3 0)).getD 0) 0

/-- R27: power of a configuration at the committed point. -/
def State.demand (s : State) (cs : List CvW) (d : List (Nat × Nat)) : Nat :=
  powerOf (s.fixedCharge cs d) (if s.checkCharged cs then 1 else 0) (s.committedCount cs)
    (voltIdx (s.fld Reg.keepVcommit 6 0))

/-- R28, R320: the budget a candidate is judged against: PBUDGET, less where the candidate lowers BUDGET. -/
def State.budgetFor (s : State) : Nat :=
  let b := s.fld Reg.keepBudget 15 0
  if b = 0 then s.fld Reg.wardPbudget 15 0 else min b (s.fld Reg.wardPbudget 15 0)

/-- R29-R33: evaluate a configuration; `old`: what a commit is compared with, `counts` its R55 counts, `arms`
the ports on which it arms a takeover. -/
def State.evaluate (s : State) (old : Option Before) (counts : Nat → Nat) (arms : Nat → Bool) : Verdict :=
  let geo := s.geometry old.isSome <|> s.format_ old.isSome
  match geo with
  | some v => v
  | none =>
    let cs := s.cvsIn.map s.cvW
    match s.lineStore <|> s.vaultSpace cs <|> s.tumblerRate old counts cs with
    | some v => v
    | none =>
      let d := s.dramDemand
      match s.dramBw d <|> s.linkBw arms with
      | some v => v
      | none => if s.budgetFor < s.demand cs d then ⟨5, 5, 0⟩ else ⟨0, 0, 0⟩

/-- R20: the points at which a configuration passes, as a mask. -/
def State.pointMask (s : State) : Nat :=
  let cs := s.cvsIn.map s.cvW
  let d := s.dramDemand
  let avail := s.fld Reg.wardTmbAvail 3 0
  let margin := s.fld Reg.wardMargin 15 0
  let fixed := s.fixedCharge cs d
  let ex := if s.checkCharged cs then 1 else 0
  (List.range 5).foldl (fun m v =>
    let mins := cs.map fun c => (c.smallest margin v avail).getD 100
    let sum := mins.foldl (· + ·) 0
    (List.range avail).foldl (fun m k =>
      let n := k + 1
      if sum ≤ n && powerOf fixed ex n v ≤ s.budgetFor then m + 2 ^ (k * 5 + v) else m) m) 0

end Sys2Proof.Machine
end

