-- ==== Sys2Proof/Machine/Latch.lean ====
section
/-! DEFINITION. The Latch: arming, candidates, verdicts, publication, firing, mode hinges as they fire, and applies
(R20, R30-R35, R50-R62, R76, R79, R83, R241, R385). -/
namespace Sys2Proof.Machine

/-! ### Candidates -/

/-- The offset that stands for an indirect word in a list of registers, and back. -/
def wordOff (base k : Nat) : Nat := base + 2 ^ 24 * (k + 1)
def offReg (off : Nat) : Nat := off % 2 ^ 24

/-- R50, R51, R54: the pending registers and words that take part in an apply of some groups, in apply order. -/
def State.pendOffs (s : State) (mask : Nat) : List Nat :=
  let l := s.pendingOf mask
  let on := fun page => s.pgEn page && mask.testBit (s.groupOf page)
  let sch := if on 0x003 then s.schedSh.map fun x => wordOff Reg.keepSchedData x.1 else []
  let shp := if on 0x0E0 then s.shaperSh.map fun x => wordOff Reg.schedShaperData x.1 else []
  l.filter (· ≤ Reg.keepSchedData) ++ sch ++ (l.filter fun o => Reg.keepSchedData < o && o ≤ Reg.schedShaperData) ++ shp
    ++ l.filter (Reg.schedShaperData < ·)

/-- The pending value of such a register or word. -/
def State.pendValue (s : State) (off : Nat) : Word :=
  if off < 2 ^ 24 then s.sh off
  else if offReg off = Reg.keepSchedData then (mget s.schedSh (off / 2 ^ 24 - 1) none).getD 0
  else (mget s.shaperSh (off / 2 ^ 24 - 1) none).getD 0

/-- A configuration with a register or word at a value. -/
def State.withOff (s : State) (off : Nat) (v : Word) : State :=
  if off < 2 ^ 24 then s.setReg off v
  else if offReg off = Reg.keepSchedData then { s with sched := mset s.sched (off / 2 ^ 24 - 1) 0 v }
  else { s with shapers := mset s.shapers (off / 2 ^ 24 - 1) 0 v }

/-- R241: the ports on which registers of a list arm a takeover. -/
def gatePorts (offs : List Nat) : List Nat :=
  (List.range 64).filter fun p => offs.contains (Reg.prtGateBaseLo p) || offs.contains (Reg.prtGateBaseHi p) || offs.contains (Reg.prtGateCycle p)

/-- A configuration in which the admin lists of some ports are about to be taken over. -/
def State.withTakeovers (s : State) (ps : List Nat) : State :=
  s.each ps fun p s =>
    let b := s.rn64 (Reg.prtGateBaseLo p)
    s.setPrt p { (s.prt p) with takeover := some (b, b, s.fld (Reg.prtGateCycle p) 26 0) }

/-- R36, R38: a configuration in which an object is not shed. -/
def State.unshedLay (s : State) (n : Nat) : State :=
  if n < 32 then s.clrBit Reg.wardShedLo n else s.clrBit Reg.wardShedHi (n - 32)
def State.unshedCv (s : State) (cv : Nat) : State := s.clrBit Reg.wardShedCv cv

/-- R38: objects whose enable register a list carries are no longer shed. -/
def State.unshedBy (s : State) (offs : List Nat) : State :=
  let s1 := s.each (List.range 64) fun n s => if offs.contains (Reg.layCtrl n) then s.unshedLay n else s
  s1.each [0, 1, 2, 3] fun cv s => if offs.contains (Reg.cvMode cv) then s.unshedCv cv else s

/-- R230: the staged placements of a canvas in force. -/
def State.placeStaged (s : State) (cv : Nat) : State :=
  s.each ((s.tileList.filter fun x => match x.2.staged with
      | some p => p.cv = cv || (x.2.placed && x.2.cv = cv)
      | none => false).map (·.1)) fun n s =>
    match (s.tile n).staged with
    | some p => s.setTile n { (s.tile n) with staged := none, cv := p.cv, placed := p.placed, x := p.x, y := p.y, orient := p.orient }
    | none => s

/-- R79, R227: the canvases that registers of a list run a mode hinge on, from configuration `base` to `cand`. -/
def hingesOf (base cand : State) (offs : List Nat) : List Nat :=
  let ch := fun o => offs.contains o && base.reg o ≠ cand.reg o
  [0, 1, 2, 3].filter fun cv =>
    ch (Reg.cvMode cv) || ch (Reg.cvSize cv) || ch (Reg.scnPortsLo cv) || ch (Reg.scnPortsHi cv) ||
      (base.liveCv cv && (base.withPartners (base.portsOf cv)).any fun p => ch (Reg.prtMode p))

/-- R30, R79: a configuration extended by a commit. -/
def State.extend (s : State) (base : State) (c : Commit) : State :=
  let offs := s.pendOffs c.groups
  let s1 := (offs.foldl (fun b o => b.withOff o (s.pendValue o)) base).unshedBy offs
  let s2 := s1.withTakeovers (gatePorts offs)
  let cvs := match c.trig with
    | .hinge cv => cv :: hingesOf base s2 offs
    | _ => hingesOf base s2 offs
  s2.each cvs fun cv s => s.placeStaged cv

/-- R30: the standing configuration: every register of a fired commit at its new value, and the placements of a fired
hinge. -/
def State.standing (s : State) : State :=
  let s1 := s.latch.applying.foldl (fun b a => b.withOff a.off a.value) s
  let s2 := s1.withTakeovers (gatePorts (s.latch.applying.map (·.off)))
  s2.each ([0, 1, 2, 3].filter fun cv => ((s.cv cv).hinge.any (·.lh.isNone)) || (s.cv cv).hingeNext.isSome)
    fun cv s => s.placeStaged cv

/-- R40, R80 step 3: the configuration that the bands follow: the standing one, without what waits for a hinge's S. -/
def State.bandState (s : State) : State :=
  (s.latch.applying.filter (·.at_ ≠ .hinge)).foldl (fun b a => b.withOff a.off a.value) s

/-- The candidates of some commits, one after the other. -/
def State.candidates (s : State) : State → List Commit → List State
  | _, [] => []
  | b, c :: r => let x := s.extend b c; x :: s.candidates x r

/-- R52: the canvas of a register's page. -/
def State.pageCv (s : State) (off : Nat) : Nat :=
  match pageKind (offReg off / 4096) with
  | some (.cv, n) | some (.cvc, n) | some (.scn, n) => n
  | some (.lay, n) => bitsOf (s.sh (Reg.layCtrl n)).toNat 2 1
  | _ => s.fld (Reg.latchGcfg (s.groupOf (offReg off / 4096))) 1 0

/-- R55: the registers on pages 0x003 to 0x093 of a canvas, pending in a commit and in every accepted one, and still to
apply. -/
def State.r55Count (s : State) (c : Commit) (before : List Commit) (cv : Nat) : Nat :=
  let pend := s.pendOffs (before.foldl (fun m x => m ||| x.groups) c.groups)
  let offs := pend ++ s.latch.applying.map (·.off)
  (offs.filter fun o => 3 ≤ offReg o / 4096 && offReg o / 4096 ≤ 0x093 && s.pageCv o = cv).length

/-- R30: a pending register of the commit lies on a page that needs evaluation. -/
def State.needsEval (s : State) (c : Commit) : Bool :=
  (match c.trig with | .hinge _ => true | _ => false) ||
  (s.pendOffs c.groups).any fun o => match pageKind (offReg o / 4096) with
    | some (.cv, _) | some (.lay, _) | some (.scn, _) | some (.prt, _) | some (.sched, _) | some (.keep, _)
    | some (.tmb, _) => true
    | _ => false

/-- R29-R35: the verdict on a commit after some accepted ones. -/
def State.judge (s : State) (before : List Commit) (c : Commit) : Verdict :=
  let cnt := s.r55Count c before
  if !s.needsEval c then ((s.applyCount cnt).getD ⟨0, 0, 0⟩)
  else if s.bit Reg.wardCtrl 0 then ⟨9, 0, 0⟩
  else
    let st := s.standing
    let base := ((s.candidates st before).getLast?).getD st
    let cand := s.extend base c
    let gp := gatePorts (s.pendOffs c.groups)
    cand.evaluate (some ⟨st, base⟩) cnt gp.contains

/-! ### Publication (R20, R21, R40) -/

/-- The Tumblers that can hold a band, in ascending index (R336). -/
def State.pool (s : State) : List Nat :=
  (List.range 9).filter fun t => !s.bit (Reg.tmbStat t) 5 && (t ≠ 8 || s.bit (Reg.tmbStat t) 3 || s.faults.taking.isSome)

/-- R336: the spare serves in the role of the Tumbler whose band it takes. -/
def State.spareServes (s : State) : State :=
  match s.faults.taking with
  | none => s
  | some n =>
    let s1 := ((s.setBit (Reg.tmbStat 8) 3).setFld (Reg.tmbStat 8) 11 8 n).clrBit (Reg.tmbStat 8) 4
    { s1 with faults := { s1.faults with taking := none } }

/-- R336: at a composition start of the canvas whose band the retired Tumbler holds, or at once where it holds none,
the spare takes the band over. -/
def State.takeBand (s : State) (cv : Option Nat) : State :=
  match s.faults.taking with
  | none => s
  | some n =>
    let w := s.rn (Reg.wardBand n)
    if w.testBit 31 && s.liveCv (bitsOf w 29 28) && cv ≠ some (bitsOf w 29 28) then s
    else
      let s1 := s.spareServes
      if w.testBit 31 then
        (((s1.setRn (Reg.wardBand 8) w).setBit (Reg.tmbStat 8) 1).clrBit (Reg.wardBand n) 31).clrBit (Reg.tmbStat n) 1
      else s1

/-- The bands that WARD.BANDn describe. -/
def State.bandTriples (s : State) : List (Nat × Nat × Nat) :=
  (List.range 9).filterMap fun t =>
    let w := s.rn (Reg.wardBand t)
    if w.testBit 31 then some (bitsOf w 29 28, bitsOf w 13 0, bitsOf w 27 14) else none

/-- R20: the running point. -/
def State.runCount (s : State) : Nat := s.fld Reg.keepTmbRun 19 16
def State.runVolt (s : State) : Nat := s.fld Reg.keepTmbRun 22 20

/-- R20, R40: WARD.BANDn for the running point and a configuration. -/
def State.publishBands (s : State) (st : State) : State :=
  let bands := (pointBands (st.cvsIn.map st.cvW) (st.fld Reg.wardMargin 15 0) (s.fld Reg.wardTmbAvail 3 0) s.runCount s.runVolt).getD []
  let given := (s.pool.zip bands)
  let was := s.bandTriples
  let same := was.length = bands.length && bands.all was.contains &&
    !(List.range 9).any fun t => s.faults.lost.contains t && s.bit (Reg.wardBand t) 31
  if same then s
  else s.spareServes.each (List.range 9) fun t s => match given.find? (·.1 = t) with
    | some (_, cv, a, b) => (s.setRn (Reg.wardBand t) (a + b * 2 ^ 14 + cv * 2 ^ 28 + 2 ^ 31)).setBit (Reg.tmbStat t) 1
    | none => (s.setRn (Reg.wardBand t) 0).clrBit (Reg.tmbStat t) 1

/-- R20, R21, R40: the Ward publishes its points, set points, demands and bands. -/
def State.publish (s : State) : State :=
  let st := s.standing
  let cs := st :: s.candidates st s.latch.accepted
  let pts := cs.foldl (fun m x => m &&& x.pointMask) (2 ^ 45 - 1)
  let ok := cs.foldl (fun m x => m &&& x.fspPass x.dramDemand) 15
  let d := st.dramDemand
  let s1 := ((s.setRn Reg.wardOpptLo pts).setRn Reg.wardOpptHi (pts / 2 ^ 32)).setRn Reg.wardFspOk ok
  let ws := st.cvsIn.map st.cvW
  let s2 := s1.setRn Reg.wardPdemand (min 65535 (st.demand ws d))
  let v := voltIdx (st.fld Reg.keepVcommit 6 0)
  let s3 := s2.each [0, 1, 2, 3] fun cv s =>
    let big := match ws.find? (·.cv = cv) with
      | none => 0
      | some c => match c.smallest (st.fld Reg.wardMargin 15 0) v (st.fld Reg.wardTmbAvail 3 0) with
        | none => 0
        | some n => match bandPlan v n c.cycles with | some p => p.largest | none => 0
    s.setRn (Reg.wardCvdem cv) big
  let low := ([0, 1, 2, 3].filter fun f => ok.testBit f).foldl
    (fun b f => match b with | none => some f | some g => if s.fspRate f < s.fspRate g then some f else some g) none
  let s4 := s3.each (List.range 8) fun m s =>
    let x := d.getD m (0, 1)
    let dem := cdiv x.1 (x.2 * 1000000)
    let lim := match low with | none => 0 | some f => s.fld Reg.wardCeil 6 0 * (s.fspRate f * 8) / 100
    s.setRn (Reg.wardChdem m) (min dem 65535 + min lim 65535 * 65536)
  s4.publishBands s.bandState

/-! ### Applies (R52-R59) -/

/-- R59: the page header at the first register of an apply that reaches the page; SPLIT where R57 splits some register of
the page in that apply. -/
def State.notePage (s : State) (a : Applying) (frame : Nat) : State :=
  let page := offReg a.off / 4096
  if s.fld (pgApplied page) 15 0 = a.seq then s
  else
    let split := a.split || s.latch.applying.any fun b => b.seq = a.seq && offReg b.off / 4096 = page && b.split
    let s1 := s.setRn (pgApplied page)
      (a.seq + frame % 2 ^ 14 * 65536 + (if split then 2 ^ 30 else 0) + (if a.tie then 2 ^ 31 else 0))
    ((s1.setBit (pgStat page) 1).setBitIf split (pgStat page) 2).setBitIf a.tie (pgStat page) 3

/-- R153: the LUT bank that a live canvas leaves stays in use until its next composition start, or the one after where
the apply is split. -/
def State.leaveLut (s : State) (a : Applying) : State :=
  match pageKind (a.off / 4096) with
  | some (.cvc, n) =>
    let was := s.fld a.off 0 0
    if a.off = Reg.cvcLutSel n && was ≠ a.value.toNat % 2 && s.liveCv n then
      s.setCv n { (s.cv n) with lutBusy := (s.cv n).lutBusy ++ [(was, if a.split then 2 else 1)] }
    else s
  | _ => s

/-- R57, R87: a register of a layer that is a lane of another canvas's frame keeps its old value for that frame. -/
def State.keepForFrames (s : State) (cv n off : Nat) : State :=
  s.each ([0, 1, 2, 3].filter (· ≠ cv)) fun v s =>
    let c := s.cv v
    match c.comp with
    | some k =>
      if k.done || !k.lanes.any (·.layer = n) then s
      else s.setCv v { c with comp := some { k with slOld := k.slOld ++ k.bands.map fun b => ⟨b.tmb, off, 2 ^ 20, s.reg off⟩ } }
    | none => s

/-- R50: the active word of a register with the shadowed fields of a pending one. -/
def State.takenWord (s : State) (off : Nat) (v : Word) : Word :=
  match regAt off with
  | some (_, _, d, _) => mixShadow d (s.reg off) v
  | none => v

/-- R50: one register takes its new value and is no longer pending; fields that are not shadowed stay as they are. -/
def State.applyOne (s : State) (a : Applying) : State :=
  let s1 := s.notePage a (s.rn (Reg.cvFrameCnt a.cv))
  if a.off < 2 ^ 24 then
    let s0 := match pageKind (a.off / 4096) with
      | some (.lay, n) => s1.keepForFrames a.cv n a.off
      | some (.prt, n) => if a.off = Reg.prtShape n || a.off = Reg.prtMode n then s1.settleShape n else s1
      | _ => s1.leaveLut a
    let s2 := (s0.setReg a.off (s0.takenWord a.off a.value)).dropShadow a.off
    match pageKind (a.off / 4096) with
    | some (.lay, n) =>
      if a.off = Reg.layCtrl n && !s.bit a.off 0 && s2.bit a.off 0 then
        ((s2.setLay n {}).clrBit (Reg.layTapsUsed n) 31).clrBit (Reg.layStat n) 29
      else s2
    | _ => s2
  else if offReg a.off = Reg.keepSchedData then
    { (s1.withOff a.off a.value) with schedSh := mdrop s1.schedSh (a.off / 2 ^ 24 - 1) }
  else
    let t := (a.off / 2 ^ 24 - 1) / 2
    let s2 := (s1.settleTile t).withOff a.off a.value
    { s2.settleTile t with shaperSh := mdrop s2.shaperSh (a.off / 2 ^ 24 - 1) }

/-- R122, R154: bank selects applied now; one that meets another canvas's composition start is a tie. -/
def State.bankApplied (s : State) (l : List Applying) : State :=
  let isBank := fun (o : Nat) => o = Reg.toneBank || (List.range 8).any fun i => o = Reg.coefCtrl i
  (l.filter fun a => isBank a.off).foldl (fun s a =>
    let met := [0, 1, 2, 3].any fun v => v ≠ a.cv && (s.cv v).comp.any (·.start = s.now)
    ({ s with bankAt := (a.off / 4096, s.now) :: s.bankAt.filter fun (x : Nat × Nat) => x.2 = s.now }).setBitIf met (pgStat (a.off / 4096)) 3) s

/-- R165: SWEEP_EN applies. -/
def State.sweepSwitch (s old : State) : State :=
  let a := old.bit Reg.lampCtrl 27
  let b := s.bit Reg.lampCtrl 27
  if a = b then s
  else if b then { s.clrBit Reg.lampSweepPos 31 with lamp := { s.lamp with on := true, fresh := true, active := false, stopping := false } }
  else if s.lamp.active && (s.lamp.base + 8 * s.fld Reg.lampSweepPos 25 0) % 64 ≠ 0 then { s with lamp := { s.lamp with stopping := true } }
  else { (s.clrBit Reg.lampSweepPos 30).setBit Reg.lampSweepPos 31 with lamp := { s.lamp with on := false, active := false } }

/-- R211, R233: what follows on the chain ports where the registers of an apply event change leads, rates, ports or room in
queues. -/
def State.afterPorts (s : State) (offs : List Nat) : State :=
  let lead := offs.any fun o => match pageKind (offReg o / 4096) with
    | some (.cv, _) | some (.scn, _) => true
    | some (.prt, n) => o = Reg.prtMode n
    | _ => false
  let s1 := if lead then s.leadCheckAll else s
  s1.each ((List.range 64).filter fun p => (List.range 8).any fun q => offs.contains (Reg.prtLqCfg p q)) fun p s =>
    (s.drainWaiting p).decide p (s.now * 10) false

/-- R54, R165, R177, R241, R320, R324: what follows the registers of one apply event. -/
def State.afterApply (s old : State) (l : List Applying) : State :=
  let offs := l.map (·.off)
  let s1 := s.each (gatePorts offs) fun p s => s.armTakeover p
  let s2 := if offs.any fun o => offReg o = Reg.keepSchedData && 2 ^ 24 ≤ o then s1.replay else s1
  let s3 := if offs.contains Reg.keepBudget then s2.rebudget old true else s2
  let s4 := s3.each ([0, 1, 2, 3].filter fun cv => offs.contains (Reg.scnLeadLines cv)) fun cv s =>
    if s.liveCv cv then s.allocRing cv else s
  let gone := l.any fun a => !s4.latch.applying.any fun b => b.seq = a.seq
  let s5 := (((s4.setBitIf gone Reg.latchStat 0).bankApplied l).sweepSwitch old).afterPorts offs
  (s5.limitChanged old).setBitIf (l.any (·.tie)) Reg.latchStat 2

/-- R54: the place of a register in one event: by page and offset, indirect words in order behind their DATA register. -/
def applyKey (off : Nat) : Nat := offReg off * 2 ^ 16 + off / 2 ^ 24

/-- Insert a register into a list in R54 order, behind those of its place. -/
def insertApply (a : Applying) : List Applying → List Applying
  | [] => [a]
  | b :: r => if applyKey b.off ≤ applyKey a.off then b :: insertApply a r else a :: b :: r

/-- R54: the registers of one event in the order in which they apply, whichever commits they come from. -/
def applyOrder (l : List Applying) : List Applying := l.foldl (fun acc a => insertApply a acc) []

/-- R54: apply some registers as one event; they are no longer waiting. -/
def State.applyEvent (s : State) (l : List Applying) : State :=
  let s1 := (applyOrder l).foldl (fun s a => if a.begun then s else s.applyOne a) s
  let left := s1.latch.applying.filter fun b => !l.any fun a => a.seq = b.seq && a.off = b.off
  ({ s1 with latch := { s1.latch with applying := left } }).afterApply s l

/-- R56: the registers of a canvas that wait apply at once, because the canvas stops being live. -/
def State.applyStopped (s : State) (cv : Nat) : State := s.applyEvent (s.latch.applying.filter (·.cv = cv))

/-- The bands of a canvas as WARD.BANDn gives them. -/
def State.bandsOf (s : State) (cv : Nat) : List Band :=
  (List.range 9).filterMap fun t =>
    let w := s.rn (Reg.wardBand t)
    if w.testBit 31 && bitsOf w 29 28 = cv then some ⟨t, bitsOf w 13 0, bitsOf w 27 14⟩ else none

/-- R57, R58: where the Tumblers of a canvas take an SL register with Latch line `l`; `begun` gives per Tumbler the
first line of its band not yet begun (one it does not give is a free value, notes/assumptions/4), `atStart`: the fire is
at the canvas's composition start. -/
def State.decideSl (s : State) (cv l : Nat) (begun : List Nat) (atStart : Bool) : List (Nat × Nat) × Bool :=
  match (s.cv cv).comp with
  | none => ([], true)
  | some k =>
    if k.done then ([], true)
    else if s.bit (Reg.cvMode cv) 2 then
      if l < (s.cvSize cv).2 && (mfind k.begun l).isNone then ([(k.tmbOf true l, l)], false) else ([], true)
    else
      let here := k.bands.filterMap fun b =>
        let y := if atStart then b.first else begun.getD b.tmb
          (b.first + Config.freeValue (2 ^ 71 + 16 * s.free + b.tmb) % (b.last + 2 - b.first))
        let p := max l b.first
        if y ≤ p && p ≤ b.last then some (b.tmb, p) else none
      (here, here.length < k.bands.length)

/-- R57: at the first Tumbler that takes an SL register, every Tumbler that takes it later keeps the old value for the
lines above its own. -/
def State.keepOld (s : State) (a : Applying) (this : List (Nat × Nat)) : State :=
  let c := s.cv a.cv
  match c.comp with
  | none => s
  | some k =>
    let through := s.bit (Reg.cvMode a.cv) 2
    let l := k.bands.map fun b =>
      let upTo := if through then (this.head?.map (·.2)).getD (2 ^ 20)
        else match this.find? (·.1 = b.tmb) with
          | some x => x.2
          | none => 2 ^ 20
      (⟨b.tmb, a.off, upTo, s.reg a.off⟩ : SlOld)
    s.setCv a.cv { c with comp := some { k with slOld := k.slOld ++ l } }

/-- R57: a Tumbler reaches a line at which registers wait for it; those it was the last to take are done. -/
def State.crossLine (s : State) (cv tmb line : Nat) : State :=
  let hit := fun (a : Applying) => a.cv = cv && match a.at_ with
    | .lines t _ => t.contains (tmb, line)
    | _ => false
  let mine := applyOrder (s.latch.applying.filter hit)
  let s1 := (mine.filter (!·.begun)).foldl (fun s a =>
    let this := match a.at_ with | .lines t _ => t | _ => []
    (s.keepOld a this).applyOne a) s
  let next := s1.latch.applying.map fun a =>
    if hit a then match a.at_ with
      | .lines t n => { a with begun := true, at_ := .lines (t.filter (· ≠ (tmb, line))) n }
      | _ => a
    else a
  let full := fun (a : Applying) => a.begun && a.at_ = .lines [] false
  let s2 := { s1 with latch := { s1.latch with applying := next.filter (!full ·) } }
  s2.afterApply s (mine.filter (!·.begun) ++ (next.filter full).map fun a => { a with off := 0, tie := false })

/-- The lines that Tumblers of a canvas still have to cross in this frame. -/
def State.crossings (s : State) (cv : Nat) : List (Nat × Nat) :=
  s.latch.applying.flatMap fun a => if a.cv = cv then match a.at_ with | .lines t _ => t | _ => [] else []

/-- R54, R57: a Tumbler crosses its next Latch line. -/
def State.tumblerLine (s : State) (cv tmb : Nat) : State :=
  match (((s.crossings cv).filter (·.1 = tmb)).map (·.2)).min? with
  | none => s
  | some l => s.crossLine cv tmb l

def execTumblerLatchLine (dt : Nat) (cv : Fin 4) (tmb : Fin 9) (s : State) : Host.Outcome State Fault Refusal :=
  done ((s.tick dt).tumblerLine cv tmb)

/-- Every crossing left in the frame of a canvas, by line: the frame's composition has passed them. -/
def State.crossAll (s : State) (cv : Nat) : State := (s.crossings cv).foldl (fun s x => s.crossLine cv x.1 x.2) s

/-! ### Hinges as they fire (R79-R83) -/

/-- R82: the next hinge epoch. -/
def State.nextEpoch (s : State) (cv : Nat) : State :=
  let e := s.fld (Reg.cvEpoch cv) 15 0
  s.setRn (Reg.cvEpoch cv) (if e = 0xFFFF then 1 else e + 1)

/-- R217: the tiles of a canvas whose FORMAT or LATCH_MODE changes, or that have just been placed; all placed tiles where
the canvas comes from OFF.  Version 1 tiles have no such registers (R223). -/
def State.cfgTiles (s : State) (cv : Nat) (all : Bool) (moved : List Nat) : List Nat :=
  ((s.placedOn cv).filter fun x =>
    x.2.given && x.2.ver ≠ 1 && (all || s.formatFor cv ≠ x.2.format || s.latchModeFor cv x.2 ≠ x.2.latchMode || moved.contains x.1)).map (·.1)

/-- The tiles whose placement on a canvas is staged. -/
def State.stagedOn (s : State) (cv : Nat) : List Nat :=
  (s.tileList.filter fun x => x.2.staged.any fun p => p.cv = cv && p.placed).map (·.1)

/-- R205: send HOLD messages, to be sent a second time by HOLD_REPEAT. -/
def State.sendHolds (s : State) (cv : Nat) (l : List (Nat × Nat × List Byte)) : State :=
  let s1 := l.foldl (fun s x => s.send x.1 7 0x12 x.2.1 x.2.2) s
  let c := s1.cv cv
  s1.setCv cv { c with holds := c.holds ++ l.map fun x => (s.now + 2000, x.1, x.2.1, x.2.2) }

/-- R205, R220: a HOLD to single tiles, each on its head port with a copy on the loop partner. -/
def State.tileHolds (s : State) (l : List Nat) (body : List Byte) : List (Nat × Nat × List Byte) :=
  l.flatMap fun n => (s.withPartners [(s.tile n).port]).map fun p => (p, n, body)

/-- R80 step 2, R205: HOLD to the tiles of some ports, and to each tile due to receive CONFIG writes. -/
def State.hingeHold (s : State) (cv : Nat) (ports : List Nat) (cfg : List Nat) : State :=
  let f := s.rn (Reg.cvFrameCnt cv)
  let e := s.fld (Reg.cvEpoch cv) 15 0
  (s.sendHolds cv (ports.map (fun p => (p, 0xFFFF, holdBody f e false false)) ++ s.tileHolds cfg (holdBody f e false true))).setBit
    (Reg.cvStat cv) 8

/-- R80 step 6: the tiles of a canvas that the HOLD on some ports reaches wait to be released. -/
def State.holdTiles (s : State) (cv : Nat) (ports : List Nat) : State :=
  s.each ((s.placedOn cv).map (·.1)) fun n s =>
    if ports.contains (s.servePort (s.tile n)) then s.setTile n { (s.tile n) with released := false } else s

/-- R80 step 3, R83: a canvas that is not live goes to RECONFIG, its registers applied. -/
def State.hingeFromOff (s : State) (cv : Nat) (h : Hinge) : State :=
  let s1 := (s.placeStaged cv).nextEpoch cv
  let ports := s1.withPartners (s1.portsOf cv)
  let cfg := s1.cfgTiles cv true []
  let s2 := (s1.hingeHold cv ports cfg).holdTiles cv ports
  let dl := s2.now + s2.fld (Reg.cvHingeHold cv) 3 0 * s2.tmaxOf cv
  s2.setCv cv { (s2.cv cv) with
    gen := .reconfig, hinge := some { h with fromOff := true, lh := some s2.now, deadline := dl, cfg := cfg } }

/-- R79, R83: a mode hinge fires on a canvas. On a live canvas it waits for L_h, together with one that waits already.  On
one in RECONFIG it acts at once: with EN = 1 as a hinge from OFF, and one that leaves the canvas off ends the hinge under
way (notes/assumptions/30). -/
def State.hingeFire (s : State) (cv : Nat) (h : Hinge) : State :=
  let c := s.cv cv
  if c.live then
    match c.hinge, c.hingeNext with
    | some g, n =>
      if g.lh.isNone then s.setCv cv { c with hinge := some { g with start := g.start || h.start } }
      else s.setCv cv { c with hingeNext := some { h with start := h.start || n.any (·.start) } }
    | none, _ => s.setCv cv { c with hinge := some h }
  else if s.bit (Reg.cvMode cv) 0 && !s.cvShed cv then s.hingeFromOff cv h
  else if c.gen = .reconfig then
    (((s.placeStaged cv).setCv cv { c with gen := .off, hinge := none, hingeNext := none }).freeBanks cv)
  else s.placeStaged cv

/-! ### Refusal, fire -/

/-- R62: hardware clears the ARM bit of the trigger that armed a commit. -/
def State.disarm (s : State) (c : Commit) : State :=
  match c.trig with
  | .time n _ => s.clrBit (Reg.latchTtCtrl n) 31
  | .line n _ => s.clrBit (Reg.latchLt n) 31
  | _ => s

/-- R33, R40: a verdict is reported. -/
def State.report (s : State) (v : Verdict) (seq wall peer : Nat) : State :=
  ((s.setRn Reg.wardVerdict (v.code + v.kind * 16 + v.index % 256 * 256 + wall * 65536 + peer * 2 ^ 17 + 2 ^ 31)).setRn
    Reg.wardVseq seq).mboxVerdict seq v.code

/-- R33: what a refusal sets and counts. -/
def State.countRefusal (s : State) : State :=
  ((s.incr Reg.wardRefuseCnt).setBit Reg.wardStat 0).setBit Reg.latchStat 1

/-- R385: this device's VERDICT on a wall commit. -/
def State.sendVerdict (s : State) (wseq : Nat) (v : Verdict) : State :=
  let s1 := s.haspSend 0x05 (beBytes 2 wseq ++ beBytes 1 v.code ++ beBytes 1 v.kind ++ beBytes 1 v.index)
  { s1 with hasp := { s1.hasp with verdicts := s1.hasp.verdicts ++ [(wseq, s1.ringPos, v.code)] } }

/-- R34: the position of the first device whose refusal of a wall commit is known. -/
def State.firstRefuser (s : State) (w : Nat) : Option Nat :=
  (s.hasp.verdicts.find? fun x => x.1 = w && x.2.2 ≠ 0).map (·.2.1)

/-- R33, R34: the Ward refuses a commit; of a wall commit PEER names the first device that refused, this one where no
refusal has come before its own. -/
def State.refuse (s : State) (c : Commit) (v : Verdict) : State :=
  let peer := match c.wall with
    | some (w, _) => (s.firstRefuser w).getD s.ringPos
    | none => 0
  let s1 := ((s.report v c.seq 0 (peer % 16)).countRefusal).disarm c
  match c.wall with
  | some (w, _) => s1.sendVerdict w v
  | none => s1

/-- R32: the operating point and the set point in force pass for a candidate. -/
def State.pointPasses (s cand : State) : Bool :=
  let i := (s.runCount - 1) * 5 + s.runVolt
  (if s.runCount = 0 then cand.cvsIn.isEmpty else cand.pointMask.testBit i)
    && (cand.fspPass cand.dramDemand).testBit (s.fld Reg.memFspStat 1 0)

/-- R49: a register of class SL. -/
def offIsSl (off : Nat) : Bool :=
  off < 2 ^ 24 && (match regAt off with | some (_, _, d, _) => classOf d = .sl | none => false)

/-- R52, R57, R80 step 3: where and when a register of a firing commit applies. -/
def State.entryFor (s : State) (c : Commit) (begun : List Nat) (hinged : List Nat) (atStart : Option Nat) (off : Nat) : Applying :=
  let own := s.pageCv off
  let live := hinged.filter s.liveCv
  let cv := if hinged.contains own then own else (live.head?).getD own
  let tie := atStart.isNone && s.liveCv cv && (s.cv cv).comp.any (·.start = s.now)
  let e : Applying := ⟨c.seq, c.groups, off, cv, s.pendValue off, .start, s.now, tie, false, 0, false⟩
  if live.contains cv then { e with at_ := .hinge, tie := false }
  else if offIsSl off then
    let l := s.fld (Reg.latchGcfg (s.groupOf (offReg off / 4096))) 15 2
    let (this, next) := s.decideSl cv l begun (atStart = some cv)
    { e with at_ := if this.isEmpty then .start else .lines this next, split := this ≠ [] && next }
  else e

/-- R79, R38: the canvases that a firing commit runs a mode hinge on. -/
def State.hingesAt (s cand : State) (c : Commit) (offs : List Nat) : List Nat :=
  match c.trig with
  | .hinge cv => [cv]
  | _ =>
    let h := hingesOf s.standing cand offs
    [0, 1, 2, 3].filter fun cv => h.contains cv || (offs.contains (Reg.cvMode cv) && s.cvShed cv && cand.bit (Reg.cvMode cv) 0)

/-- R52-R54, R76, R79, R83: a commit fires. `atStart`: at the composition start of that canvas. -/
def State.fireCommit (s : State) (c : Commit) (begun : List Nat) (atStart : Option Nat) : State :=
  let offs := s.pendOffs c.groups
  let cand := s.extend s.standing { c with trig := .fire }
  let hinged := s.hingesAt cand c offs
  let restored := s.unshedBy offs
  let back := ((List.range 64).any fun n => s.layShed n && !restored.layShed n && cand.layEn n) ||
    [0, 1, 2, 3].any fun n => s.cvShed n && !restored.cvShed n && cand.bit (Reg.cvMode n) 0
  let s0 := ((restored.setBitIf back Reg.wardStat 2).setBitIf c.late Reg.wardStat 3).disarm c
  let s1 := { s0 with latch := { s0.latch with accepted := s0.latch.accepted.filter (·.seq ≠ c.seq) } }
  let es := offs.map (s1.entryFor c begun hinged atStart)
  let now_ := es.filter fun e => !s1.liveCv e.cv || (atStart = some e.cv && e.at_ = .start && !offIsSl e.off)
  let later := es.filter fun e => !now_.any (·.off = e.off)
  let s2 := { s1 with latch := { s1.latch with applying := s1.latch.applying ++ later ++ now_ } }
  let s3 := if now_.isEmpty then s2 else s2.applyEvent now_
  let s4 := s3.each hinged fun cv s =>
    s.hingeFire cv { seq := c.seq, groups := c.groups, fromOff := false, toOff := !(cand.bit (Reg.cvMode cv) 0), fired := s.now, placements := true, start := c.trig = .hinge cv }
  let s5 := (if begun.isEmpty && atStart.isNone then s4.drawn else s4).publish
  match atStart with
  | none => s5
  | some cv => match (s5.cv cv).comp with
    | none => s5
    | some k => k.bands.foldl (fun s b => if (s.crossings cv).contains (b.tmb, b.first) then s.crossLine cv b.tmb b.first else s) s5

/-- R385: the groups whose fires become Hasp-shared commits. -/
def State.wallGroups (s : State) : Nat :=
  (List.range 16).foldl (fun m g => if s.bit (Reg.latchGcfg g) 16 then m + 2 ^ g else m) 0

/-- R385: a fire of a WALL group becomes a Hasp-shared commit: COMMIT and the device's own VERDICT are sent. -/
def State.shareCommit (s : State) (c : Commit) : State :=
  let w := s.hasp.wseq + 1
  let t := s.now + s.fld (Reg.haspCtrl 0) 15 8 * 50000
  let c2 := { c with trig := .hasp t, due := false, wall := some (w % 65536, s.ringPos) }
  let s1 := { (s.disarm c) with
    hasp := { s.hasp with wseq := w % 65536 }
    latch := { s.latch with accepted := s.latch.accepted.map fun (x : Commit) => if x.seq = c.seq then c2 else x } }
  (s1.haspSend 0x04 (beBytes 2 (w % 65536) ++ beBytes 2 c.groups ++ beBytes 8 t)).sendVerdict (w % 65536) ⟨0, 0, 0⟩

/-- R32, R53: the trigger of a commit has occurred; `start`: the canvas that starts composition now. -/
def State.trigDue (s : State) (c : Commit) (start : Option Nat) : Bool :=
  match c.trig with
  | .fire | .hinge _ => true
  | .time _ t => c.due || Decidable.decide (t ≤ s.now)
  | .line _ cv => start = some cv || !s.liveCv cv
  | .hasp _ => c.due

/-- R32: fire an accepted commit whose trigger has occurred, unless the point or the set point in force does not pass
for its candidate: it then waits. A time that was past at arming fires at once, which TRIG_PAST shows (R53). -/
def State.tryFire (s : State) (c : Commit) (begun : List Nat) (start : Option Nat) : State :=
  if !s.trigDue c start then s
  else
    let before := s.latch.accepted.takeWhile (·.seq ≠ c.seq)
    let st := s.standing
    let base := ((s.candidates st before).getLast?).getD st
    if !s.pointPasses (s.extend base c) then
      { s with latch := { s.latch with accepted := s.latch.accepted.map fun (x : Commit) => if x.seq = c.seq then { x with late := true } else x } }
    else
      let s1 := s.setBitIf c.past Reg.latchStat 3
      if (c.groups &&& s.wallGroups) ≠ 0 && c.wall.isNone then s1.shareCommit c
      else
        let idle := match c.trig with | .line _ cv => !s.liveCv cv | _ => false
        (s1.setBitIf idle Reg.latchStat 6).fireCommit c begun start

/-- R32, R53: every accepted commit that can fire does, in arming order. -/
def State.pumpFires (s : State) (begun : List Nat) (start : Option Nat) : State :=
  (s.latch.accepted.map (·.seq)).foldl (fun s q => match s.latch.accepted.find? (·.seq = q) with
    | some c => s.tryFire c begun start
    | none => s) s

/-- R31: the first armed commit goes under evaluation when the Ward is free. -/
def State.startEval (s : State) : State :=
  match s.latch.armed with
  | [] => s
  | c :: r =>
    if s.latch.evalFrom.isSome || s.ward.readmit.isSome then s
    else { s with latch := { s.latch with armed := { c with begun := true } :: r, evalFrom := some s.now } }

/-- R53: the next Latch sequence number. -/
def State.nextSeq (s : State) : Nat := s.fld Reg.latchSeq 15 0 % 65535 + 1

/-- The groups of armed and held commits. -/
def State.busyMask (s : State) : Nat := s.latch.armed.foldl (fun m c => m ||| c.groups) s.heldMask

/-- R30, R31, R53: arm some groups. A held group refuses with LOCKED; a commit without a pending register, or on pages
the Ward does not model, needs no evaluation. -/
def State.arm (s : State) (groups : Nat) (trig : Trigger) (wall : Option (Nat × Nat)) (begun : List Nat) : State :=
  let seq := s.nextSeq
  let s1 := s.setFld Reg.latchSeq 15 0 seq
  let n := match trig with | .line _ cv => s.rn (Reg.cvFrameCnt cv) | _ => 0
  let past := match trig with | .time _ t => Decidable.decide (t < s.now) | _ => false
  let c : Commit := { seq := seq, groups := groups, trig := trig, due := past, wall := wall, starts := n, armedAt := s.now, past := past }
  if (groups &&& s.busyMask) ≠ 0 then (s1.refuse c ⟨9, 0, 0⟩).setBit Reg.latchStat 4
  else
    if s1.needsEval c then ({ s1 with latch := { s1.latch with armed := s1.latch.armed ++ [c] } }).startEval
    else if (s1.pendOffs groups).isEmpty && wall.isNone then
      ({ s1 with latch := { s1.latch with accepted := s1.latch.accepted ++ [c] } }).pumpFires begun none
    else
      let v := s1.judge s1.latch.accepted c
      if v.code = 0 then
        let s3 := { (s1.report v seq 0 0) with latch := { s1.latch with accepted := s1.latch.accepted ++ [{ c with begun := true }] } }
        let s4 := match wall with | some (w, _) => s3.sendVerdict w v | none => s3
        s4.publish.pumpFires begun none
      else s1.refuse c v

/-- R53: a write of a group mask to LATCH.FIRE; a mask of 0 arms nothing. -/
def State.fireWrite (s : State) (v : Word) (begun : List Nat) : State :=
  let m := v.toNat % 65536
  if m = 0 then s else s.arm m .fire none begun

def execFire (dt : Nat) (_req : Nat) (v : Word) (begun : List Nat) (s : State) : Host.Outcome State Fault Refusal :=
  done ((s.tick dt).fireWrite v begun)

/-- R62: a write to a trigger register is refused while its ARM reads 1 or a group of its mask, as stored or as written, is held
(notes/assumptions/135). -/
def State.trigBlocked (s : State) (ctrl : Nat) (mask : Nat) : Bool :=
  s.bit ctrl 31 || ((s.fld ctrl 15 0 ||| mask) &&& s.heldMask) ≠ 0

/-- R53, R62: a write to LATCH.TTt_CTRL; ARM = 1 arms the masked groups for the wall time of TTt. -/
def State.writeTtCtrl (s : State) (t : Nat) (v : Word) : State :=
  let o := Reg.latchTtCtrl t
  let m := v.toNat % 65536
  if s.trigBlocked o m then s.violate o 2
  else
    let s1 := s.setRn o (m + if v.getLsbD 31 then 2 ^ 31 else 0)
    if v.getLsbD 31 then s1.arm m (.time t (s1.rn64 (Reg.latchTtLo t))) none [] else s1

def execTimeTriggerArm (dt : Nat) (_req : Nat) (t : Fin 4) (v : Word) (s : State) : Host.Outcome State Fault Refusal :=
  done ((s.tick dt).writeTtCtrl t v)

/-- R53, R62: a write to LATCH.LTt; ARM = 1 arms the masked groups for the next composition start of CV. -/
def State.writeLt (s : State) (t : Nat) (v : Word) : State :=
  let o := Reg.latchLt t
  let m := v.toNat % 65536
  if s.trigBlocked o m then s.violate o 2
  else
    let s1 := s.setRn o (m + bitsOf v.toNat 17 16 * 65536 + if v.getLsbD 31 then 2 ^ 31 else 0)
    if v.getLsbD 31 then s1.arm m (.line t (bitsOf v.toNat 17 16)) none [] else s1

def execLineTriggerArm (dt : Nat) (_req : Nat) (t : Fin 4) (v : Word) (s : State) : Host.Outcome State Fault Refusal :=
  done ((s.tick dt).writeLt t v)

/-- R33: the Ward ends the evaluation of the first armed commit. -/
def State.wardVerdict (s : State) (begun : List Nat) : State :=
  match s.latch.armed, s.latch.evalFrom with
  | c :: r, some t0 =>
    let s1 := { (s.setRn Reg.wardEvalNs (s.now - t0)) with latch := { s.latch with armed := r, evalFrom := none } }
    let v := s1.judge s1.latch.accepted c
    let s2 :=
      if v.code = 0 then
        let missed := match c.trig with
          | .time _ _ => c.due
          | .line _ cv => s.liveCv cv && c.starts ≠ s.rn (Reg.cvFrameCnt cv)
          | _ => false
        let s3 := { (s1.report v c.seq 0 0) with
          latch := { s1.latch with accepted := s1.latch.accepted ++ [{ c with late := missed }] } }
        let s4 := match c.wall with | some (w, _) => s3.sendVerdict w v | none => s3
        (s4.setBitIf missed Reg.wardStat 3).publish.pumpFires begun none
      else s1.refuse c v
    s2.startEval
  | _, _ => s

def execWardVerdict (dt : Nat) (begun : List Nat) (s : State) : Host.Outcome State Fault Refusal :=
  done ((s.tick dt).wardVerdict begun)

/-- R32, R53: wall time reaches TTt: an accepted commit of the trigger fires; one still to be evaluated is late. -/
def State.timeTrigger (s : State) (t : Nat) (begun : List Nat) : State :=
  let mine := fun (c : Commit) => match c.trig with | .time n at_ => n = t && Decidable.decide (at_ ≤ s.now) | _ => false
  let s1 := { s with latch := { s.latch with armed := s.latch.armed.map fun c => if mine c then { c with due := true } else c } }
  match s1.latch.accepted.find? mine with
  | some c => s1.tryFire c begun none
  | none => s1

def execTimeTriggerFire (dt : Nat) (t : Fin 4) (begun : List Nat) (s : State) : Host.Outcome State Fault Refusal :=
  done ((s.tick dt).timeTrigger t begun)

/-- R79: a hinge of the canvas's own is being evaluated or waits for its L_h. -/
def State.hingeBusy (s : State) (cv : Nat) : Bool :=
  (s.latch.armed ++ s.latch.accepted).any (·.trig = .hinge cv) ||
    (s.cv cv).hinge.any (fun h => h.lh.isNone && h.start) || (s.cv cv).hingeNext.any (·.start)

/-- R79: a write of 1 to CVn.HINGE.START arms a hinge of its own, unless one of the canvas is being evaluated or
waits for its L_h. -/
def State.hingeStart (s : State) (cv : Nat) (v : Word) : State :=
  if !v.getLsbD 0 then s
  else if s.hingeBusy cv then s.violate (Reg.cvHinge cv) 2
  else s.arm 0 (.hinge cv) none []

def execHingeStart (dt : Nat) (_req : Nat) (cv : Fin 4) (v : Word) (s : State) : Host.Outcome State Fault Refusal :=
  done ((s.tick dt).hingeStart cv v)

/-- R53, R56: a canvas has stopped being live: its waiting registers apply, and line triggers that wait on it fire. -/
def State.canvasStopped (s : State) (cv : Nat) : State := (s.applyStopped cv).pumpFires [] none

end Sys2Proof.Machine
end

