-- ==== Sys2Proof/Machine/Readmit.lean ====
section
/-! DEFINITION. Re-admission, shedding and restoration (R36-R38), and the writes of WARD.CEIL, RETX and MARGIN (R40). -/
namespace Sys2Proof.Machine

/-- Land a write to a register by its field map alone; whether it landed. -/
def State.landAt (s : State) (off : Nat) (v : Word) : State × Bool :=
  match regAt off with
  | some (_, _, d, _) => s.land off d v fun _ _ => false
  | none => (s, false)

/-- R40: a write to CEIL, RETX or MARGIN that is not refused starts a re-admission. -/
def State.writeReadmit (s : State) (off : Nat) (v : Word) : State :=
  let (t, ok) := s.landAt off v
  if ok then t.readmitEvent else t

def execCeilWrite (dt : Nat) (_req : Nat) (v : Word) (s : State) : Host.Outcome State Fault Refusal :=
  done ((s.tick dt).writeReadmit Reg.wardCeil v)

def execRetxWrite (dt : Nat) (_req : Nat) (v : Word) (s : State) : Host.Outcome State Fault Refusal :=
  done ((s.tick dt).writeReadmit Reg.wardRetx v)

def execMarginWrite (dt : Nat) (_req : Nat) (v : Word) (s : State) : Host.Outcome State Fault Refusal :=
  done ((s.tick dt).writeReadmit Reg.wardMargin v)

/-! ### Frames outside the promise, and compositions that end without a result -/

/-- R13: capacity is lost that no spare replaces: the frames that compose now, and those that start until the re-admission has
ended, are outside the promise. -/
def State.capacityLost (s : State) : State :=
  let s1 := { s with ward := { s.ward with gap := true } }
  s1.each ([0, 1, 2, 3].filter s.liveCv) fun cv s => match (s.cv cv).comp with
    | some k => if k.done then s else s.countDegraded cv k.frame
    | none => s

/-- R84, R110: no layer of a frame composes any more. -/
def State.endActive (s : State) (k : Comp) : State := s.each (k.lanes.map (·.layer)) fun n s => s.clrBit (Reg.layStat n) 30

/-- The composition of a canvas ends without a result; what it took at its start stays taken until the next (R102, R122). -/
def State.dropComp (s : State) (cv : Nat) : State :=
  match (s.cv cv).comp with
  | none => s
  | some k => if k.done then s else (s.endActive k).setCv cv { (s.cv cv) with comp := some { k with done := true, dropped := true } }

/-! ### Shedding -/

/-- R36: one object is shed and reported as code 10. -/
def State.reportShed (s : State) (kind n : Nat) : State :=
  ((s.setRn Reg.wardVerdict (10 + kind * 16 + n * 256 + 2 ^ 31)).setBit Reg.wardStat 1).incr Reg.wardShedCnt

/-- R36 step 3: the layer to shed next: lowest priority, highest number. -/
def State.nextLayer (s : State) : Option Nat :=
  (s.standing.laysIn.foldl (fun (b : Option LayW) l => match b with
    | none => some l
    | some m => if l.prio ≤ m.prio then some l else some m) none).map (·.n)

/-- R36: shed a layer. -/
def State.shedLayer (s : State) (n : Nat) : State :=
  (if n < 32 then s.setBit Reg.wardShedLo n else s.setBit Reg.wardShedHi (n - 32)).reportShed 2 n

/-- R36, R83: shed a canvas: it leaves through the path of EN = 0. -/
def State.shedCanvas (s : State) (cv : Nat) : State :=
  let s1 := ((s.setBit Reg.wardShedCv cv).setBit Reg.wardStat 6).reportShed 1 cv
  if s1.liveCv cv then s1.hingeFire cv { seq := 0, groups := 0, fromOff := false, toOff := true, fired := s1.now }
  else (s1.setCv cv { (s1.cv cv) with gen := .off, hinge := none }).freeBanks cv

/-- R299, R36 step 4: release the reservation of the highest channel. -/
def State.dropReservation (s : State) : State :=
  match (s.rsv.map (·.1)).max? with
  | none => s
  | some ch => (({ s with rsv := s.rsv.filter (·.1 ≠ ch) }.clrBit (Reg.dmaCtrl ch) 2).setBit (Reg.dmaStat ch) 11).setBit Reg.dmagStat 2

/-- R36: the verdict on the standing configuration. -/
def State.judgeStanding (s : State) : Verdict := s.standing.evaluate none (fun _ => 0) (gatePorts (s.latch.applying.map (·.off))).contains

/-- R36 steps 2 to 4: shed until the standing configuration passes, or until nothing is left to shed. -/
def State.shedLoop (s : State) : Nat → State × Bool
  | 0 => (s, false)
  | fuel + 1 =>
    if s.judgeStanding.code = 0 then (s, true)
    else match s.nextLayer with
      | some n => (s.shedLayer n).shedLoop fuel
      | none => match s.standing.cvsIn.getLast? with
        | some cv => (s.shedCanvas cv).shedLoop fuel
        | none => if s.rsv.isEmpty then (s, false) else s.dropReservation.shedLoop fuel

/-- R36 step 4: the Ward stops at its floor. -/
def State.atFloor (s : State) : State :=
  let st := s.standing
  let s1 := (s.setRn Reg.wardVerdict (5 + 5 * 16 + 2 ^ 31)).setBit Reg.wardStat 8
  s1.setRn Reg.wardPdemand (st.demand [] st.dramDemand)

/-- R36 step 5: each accepted commit is evaluated again, in arming order, by the terms of its arming (the seal of R35
among them, notes/assumptions/124). -/
def State.rejudge (s : State) : List Commit → List Commit → State
  | _, [] => s
  | kept, c :: r =>
    let v := s.judge kept c
    if v.code = 0 then s.rejudge (kept ++ [c]) r
    else
      let s1 := { s with latch := { s.latch with accepted := s.latch.accepted.filter (·.seq ≠ c.seq) } }
      (s1.refuse c v).rejudge kept r

/-- Some object is shed. -/
def State.anyShed (s : State) : Bool := s.rn Reg.wardShedLo ≠ 0 || s.rn Reg.wardShedHi ≠ 0 || s.fld Reg.wardShedCv 3 0 ≠ 0

/-- R36: the re-admission ends. -/
def State.readmission (s : State) (begun : List Nat) : State :=
  match s.ward.readmit with
  | none => s
  | some _ =>
    let s0 := { s with ward := { s.ward with readmit := none, gap := false } }.setBit Reg.wardStat 5
    let (s1, ok) := s0.shedLoop 140
    let s2 := if ok then s1 else s1.atFloor
    let s4 := ((s2.rejudge [] s2.latch.accepted).publish).allowUntil ([0, 1, 2, 3].filter s2.liveCv)
    let s5 := if ok && s4.anyShed && s4.bit Reg.wardCtrl 1 then { s4 with ward := { s4.ward with round := some [] } } else s4
    (s5.startEval).pumpFires begun none

def execReadmissionVerdict (dt : Nat) (begun : List Nat) (s : State) : Host.Outcome State Fault Refusal :=
  done ((s.tick dt).readmission begun)

/-- R38 step 1: the shed objects in the order of restoration: canvases, then layers (4 and up). -/
def State.restoreOrder (s : State) : List Nat :=
  let lays := (List.range 64).filter s.layShed
  let byPrio := (List.range 256).reverse.flatMap fun p => lays.filter fun n => s.fld (Reg.layPriority n) 7 0 = p
  [0, 1, 2, 3].filter s.cvShed ++ byPrio.map (· + 4)

/-- R38 step 3: the pace of restoration. -/
def State.restorePace (s : State) : Nat :=
  let live := [0, 1, 2, 3].filter s.liveCv
  let cvs := if live.isEmpty then [0, 1, 2, 3].filter s.cvShed else live
  ((cvs.map fun cv => s.fld (Reg.cvTmin cv) 25 0).min?).getD 0

/-- R38: an object restored. -/
def State.restore (s : State) (x : Nat) : State :=
  if x < 4 then
    let s1 := s.unshedCv x
    match (s1.cv x).hinge with
    | some h => if h.seq = 0 && h.lh.isNone then s1.setCv x { (s1.cv x) with hinge := none } else s1
    | none => s1.hingeFire x { seq := 0, groups := 0, fromOff := false, toOff := false, fired := s1.now }
  else s.unshedLay (x - 4)

/-- R38 step 2: the first object not yet tried that passes is restored. -/
def State.restoreOne (s : State) : List Nat → List Nat → State
  | _, [] => { s with ward := { s.ward with round := none } }
  | tried, x :: r =>
    let t := if x < 4 then s.unshedCv x else s.unshedLay (x - 4)
    if (t.standing.evaluate none (fun _ => 0) (fun _ => false)).code = 0 then
      let s1 := (s.restore x).setBit Reg.wardStat 2
      { s1 with ward := { s1.ward with round := if r.isEmpty then none else some (tried ++ [x]), restored := s1.now } }.publish
    else s.restoreOne (tried ++ [x]) r

/-- R38: the Ward tries to restore what it shed. -/
def State.restoration (s : State) : State :=
  match s.ward.round with
  | none => s
  | some tried =>
    if !s.bit Reg.wardCtrl 1 || s.ward.readmit.isSome || s.now < s.ward.restored + s.restorePace then s
    else s.restoreOne tried (s.restoreOrder.filter (!tried.contains ·))

def execRestoration (dt : Nat) (s : State) : Host.Outcome State Fault Refusal := done (s.tick dt).restoration

end Sys2Proof.Machine
end

