-- ==== Sys2Proof/Machine/Faults.lean ====
section
/-! DEFINITION. The fault manager: events, retirements, spares and losses (R327-R338), and the lifetime record
(R340-R343). -/
namespace Sys2Proof.Machine

/-- A resource as one number. -/
def resKey (cls inst : Nat) : Nat := cls * 128 + inst

/-- R332: instances, default budgets and leak periods by class. -/
def resInstances (cls : Nat) : Nat := [9, 64, 128, 37, 8, 64, 64].getD cls 0
def State.resBudget (s : State) (cls : Nat) : Nat := mget s.faults.budgets cls ([3, 256, 16, 8, 4, 4, 64].getD cls 0)
def State.resLeak (s : State) (cls : Nat) : Nat := mget s.faults.leaks cls ([86400, 60, 3600, 600, 86400, 3600, 10].getD cls 0)

def State.resCount (s : State) (k : Nat) : Nat := mget s.faults.counts k 0
def State.isRetired (s : State) (k : Nat) : Bool := s.faults.retired.contains k
def State.isLost (s : State) (k : Nat) : Bool := s.faults.lost.contains k

/-- The retired resource that a spare serves, and the spare that serves a retired one. -/
def State.servedBy (s : State) (k : Nat) : Option Nat := (s.faults.serving.find? (·.2 = k)).map (·.1)
def State.spareOf (s : State) (k : Nat) : Option Nat := (s.faults.serving.find? (·.1 = k)).map (·.2)

/-- R333: the phase group of a phase and its spare. -/
def phaseSpare (p : Nat) : Nat := if p ≤ 16 then 16 else if p ≤ 26 then 26 else if p ≤ 31 then 31 else 36

/-- R302: the withheld DMA channels, DMA55 downward. -/
def State.withheld (s : State) : List Nat := (List.range (s.fld Reg.dmagCtrl 3 0)).map fun k => 55 - k

/-- R332: the spares that a resource of a class could take, first choice first; a vault section and a chain port are
treated apart. -/
def State.sparesFor (s : State) (cls inst : Nat) : List Nat :=
  match cls with
  | 0 => [8]
  | 1 => if s.bit (Reg.mcSpare (inst / 8)) 3 then [inst / 8 * 8 + s.fld (Reg.mcSpare (inst / 8)) 2 0] else []
  | 3 => [phaseSpare inst]
  | 4 => [inst + 1 - 2 * (inst % 2)]
  | 5 => s.withheld
  | _ => []

/-- The instance is a spare of its class, serving or not (R345). -/
def State.isSpare (s : State) (cls inst : Nat) : Bool :=
  match cls with
  | 0 => inst = 8
  | 1 => s.bit (Reg.mcSpare (inst / 8)) 3 && s.fld (Reg.mcSpare (inst / 8)) 2 0 = inst % 8
  | 3 => phaseSpare inst = inst
  | 4 => inst / 2 < 4 && s.fld (Reg.pllCtrl (inst / 2)) 8 8 ≠ inst % 2
  | 5 => s.withheld.contains inst
  | 6 => (s.headOf inst).isSome
  | _ => false

/-- R327: the first spare that is neither retired nor serving. -/
def State.freeSpare (s : State) (cls inst : Nat) : Option Nat :=
  (s.sparesFor cls inst).find? fun i => i ≠ inst && !s.isRetired (resKey cls i) && (s.servedBy (resKey cls i)).isNone

/-- R341: a write of the lifetime record is wanted within 1 s. -/
def State.ltWanted (s : State) : State :=
  if s.bit Reg.faultCtrl 11 && s.faults.ltFrom.isNone then { s with faults := { s.faults with ltFrom := some s.now } } else s

/-- R330: a class has a resource left with no spare. -/
def State.spareLow (s : State) (cls : Nat) : State :=
  let s1 := s.flagFault 4
  if s.faults.exhausted.contains cls then s1
  else { s1 with faults := { s1.faults with exhausted := s1.faults.exhausted ++ [cls] } }

/-! ### What a class does -/

/-- R335: the tiles that a head port gives to its partner. -/
def State.handChain (s : State) (h q : Nat) : State :=
  let mine := (s.tileList.filter fun x => x.2.given && x.2.port = h).map (·.1)
  let s1 := (s.takeBack h).each mine fun n s => s.setTileHw n { (s.tile n) with serve := true }
  let ph := s1.prt h
  let cut := match ph.wire with
    | some w => ph.setQueue w.queue (⟨w.frame, s.now⟩ :: ph.queue w.queue)
    | none => ph
  s1.setPrt h { cut with switchAt := some ((s.prt q).nextCycle s.now), up := false, wire := none }

/-- R334, R353: a PLL switches to its second core and relocks by a full search; stored band results go. -/
def State.swapCore (s : State) (n : Nat) : State :=
  let s1 := s.setFld (Reg.pllCtrl n) 8 8 (1 - s.fld (Reg.pllCtrl n) 8 8)
  let s2 := (((s1.setBit (Reg.pllStat n) 3).clrBit (Reg.pllStat n) 30).clrBit (Reg.pllStat n) 28).setBit (Reg.pllStat n) 29
  let s3 := s2.outputsLow n
  s3.setPll n { (s3.pll n) with band := [], locking := some s3.now, search := true }

/-- R334: what stops when a PLL is lost. -/
def State.pllStops (s : State) (n : Nat) : State :=
  let s1 := ((s.clrBit (Reg.pllStat n) 28).clrBit (Reg.pllStat n) 29).setPll n { (s.pll n) with locking := none, lossAt := none }
  match n with
  | 0 => s1.setBit Reg.timeStat 29
  | 2 => s1.each (List.range 64) fun p s => s.setPrt p { (s.prt p) with up := false, wire := none }
  | 3 =>
    let s2 := { s1 with hasp := { s1.hasp with ports := s1.hasp.ports.map fun (x : Nat × HaspPort) => (x.1, { x.2 with up := false }) } }
    s2.each [0, 1] fun m s => s.clrBit (Reg.medLink m) 0
  | _ => s1

/-- R182, R275, R302, R333-R336: a spare is engaged for a retired resource. -/
def State.engage (s : State) (cls inst sp : Nat) : State :=
  let c := inst / 8
  match cls with
  | 0 => (({ s with faults := { s.faults with taking := some inst } }).clrBit (Reg.tmbStat 8) 4).takeBand none
  | 1 => s.setRn (Reg.mcMigrStat c) (inst % 8 + sp % 8 * 8 + 64 + s.fld (Reg.mcMigrStat c) 8 8 * 256)
  | 2 => { s with vault := { s.vault with used := s.vault.used ++ [inst], copying := s.vault.copying ++ [inst] } }.setBit Reg.vaultStat 2
  | 3 => { s with faults := { s.faults with phases := s.faults.phases ++ [sp] } }
  | 4 => s.swapCore (inst / 2)
  | 5 =>
    let w := s.rn Reg.dmagSpareMap
    (s.setRn Reg.dmagSpareMap ((w % 256 ||| 2 ^ (55 - sp)) + (bitsOf w 15 8 - 1) * 256 + inst * 65536 + 2 ^ 31)).setBit Reg.dmagStat 3
  | 6 => s.handChain inst sp
  | _ => s

/-- R183, R276, R333-R338: what a loss stops, and the Ward input that changes. -/
def State.stopLost (s : State) (cls inst : Nat) : State :=
  match cls with
  | 0 => s.setRn Reg.wardTmbAvail (s.fld Reg.wardTmbAvail 3 0 - 1)
  | 1 => s.setBit (Reg.mcMigrStat (inst / 8)) 8
  | 2 =>
    let s1 := { s with vault := { s.vault with lost := s.vault.lost ++ [inst] } }.setBit Reg.vaultStat 3
    if inst = 7 then s1.moveTails else s1
  | 3 => s.setPbudget
  | 4 => s.pllStops (inst / 2)
  | 6 => s.setPrt inst { (s.prt inst) with lost := true, up := false, wire := none }
  | _ => s

/-- R327 step 4, R338: a resource is lost. -/
def State.lose (s : State) (cls inst detail : Nat) : State :=
  let k := resKey cls inst
  let s1 := { s with faults := { s.faults with
    lost := s.faults.lost ++ [k]
    exhausted := if s.faults.exhausted.contains cls then s.faults.exhausted else s.faults.exhausted ++ [cls]
    taking := if k = 8 then none else s.faults.taking } }
  let s2 := ((s1.stopLost cls inst).flagFault 3).journal cls inst 3 (s.resCount k) detail
  let s3 := if cls = 5 then s2 else s2.capacityLost
  s3.readmitEvent.ltWanted

/-- R327 step 4: a spare comes in for a resource. -/
def State.bringIn (s : State) (cls inst sp detail : Nat) : State :=
  let k := resKey cls inst
  let s1 := if cls = 2 then s else { s with faults := { s.faults with serving := s.faults.serving ++ [(k, resKey cls sp)] } }
  let s2 := ((s1.engage cls inst sp).flagFault 2).journal cls sp 2 (s.resCount k) detail
  let s3 := if cls = 5 && (s2.freeSpare 5 64).isSome then s2 else s2.spareLow cls
  s3.ltWanted

/-- R191, R335: a looped head port has a partner that can take its chain. -/
def State.portPartner (s : State) (p : Nat) : Option Nat :=
  match s.partner p with
  | some q => if s.isRetired (resKey 6 q) then none else some q
  | none => none

/-- R330: the resource serves a retired one. -/
def State.isServing (s : State) (cls inst : Nat) : Bool :=
  (s.servedBy (resKey cls inst)).isSome ||
    (cls = 6 && match s.headOf inst with
      | some h => s.tileList.any fun x => x.2.serve && x.2.port = h
      | none => false)

/-- R327 steps 3 and 4, R329, R330: a resource is retired. -/
def State.retire (s : State) (cls inst detail : Nat) : State :=
  let k := resKey cls inst
  let serving := s.isServing cls inst
  let idle := s.isSpare cls inst && !serving
  let s1 := { s with faults := { s.faults with retired := s.faults.retired ++ [k] } }
  let s2 := ((s1.flagFault 1).journal cls inst 1 (s.resCount k) detail).ltWanted
  let s3 := match cls with
    | 0 => s2.setBit (Reg.tmbStat inst) 5
    | 1 => s2.setBit (Reg.mcStat (inst / 8)) 2
    | _ => s2
  if serving then s3.lose cls inst detail
  else if idle && cls ≠ 6 then
    let s4 := s3.spareLow cls
    match cls with
    | 0 => (s4.clrBit (Reg.tmbStat 8) 2).clrBit (Reg.tmbStat 8) 4
    | 4 => s4.clrBit (Reg.pllStat (inst / 2)) 30
    | _ => s4
  else
    match (if cls = 2 then some inst else if cls = 6 then s.portPartner inst else s3.freeSpare cls inst) with
    | some sp => s3.bringIn cls inst sp detail
    | none => if cls = 6 && idle then s3.spareLow 6 else s3.lose cls inst detail

/-- R327, R328: an error event of a resource; `crossing`: it crosses the budget on its own. -/
def State.faultEvent (s : State) (cls inst : Nat) (crossing : Bool) (detail : Nat) : State :=
  if resInstances cls ≤ inst then s
  else
    let k := resKey cls inst
    let b := s.resBudget cls
    let old := s.resCount k
    let new := min 65535 (if crossing then max old (b + 1) else old + 1)
    let s1 := { s with faults := { s.faults with counts := mset s.faults.counts k 0 new } }.flagFault 0
    let s2 := if cls = 0 then s1.incr (Reg.tmbErrCnt inst) else s1
    let s3 := if (old = 0 && new = 1) || s.bit Reg.faultCtrl 10 then s2.journal cls inst 0 new detail else s2
    if s3.isLost k then s3
    else if !s3.isRetired k then
      if crossing || b < new then (s3.retire cls inst detail).lifeUp (12 + cls) else s3
    else if cls = 2 && (crossing || (old ≤ b && b < new)) then s3.lose cls inst detail
    else s3

/-- R328: a leak tick of a class. -/
def State.leakTick (s : State) (cls : Nat) : State :=
  let p := s.resLeak cls * 1000000000
  if p = 0 || s.now % p ≠ 0 then s
  else
    { s with faults := { s.faults with
        counts := s.faults.counts.filterMap fun x =>
          if x.1 / 128 = cls then (if x.2 ≤ 1 then none else some (x.1, x.2 - 1)) else some x } }

def execLeakTick (dt : Nat) (cls : Fin 7) (s : State) : Host.Outcome State Fault Refusal := done ((s.tick dt).leakTick cls)

/-- R333: the spare phase of a group comes on. -/
def State.phaseOn (s : State) (g : Nat) : State :=
  let sp := [16, 26, 31, 36].getD g 64
  { s with faults := { s.faults with phases := s.faults.phases.filter (· ≠ sp) } }

def execPhaseSpareOn (dt : Nat) (grp : Nat) (s : State) : Host.Outcome State Fault Refusal := done ((s.tick dt).phaseOn grp)

/-! ### The FAULT page's computed words (R345) -/

/-- R345: RES_CNT of the selected instance. -/
def State.resCntWord (s : State) : Nat :=
  let cls := s.fld Reg.faultResSel 2 0
  let i := s.fld Reg.faultResSel 14 8
  if resInstances cls ≤ i then 0
  else
    let k := resKey cls i
    let peer := ((s.servedBy k).getD ((s.spareOf k).getD 0)) % 128
    s.resCount k + (if s.isRetired k then 2 ^ 16 else 0) + (if s.isLost k then 2 ^ 17 else 0)
      + (if s.isSpare cls i then 2 ^ 18 else 0) + (if (s.servedBy k).isSome then 2 ^ 19 else 0) + peer * 2 ^ 20 + 2 ^ 31

/-- R345: SPARE_MAP. -/
def State.faultSpareMap (s : State) : Nat :=
  let full := (List.range 7).filter fun c =>
    !(s.faults.serving.any fun x => x.1 / 128 = c) && !(c = 2 && !s.vault.used.isEmpty) &&
      !(s.faults.retired.any fun k => k / 128 = c && s.isSpare c (k % 128))
  let bits := fun (l : List Nat) => l.foldl (fun m c => m ||| 2 ^ c) 0
  bits full + bits s.faults.exhausted * 256 + bits (s.faults.lost.map (· / 128)) * 65536

/-- R345: JRNL_DATA. -/
def State.jrnlData (s : State) : Nat :=
  let e := s.fld Reg.faultJrnlIdx 7 0
  if s.bit Reg.faultJrnlIdx 10 then s.lifeWord (e % 32)
  else mget s.faults.journal (4 * e + s.fld Reg.faultJrnlIdx 9 8) 0

/-! ### The lifetime record (R341-R343) -/

/-- A map of instances of a class as 128 bits. -/
def classMap (l : List Nat) (cls : Nat) : Nat := (l.filter (· / 128 = cls)).foldl (fun m k => m ||| 2 ^ (k % 128)) 0

/-- R341: the record's journal part, oldest entry first. -/
def State.journalBytes (s : State) : List Byte :=
  let next := s.fld Reg.faultJrnlIdx 31 24
  let first := if s.faults.filled = 256 then next else 0
  (List.range 256).flatMap fun i => (List.range 4).flatMap fun w => leBytes 4 (mget s.faults.journal (4 * ((first + i) % 256) + w) 0)

/-- R341: the lifetime record. -/
def State.ltRecord (s : State) : List Byte :=
  let pad := fun (n : Nat) => List.replicate n (0 : Byte)
  let head := ([0x45, 0x4C, 0x4C, 0x54] : List Byte) ++ leBytes 2 1 ++ pad 2 ++ leBytes 4 (s.lifeWord 20) ++ pad 4 ++ leBytes 8 s.now
    ++ leBytes 8 Config.serial.toNat ++ ((List.range 32).flatMap fun w => leBytes 4 (s.lifeWord w))
    ++ ((List.range 7).flatMap fun c => leBytes 16 (classMap s.faults.retired c))
    ++ ((List.range 8).flatMap fun c => leBytes 4 (mget s.faults.dimms c 0))
    ++ ((List.range 7).flatMap fun c => leBytes 16 (classMap s.faults.lost c)) ++ pad 3676
  head ++ leBytes 4 (crc32c (head ++ s.journalBytes)) ++ s.journalBytes

/-- R173, R376: the erase block of the NAND in bytes (MODE.BLOCK). -/
def State.nandBlock (s : State) : Nat := 2 ^ s.fld Reg.xspiMode 19 16

/-- R341: the blocks of a slot that are not known as bad, in order. -/
def State.ltBlocks (s : State) (slot : Nat) : List Nat :=
  ((List.range 4).map fun i => 64 * s.fld Reg.faultCtrl 31 22 + 4 * slot + i).filter fun b => !s.lamp.badBlocks.contains b

/-- R341: start a write of the lifetime record into the first good block of the slot that does not hold the newest record; it
stays wanted while one, a checkpoint or a restore is under way. -/
def State.ltWrite (s : State) : State :=
  if s.faults.ltSlot.isSome || s.lamp.ckpt ≠ 0 || s.lamp.restoring then
    { s with faults := { s.faults with ltFrom := s.faults.ltFrom <|> some s.now } }
  else
    let slot := match s.faults.ltNewest with
      | some n => 1 - n
      | none => 0
    match s.ltBlocks slot with
    | [] => ({ s with faults := { s.faults with ltFrom := none } }.clrBit Reg.faultCtrl 12).flagFault 6
    | b :: _ =>
      let s1 := s.setLife 20 ((s.lifeWord 20 + 1) % 2 ^ 32)
      { s1 with
        faults := { s1.faults with ltSlot := some slot, ltFrom := none }
        tx := s1.tx ++ [.flash 1 2 (b * s.nandBlock) [], .flash 1 1 (b * s.nandBlock) s1.ltRecord] }

/-- R341: a lifetime write falls due: at an hour, or within 1 s of what it records. -/
def State.ltDue (s : State) : State :=
  if s.bit Reg.faultCtrl 11 && (s.faults.ltFrom.isSome || s.now % 3600000000000 = 0) then s.ltWrite else s

def execLifetimeWrite (dt : Nat) (s : State) : Host.Outcome State Fault Refusal := done (s.tick dt).ltDue

/-- R341: a write of 1 to LT_NOW. -/
def State.ltNow (s : State) : State :=
  if s.bit Reg.faultCtrl 11 then (s.setBit Reg.faultCtrl 12).ltWrite else s.setBit Reg.faultCtrl 12

def execLtNow (dt : Nat) (_req : Nat) (s : State) : Host.Outcome State Fault Refusal := done (s.tick dt).ltNow

/-- R341: a lifetime write that is wanted starts once the checkpoint writer has finished. -/
def State.ltNext (s : State) : State :=
  if s.bit Reg.faultCtrl 11 && s.faults.ltFrom.isSome && s.lamp.ckpt = 0 && !s.lamp.restoring then s.ltWrite else s

/-- R341: a lifetime write ends; one that failed has used no sequence number. -/
def State.ltEnd (s : State) (ok : Bool) : State :=
  match s.faults.ltSlot with
  | none => s
  | some n =>
    let s1 := { s with faults := { s.faults with ltSlot := none, ltNewest := if ok then some n else s.faults.ltNewest } }
    let s2 := if ok then s1 else s1.setLife 20 ((s1.lifeWord 20 + 2 ^ 32 - 1) % 2 ^ 32)
    (s2.clrBit Reg.faultCtrl 12).flagFault (if ok then 5 else 6)

/-- R341: a slot's bytes are a valid record. -/
def ltValid (l : List Byte) : Bool :=
  l.length = 8192 && sliceB l 0 4 = [0x45, 0x4C, 0x4C, 0x54] && ofLe (sliceB l 4 2) = 1 &&
    ofLe (sliceB l 4092 4) = crc32c (l.take 4092 ++ l.drop 4096)

/-- R173: of two sequence numbers, the first is the newer. -/
def seqNewer (a b : Nat) : Bool := (a + 2 ^ 32 - b) % 2 ^ 32 < 2 ^ 31

/-- R342: the newer valid record of the two slots, with its slot. -/
def ltNewer (a b : List Byte) : Option (Nat × List Byte) :=
  match ltValid a, ltValid b with
  | true, true => if seqNewer (ofLe (sliceB a 8 4)) (ofLe (sliceB b 8 4)) then some (0, a) else some (1, b)
  | true, false => some (0, a)
  | false, true => some (1, b)
  | _, _ => none

/-- R343: the instances that a record's map at an offset holds for a class, ranks only where the DIMM is the one fitted. -/
def State.ltInstances (s : State) (l : List Byte) (at_ cls : Nat) : List Nat :=
  let m := ofLe (sliceB l (at_ + 16 * cls) 16)
  (List.range (resInstances cls)).filter fun i => m.testBit i &&
    (cls ≠ 1 || ofLe (sliceB l (272 + 4 * (i / 8)) 4) = mget s.faults.dimms (i / 8) 0)

/-- R343: apply the maps of a record: retirements first, then losses. -/
def State.ltApply (s : State) (l : List Byte) : State :=
  let pairs := (List.range 7).flatMap fun c => (s.ltInstances l 160 c).map fun i => (c, i)
  let lost := (List.range 7).flatMap fun c => (s.ltInstances l 304 c).map fun i => (c, i)
  let s1 := (pairs.filter fun x => !lost.contains x || x.1 = 2).foldl (fun s x =>
    if s.isRetired (resKey x.1 x.2) then s else s.retire x.1 x.2 0) s
  lost.foldl (fun s x =>
    let s' := if s.isRetired (resKey x.1 x.2) then s else s.retire x.1 x.2 0
    if s'.isLost (resKey x.1 x.2) then s' else s'.lose x.1 x.2 0) s1

/-- R342: the counters and the journal of a record. -/
def State.ltLoad (s : State) (l : List Byte) : State :=
  let life := (List.range 32).foldl (fun m w => mset m w 0 (ofLe (sliceB l (32 + 4 * w) 4))) []
  let jr := (List.range 1024).foldl (fun m w => mset m w 0 (ofLe (sliceB l (4096 + 4 * w) 4))) []
  let n := ((List.range 256).filter fun e => (List.range 4).any fun w => mget jr (4 * e + w) 0 ≠ 0).length
  ({ s with faults := { s.faults with life := life, journal := jr, filled := n } }).setFld Reg.faultJrnlIdx 31 24 (n % 256)

/-- R342: LT_RESTORE; while a canvas is live it is discarded. -/
def State.ltRestore (s : State) (a b : List Byte) : State :=
  if s.anyLive then s.violate Reg.faultCtrl 3
  else match ltNewer a b with
    | none => s
    | some (n, l) =>
      if ofLe (sliceB l 24 8) ≠ Config.serial.toNat then s.flagFault 8
      else
        let s1 := s.ltLoad l
        let s2 := { s1 with faults := { s1.faults with ltNewest := some n } }
        ((s2.ltApply l).flagFault 7).journal 13 0 0 0 0

def execLtRestore (dt : Nat) (_req : Nat) (slotA slotB : List Byte) (s : State) : Host.Outcome State Fault Refusal :=
  done (((s.tick dt).ltRestore slotA slotB).clrBit Reg.faultCtrl 13)

/-- R344: a write of RELEASE takes effect while no masked STAT bit is set. -/
def State.faultRelease (s : State) (v : Word) : State :=
  let s1 := (s.landAt Reg.faultFaultN v).1
  if v.getLsbD 24 && !s1.anyBit Reg.faultStat (s1.fld Reg.faultFaultN 9 0) then
    { s1 with faults := { s1.faults with hold := false } }
  else s1

def execFaultNRelease (dt : Nat) (_req : Nat) (v : Word) (s : State) : Host.Outcome State Fault Refusal :=
  done ((s.tick dt).faultRelease v)

end Sys2Proof.Machine
end

