-- ==== Sys2Proof/Machine/Mem.lean ====
section
/-! DEFINITION. The DDR5 memory system: requests and command slots (R260-R264), refresh (R265-R267), set points and
training (R268-R272), errors, migration and scrub (R273-R277), self-refresh (R278-R281), and the writes of its pages. -/
namespace Sys2Proof.Machine

def State.subChan (s : State) (c k : Nat) : SubChan := mget s.mem.subs (2 * c + k) {}
def State.setSubChan (s : State) (c k : Nat) (x : SubChan) : State :=
  { s with mem := { s.mem with subs := mset s.mem.subs (2 * c + k) {} x } }
/-- R271, R353: commands stand still during a set-point change and while PLL1 is unlocked. -/
def State.memStill (s : State) : Bool := s.mem.fsp.isSome || s.mem.frozen.isSome

/-- R318: a background class is held. -/
def State.bgHeld (s : State) (cls : Nat) : Bool :=
  s.keep.held.contains cls && !(mget s.keep.forced cls none).any fun t => s.now < t

/-! ### Requests -/

/-- R260: the port's class is admitted. -/
def admittedPort (p : Nat) : Bool := p ≤ 4

/-- R260: a request is urgent. -/
def State.isUrgent (s : State) (c : Nat) (r : MemReq) : Bool :=
  let code := s.fld (Reg.mcLatTgt c) (4 * r.port + 3) (4 * r.port)
  code = 0 || (code ≠ 15 && r.at_ + 64 * 2 ^ code ≤ s.now)

/-- R259: the channel address bits [37:6] of a burst (R339 DETAIL). -/
def State.caDetail (s : State) (a : Nat) : Nat :=
  match placeAddr s.ilvs (s.fld Reg.memMap 1 0) (s.bit Reg.memHash 0) (a % 2 ^ 41) with
  | some (_, _, ca) => bitsOf ca 37 6
  | none => 0

/-- R264: a channel with more than two logical ranks, or of 3DS DIMMs, orders on row match; any other forwards. -/
def State.rowOrder (s : State) (c : Nat) : Bool := 2 < s.logicalRanks c || s.bit (Reg.mcRanks c) 20

/-- R263: some byte enables of a write are not set. -/
def MemReq.partialWrite (r : MemReq) : Bool :=
  match r.data with
  | some d => !(d.all Option.isSome && d.length = 64)
  | none => false

/-- R264: the waiting reads of a burst that the write must not reach keep the burst as it stands: those of its own port, and
on a channel that orders on row match every one. -/
def holdReads (order : Bool) (w : MemReq) (l : List Byte) (bad : Bool) (q : List MemReq) : List MemReq :=
  q.map fun r => if r.addr = w.addr && r.held.isNone && (order || r.port = w.port) then { r with held := some (l, bad) } else r

/-- R263, R264: the write queue accepts a write, which is visible from then on. -/
def State.acceptWrite (s : State) (c k : Nat) (r : MemReq) : State :=
  let old := s.rdBytes r.addr 64
  let was := s.burstPoisoned r.addr
  let d := r.data.getD []
  let s1 := (d.zipIdx).foldl (fun s x => match x.1 with
    | some b => s.wrByte (r.addr + x.2) b
    | none => s) s
  let s2 := if r.partialWrite then s1 else s1.setPoison r.addr false
  let x := s2.subChan c k
  (s2.setSubChan c k { x with
    writes := x.writes ++ [r]
    reads := holdReads (s.rowOrder c) r old was x.reads }).setBitIf (x.writes.length = 63) (Reg.mcStat c) 9

/-- R263: the queue has room for a write of the request's class. -/
def SubChan.room (x : SubChan) (r : MemReq) : Bool := x.writes.length < (if admittedPort r.port then 64 else 48)

/-- R263, R264: writes that wait enter the queue in their order as room appears; none passes an older one to its burst. -/
def State.admitWrites (s : State) (c k : Nat) : List MemReq → List MemReq → State
  | kept, [] => s.setSubChan c k { (s.subChan c k) with waiting := kept }
  | kept, r :: l =>
    if (s.subChan c k).room r && kept.all (·.addr ≠ r.addr) then (s.acceptWrite c k r).admitWrites c k kept l
    else s.admitWrites c k (kept ++ [r]) l

/-- R260, R264: a request joins its subchannel: a read waits, a write enters the queue or waits for room. -/
def State.joinSub (s : State) (c k : Nat) (q : MemReq) : State :=
  let x0 := s.subChan c k
  let q := { q with arr := x0.count }
  let s1 := s.setSubChan c k { x0 with count := x0.count + 1 }
  let x := s1.subChan c k
  if q.data.isNone then s1.setSubChan c k { x with reads := x.reads ++ [q] }
  else if x.room q && x.waiting.all (·.addr ≠ q.addr) then s1.acceptWrite c k q
  else s1.setSubChan c k { x with waiting := x.waiting ++ [q] }

/-- The request of a port for one burst, with where it lies: channel, subchannel. -/
def State.burstReq (s : State) (port a : Nat) (data : Option (List (Option Byte))) (dma : Option DmaTag) : Option (Nat × Nat × MemReq) :=
  match s.placeFull a with
  | none => none
  | some (c, r, _, l) =>
    some (c, l.sub, { port := port, addr := a % 2 ^ 41 / 64 * 64, rank := r, bank := l.bg * 4 + l.bank, row := l.row, at_ := s.now,
                      data := data, dma := dma })

/-- The bytes of a write within one burst, by their place in it. -/
def burstBytes (a : Nat) (d : List Byte) : List (Option Byte) :=
  (List.range 64).map fun i => if i < a % 64 then none else d[i - a % 64]?

/-- R95, R257, R260: a request reaches its channel. A read of a whole burst, or a write of bytes within one burst. -/
def State.memRequest (s : State) (port a : Nat) (data : Option (List Byte)) (dma : Option DmaTag := none) : State :=
  match s.burstReq port a (data.map (burstBytes a)) dma with
  | none => { s with bus := [] }.setBit Reg.memStat 2
  | some (c, k, q) => (s.reachChan c).joinSub c k q

def execMemoryRequest (dt : Nat) (port : Fin 8) (addr : Nat) (data : Option (List Byte)) (s : State) :
    Host.Outcome State Fault Refusal := done ((s.tick dt).memRequest port addr data)

/-! ### Command slots -/

/-- The key of a bank among the open rows. -/
def bankKey (rank bank : Nat) : Nat := rank * 32 + bank

/-- R262: the row open in a bank: one without a hit for PAGE_IDLE is closed. -/
def State.openRow (s : State) (c : Nat) (x : SubChan) (rank bank : Nat) : Option Nat :=
  let idle := s.fld (Reg.mcCtrl c) 15 8
  match mget x.rows (bankKey rank bank) none with
  | some (row, last) => if idle ≠ 0 && s.now ≤ last + idle * 16 then some row else none
  | none => none

/-- R262: a request hits an open row, or conflicts with one. -/
def State.rowHit (s : State) (c : Nat) (x : SubChan) (r : MemReq) : Bool := s.openRow c x r.rank r.bank = some r.row
def State.rowConflict (s : State) (c : Nat) (x : SubChan) (r : MemReq) : Bool := (s.openRow c x r.rank r.bank).any (· ≠ r.row)

/-- R261: the first of a class: row hits before misses, but for a streak of hits that has kept an older conflicting request
waiting for HIT_CAP hits (notes/assumptions/126). The number is the streak it leaves. -/
def State.pickHit (s : State) (c : Nat) (x : SubChan) (streak : Nat) (l : List MemReq) : Option (MemReq × Nat) :=
  match l.find? (s.rowHit c x) with
  | none => l.head?.map fun r => (r, 0)
  | some h =>
    match l.find? fun o => o.arr < h.arr && s.rowConflict c x o with
    | none => some (h, 0)
    | some o => if s.fld (Reg.mcCtrl c) 19 16 ≤ streak then some (o, 0) else some (h, streak + 1)

/-- R264: a read that may go: on a channel that orders on row match it waits for writes queued to its row before it; and
requests of one port to one burst keep their order. -/
def State.readReady (s : State) (c : Nat) (x : SubChan) (r : MemReq) : Bool :=
  !(s.rowOrder c && x.writes.any fun w => w.rank = r.rank && w.bank = r.bank && w.row = r.row && w.arr < r.arr) &&
    !(x.reads ++ x.waiting).any fun w => w.addr = r.addr && w.port = r.port && w.arr < r.arr

/-- R264: a write that may go: writes to one burst, and requests of one port to it, keep their order. -/
def SubChan.writeReady (x : SubChan) (w : MemReq) : Bool :=
  !(x.writes.any fun o => o.addr = w.addr && o.arr < w.arr) &&
    !(x.reads.any fun o => o.addr = w.addr && o.port = w.port && o.arr < w.arr)

/-- R263: the subchannel drains its writes. -/
def State.drains (s : State) (c : Nat) (x : SubChan) : Bool :=
  let n := x.writes.length
  if s.fld (Reg.mcCtrl c) 25 20 ≤ n then true else if n ≤ s.fld (Reg.mcCtrl c) 31 26 then false else x.draining

/-- R272: the oldest of the requests that are served in the order of arrival after a set-point change. -/
def State.inOrder (s : State) (c : Nat) (x : SubChan) : Option (MemReq × Bool × Nat) :=
  let l := ((x.reads.filter (s.readReady c x)).map fun r => (r, false)) ++ ((x.writes.filter x.writeReady).map fun r => (r, true))
  let l := l.filter fun q => q.1.arr < x.orderTo
  match l with
  | [] => none
  | q :: r =>
    let o := r.foldl (fun m y => if y.1.arr < m.1.arr then y else m) q
    some (o.1, o.2, if admittedPort o.1.port then x.streakA else x.streakS)

/-- R261, R263: the request to issue, steps 2 to 5, in admitted and slack parts: request, write, the streak of its class. -/
def State.choices (s : State) (c : Nat) (x : SubChan) (drain : Bool) : Option (MemReq × Bool × Nat) × Option (MemReq × Bool × Nat) :=
  let rds := x.reads.filter (s.readReady c x)
  let wrs := x.writes.filter x.writeReady
  let part := fun (adm w : Bool) => (if w then wrs else rds).filter fun r => admittedPort r.port = adm
  let streak := fun (adm : Bool) => if adm then x.streakA else x.streakS
  let urg := fun (adm w : Bool) => ((part adm w).find? (s.isUrgent c)).map fun r => (r, w, streak adm)
  let both := fun (adm w : Bool) => (urg adm w).or ((s.pickHit c x (streak adm) (part adm w)).map fun r => (r.1, w, r.2))
  if drain || rds.isEmpty then
    let first := if x.writes.length = 64 then none else urg true false
    (first.or ((both true true).or (both true false)), (both false true).or (both false false))
  else ((both true false).or (both true true), both false false)

/-- R267: how many refreshes may be postponed: at most 4, in fine-granularity mode 8. -/
def State.postpone (s : State) (c : Nat) : Nat :=
  min (s.fld (Reg.mcRefresh c) 5 2) (if s.bit (Reg.mcRefresh c) 0 then 8 else 4)

/-- R265, R266: the refresh interval in ns. -/
def State.tRefi (s : State) (c : Nat) : Nat :=
  (if s.bit (Reg.mcRefresh c) 0 then 1950 else 3900) / (if (s.memChan c).hot then 2 else 1)

/-- R265: the refreshes of a channel's ranks fall due from now on, staggered evenly over the interval
(notes/assumptions/127). -/
def State.refreshAnew (s : State) (c : Nat) : State :=
  let n := s.logicalRanks c
  let m := s.memChan c
  s.setMemChan c { m with owed := [], refAt := (List.range n).foldl (fun l r => mset l r 0 (s.now + r * s.tRefi c / n)) m.refAt }

/-- R265, R267: a refresh of a rank is issued; its rows close, in fine-granularity mode those of one bank group. -/
def State.refreshRank (s : State) (c r : Nat) : State :=
  let m := s.memChan c
  let fine := s.bit (Reg.mcRefresh c) 0
  let g := mget m.sbNext r 0
  let shut := fun (key : Nat) => key / 32 = r && (!fine || key % 32 / 4 = g)
  let s1 := s.setMemChan c { m with
    owed := mset m.owed r 0 (mget m.owed r 0 - 1)
    sbNext := if fine then mset m.sbNext r 0 ((g + 1) % 8) else m.sbNext }
  s1.each [0, 1] fun k s => s.setSubChan c k { (s.subChan c k) with rows := (s.subChan c k).rows.filter fun y => !shut y.1 }

/-- R267: an admitted request waits for a rank. -/
def State.rankWanted (s : State) (c r : Nat) : Bool :=
  [0, 1].any fun k => let x := s.subChan c k; (x.reads ++ x.writes ++ x.waiting).any fun q => q.rank = r && admittedPort q.port

/-- A poisoned burst is returned (R274). -/
def State.poisonedRead (s : State) : State := { s with bus := [] }.setBit Reg.memStat 3 |>.incr Reg.memPoisonCnt

/-- R273: a corrected error of a rank. -/
def State.eccCorrected (s : State) (c r a : Nat) : State :=
  ((s.incr (Reg.mcEccCeCnt c)).setBit (Reg.mcStat c) 0).faultEvent 1 (8 * c + r) false (s.caDetail a)

/-- R273: an uncorrectable error of a rank: the burst is written back poisoned. -/
def State.eccUncorrectable (s : State) (c r a : Nat) : State :=
  (((s.setPoison a true).incr (Reg.mcEccUeCnt c)).setBit (Reg.mcStat c) 1).faultEvent 1 (8 * c + r) true (s.caDetail a)

/-- R273: how the tries of a read come out: 0 good, 1 corrected, 2 uncorrectable. -/
def eccOutcome (errors : List Nat) : Nat :=
  match errors.getD 0 0 with
  | 0 => 0
  | 1 => 1
  | _ => if errors.getD 1 2 < 2 || errors.getD 2 2 < 2 then 1 else 2

/-- R273, R274, R276: a burst is read from the devices. -/
def State.readBurst (s : State) (c r a : Nat) (errors : List Nat) : State :=
  if s.burstPoisoned a then s.poisonedRead
  else
    let give := fun (s : State) => { s with bus := (s.rdBytes a 64).map BitVec.toNat }
    match eccOutcome errors with
    | 0 => give s
    | 1 => give (s.eccCorrected c r a)
    | _ => (s.eccUncorrectable c r a).poisonedRead

/-- R263: a write with byte enables not set reads its burst first. -/
def State.modifyRead (s : State) (q : MemReq) (c : Nat) (errors : List Nat) : State :=
  if !q.partialWrite then s
  else if s.burstPoisoned q.addr then s.countPoison 1
  else match eccOutcome errors with
    | 0 => s
    | 1 => s.eccCorrected c q.rank q.addr
    | _ => s.eccUncorrectable c q.rank q.addr

/-- R264: a write that is issued reaches the waiting reads of its burst from other ports. -/
def reachReads (w : MemReq) (q : List MemReq) : List MemReq :=
  q.map fun r => match r.held, w.data with
    | some (l, bad), some d =>
      if r.addr = w.addr && r.port ≠ w.port then
        { r with held := some (l.zipWith (fun b o => Option.getD o b) d, bad && w.partialWrite) }
      else r
    | _, _ => r

/-- R286: a piece of a transfer arrives in the DMA buffer; one for a descriptor that has ended is dropped. -/
def State.deliver (s : State) (t : DmaTag) (l : List Byte) (bad : Bool) : State :=
  let x := mget s.dma t.ch {}
  match x.run with
  | none => s
  | some r =>
    if r.serial ≠ t.serial then s
    else { s with dma := mset s.dma t.ch {} { x with run := some { r with got := r.got ++ [(t.pos, sliceB l t.off t.n, bad)] } } }

/-- R264, R273, R274: a read is served: with the burst as it was kept for it, or from the devices. -/
def State.serveRead (s : State) (c : Nat) (q : MemReq) (errors : List Nat) : State :=
  let s1 := match q.held with
    | some (_, true) => s.poisonedRead
    | some (l, false) => { s with bus := l.map BitVec.toNat }
    | none => s.readBurst c q.rank q.addr errors
  match q.dma with
  | none => s1
  | some t => s1.deliver t (if s1.bus.isEmpty then List.replicate 64 0 else s1.bus.map (BitVec.ofNat 8)) s1.bus.isEmpty

/-- R261-R264: issue a request. -/
def State.issueReq (s : State) (c k : Nat) (q : MemReq) (write : Bool) (streak : Nat) (drain : Bool) (errors : List Nat) : State :=
  let x := s.subChan c k
  let adm := admittedPort q.port
  let x1 := { x with
    rows := mset x.rows (bankKey q.rank q.bank) none (if s.fld (Reg.mcCtrl c) 15 8 = 0 then none else some (q.row, s.now))
    streakA := if adm then streak else x.streakA
    streakS := if adm then x.streakS else streak
    draining := drain }
  if write then
    (s.setSubChan c k { x1 with writes := x.writes.erase q, reads := reachReads q x.reads }).modifyRead q c errors
  else (s.setSubChan c k { x1 with reads := x.reads.erase q }).serveRead c q errors

/-- R261: a command slot of a subchannel. -/
def State.commandSlot (s : State) (c k : Nat) (errors : List Nat) : State :=
  if !s.bit (Reg.mcCtrl c) 0 || s.memStill || 2 ≤ s.srState c then s
  else
    let s0 := s.admitWrites c k [] (s.subChan c k).waiting
    let x := s0.subChan c k
    let owed := (s0.memChan c).owed
    match owed.find? fun o => s.postpone c < o.2 with
    | some o => (s0.refreshRank c o.1).setBit (Reg.mcStat c) 6
    | none =>
      let drain := s0.drains c x
      let (adm, slack) := match s0.inOrder c x with
        | some q => (some q, none)
        | none => s0.choices c x drain
      match adm with
      | some (q, w, n) => s0.issueReq c k q w n drain errors
      | none =>
        match owed.find? fun o => 0 < o.2 && !s0.rankWanted c o.1 with
        | some o => s0.refreshRank c o.1
        | none => match slack with
          | some (q, w, n) => s0.issueReq c k q w n drain errors
          | none => s0

/-- R265-R267: a rank's refresh falls due, once an interval. -/
def State.refreshDue (s : State) (c r : Nat) : State :=
  let m := s.memChan c
  let at_ := mget m.refAt r 0
  let t := s.tRefi c
  if !s.bit (Reg.mcCtrl c) 0 || 2 ≤ s.srState c || s.logicalRanks c ≤ r || s.now < at_ + t then s
  else s.setMemChan c { m with
    owed := mset m.owed r 0 (mget m.owed r 0 + 1)
    refAt := mset m.refAt r 0 (at_ + (s.now - at_) / t * t) }

def execRefreshDue (dt : Nat) (mc : Fin 8) (rank : Fin 8) (s : State) : Host.Outcome State Fault Refusal :=
  done ((s.tick dt).refreshDue mc rank)

/-- R272, R353: every row is closed, and what waits is served in the order of its arrival. -/
def State.arrivalOrder (s : State) : State :=
  { s with mem := { s.mem with
    subs := s.mem.subs.map fun (x : Nat × SubChan) => (x.1, { x.2 with rows := [], orderTo := x.2.count }) } }

/-- R267, R353: PLL1 is locked again: owed refreshes first; a freeze beyond the allowance is an error event of every
rank. -/
def State.memRelock (s : State) : State :=
  match s.mem.frozen with
  | none => s
  | some _ =>
    let s0 := { s with mem := { s.mem with frozen := none } }.arrivalOrder
    s0.each (List.range 8) fun c s =>
      let late := (s.memChan c).owed.any fun o => s.postpone c < o.2
      let s1 := s.setMemChan c { (s.memChan c) with owed := [] }
      if late then (s1.setBit (Reg.mcStat c) 7).each (List.range (s.logicalRanks c)) fun r s => s.faultEvent 1 (8 * c + r) false 0
      else s1

/-! ### Admitted streams -/

/-- R21: the Ward charges streams to DRAM channels, for the standing configuration and every accepted candidate. -/
def State.admittedOn (s : State) (c : Nat) : Bool :=
  let st := s.standing
  (st :: s.candidates st s.latch.accepted).any fun x => (x.dramDemand.getD c (0, 1)).1 ≠ 0
def State.anyAdmitted (s : State) : Bool := (List.range 8).any s.admittedOn

/-- R257: an interleave set holds an admitted stream. -/
def State.setAdmitted (s : State) (k : Nat) : Bool :=
  let only := fun (x : State) => x.each ([0, 1, 2, 3].filter (· ≠ k)) fun j x => x.clrBit (Reg.memIlv j) 31
  let st := s.standing
  (st :: s.candidates st s.latch.accepted).any fun x => (only x).dramDemand.any (·.1 ≠ 0)

/-! ### Set points (R268-R272) -/

/-- R271: the code that refuses a change to a set point; 0: accepted. -/
def State.fspCode (s : State) (f : Nat) : Nat :=
  if s.mem.training.isSome then 1
  else if !s.fspTrained f && !(s.bit Reg.memFspCtrl 3 && !s.anyLive && !s.anyAdmitted) then 2
  else if !s.bit Reg.wardFspOk f then 3
  else if s.mem.fsp.isSome then 4
  else if !s.bit Reg.memFspCtrl (8 + f) then 5
  else 0

/-- R272 step 3, R349: PLL1 goes to the profile of a set point, with its outputs held low. -/
def State.pll1Low (s : State) (f : Nat) : State :=
  let s1 := ((s.clrBit (Reg.pllStat 1) 28).setBit (Reg.pllStat 1) 29).outputsLow 1
  { s1.setFld (Reg.pllCtrl 1) 3 2 f with
    plls := mset s1.plls 1 {} { (mget s1.plls 1 {}) with locking := some s1.now, search := false, hopping := true } }

/-- R272, R349, R350: the change is over: PLL1 is locked from its stored band, its enabled outputs run, and the hop is done. -/
def State.pll1Up (s : State) : State :=
  if s.bit (Reg.pllStat 1) 28 then s
  else
    let s1 := ((s.outputsUp 1).setBit (Reg.pllStat 1) 28).clrBit (Reg.pllStat 1) 29
    { s1.setBit (Reg.pllStat 1) 5 with
      plls := mset s1.plls 1 {} { (mget s1.plls 1 {}) with locking := none, hopping := false } }

/-- R271: a set-point change is asked for. -/
def State.fspRequest (s : State) (f : Nat) : State :=
  let c := s.fspCode f
  let s1 := s.setFld Reg.memFspStat 6 4 c
  if c ≠ 0 then (s1.setBit Reg.memStat 1).setFld Reg.memFspCtrl 2 2 (if c = 4 then s.fld Reg.memFspCtrl 2 2 else 0)
  else if f = s.fld Reg.memFspStat 1 0 then (s1.clrBit Reg.memFspCtrl 2).setBit Reg.memStat 0
  else
    let s2 := (s1.setFld Reg.memFspCtrl 1 0 f).setBit Reg.memFspCtrl 2
    { (s2.setBit Reg.memFspStat 2).pll1Low f with mem := { s2.mem with fsp := some (f, s.now) } }

/-- R268: a set point is marked trained on some channel. -/
def State.trainedAnywhere (s : State) (f : Nat) : Bool := (List.range 8).any fun c => s.bit Reg.mtrnTrained (4 * c + f)

/-- R268, R271: a write to FSP_CTRL; the rate of a trained set point is discarded with KIND 1. -/
def State.writeFspCtrl (s : State) (v : Word) : State :=
  let o := Reg.memFspCtrl
  let bad := [0, 1, 2, 3].filter fun f => s.trainedAnywhere f && bitsOf v.toNat (17 + 2 * f) (16 + 2 * f) ≠ s.fld o (17 + 2 * f) (16 + 2 * f)
  let v1 := bad.foldl (fun w f => wput w (17 + 2 * f) (16 + 2 * f) (s.fld o (17 + 2 * f) (16 + 2 * f))) v
  let held := s.fld o 2 2
  let s1 := (s.landAt o (wput v1 2 2 held)).1
  let s2 := if bad.isEmpty then s1 else s1.violate o 1
  let s3 := s2.publish
  if v.getLsbD 2 then s3.fspRequest (bitsOf v.toNat 1 0) else s3

def execFspStart (dt : Nat) (_req : Nat) (v : Word) (s : State) : Host.Outcome State Fault Refusal :=
  done ((s.tick dt).writeFspCtrl v)

/-! ### Training (R269, R270) -/

/-- R269: the bytes of the training row are written from the pattern seed; the pattern is not stated, so they are free
values (notes/assumptions/4). -/
def State.fillRow (s : State) (c sub r : Nat) : State :=
  let loc : ChanLoc := ⟨sub, s.fld Reg.mtrnSel 9 7, s.fld Reg.mtrnSel 11 10, r, s.fld Reg.mtrnSel 29 12, 0, 0⟩
  let n := 2 ^ s.kLog c
  let m := (List.range n).foldl (fun m col =>
    mrun m (locKey c r { loc with col := col }) ((List.range 64).map fun i => BitVec.ofNat 8 (Config.freeValue (s.free + 64 * col + i)))) s.dram
  let p := (List.range n).foldl (fun p col => mdrop p (locKey c r { loc with col := col } / 64)) s.poison
  { s with dram := m, poison := p, free := s.free + 64 * n }

/-- R269: the run that MTRN.CTRL and SEL spell starts, or is refused. -/
def State.trainStart (s : State) : State :=
  let c := s.fld Reg.mtrnSel 2 0
  let sub := s.fld Reg.mtrnSel 3 3
  let r := s.fld Reg.mtrnSel 6 4
  let op := s.fld Reg.mtrnCtrl 3 1
  if s.admittedOn c then (s.setRn Reg.mtrnResult (2 ^ 30)).clrBit Reg.mtrnCtrl 0
  else
    let s1 := s.setRn Reg.mtrnResult 0
    let s2 := { s1 with mem := { s1.mem with training := some (op, c, sub, r) } }
    if op = 0 then s2.fillRow c sub r else s2

/-- R269: a write to MTRN.CTRL; a RUN during a set-point change starts at its end. -/
def State.writeMtrnCtrl (s : State) (v : Word) : State :=
  let s1 := (s.landAt Reg.mtrnCtrl (wput v 0 0 (s.fld Reg.mtrnCtrl 0 0))).1
  if !v.getLsbD 0 || s.mem.training.isSome || s.mem.trainWait then s1
  else
    let s2 := s1.setBit Reg.mtrnCtrl 0
    if s.mem.fsp.isSome then { s2 with mem := { s2.mem with trainWait := true } } else s2.trainStart

def execWriteRead (dt : Nat) (_req : Nat) (v : Word) (s : State) : Host.Outcome State Fault Refusal := done ((s.tick dt).writeMtrnCtrl v)
def execTrainRead (dt : Nat) (_req : Nat) (v : Word) (s : State) : Host.Outcome State Fault Refusal := done ((s.tick dt).writeMtrnCtrl v)
def execCaLoop (dt : Nat) (_req : Nat) (v : Word) (s : State) : Host.Outcome State Fault Refusal := done ((s.tick dt).writeMtrnCtrl v)
def execMrw (dt : Nat) (_req : Nat) (v : Word) (s : State) : Host.Outcome State Fault Refusal := done ((s.tick dt).writeMtrnCtrl v)
def execMrr (dt : Nat) (_req : Nat) (v : Word) (s : State) : Host.Outcome State Fault Refusal := done ((s.tick dt).writeMtrnCtrl v)

/-- R268: the place of a mode-register value of a set point. -/
def State.modeKey (_s : State) (c sub r f reg : Nat) : Nat := (((c * 2 + sub) * 8 + r) * 4 + f) * 256 + reg

/-- R269, R284: a run ends with the lanes that failed, or the data read, and the bursts with an error. -/
def State.trainingDone (s : State) (fails errors : Nat) : State :=
  match s.mem.training with
  | none => s
  | some (op, c, sub, r) =>
    let f := if op ≤ 2 then fails % 1024 else if op = 4 then fails % 256 else 0
    let e := if op ≤ 2 then min (min errors (s.fld Reg.mtrnCtrl 15 8 * 256)) 4095 else 0
    let p := s.rn Reg.mtrnPattern
    let s1 := { s with mem := { s.mem with training := none } }
    let s2 := if op = 3 then
        { s1 with
          tx := s1.tx ++ [.dimm c sub r (bitsOf p 15 8) (p % 256)]
          mem := { s1.mem with mode := mset s1.mem.mode (s.modeKey c sub r (s.fld Reg.memFspStat 1 0) (bitsOf p 15 8)) 0 (p % 256) } }
      else s1
    (s2.setRn Reg.mtrnResult (f + e * 65536 + 2 ^ 31)).clrBit Reg.mtrnCtrl 0

def execTrainingDone (dt : Nat) (fails errors : Nat) (s : State) : Host.Outcome State Fault Refusal :=
  done ((s.tick dt).trainingDone fails errors)

/-- R270, R284: the delay bank entry that DLY_IDX names; CA entries have no lane. -/
def State.dlyKey (s : State) : Nat :=
  let i := s.rn Reg.mtrnDlyIdx % 2 ^ 16
  if bitsOf i 15 13 = 4 then putBits i 12 9 0 else i

/-- R270: a write to DLY_DATA. -/
def State.writeDly (s : State) (v : Word) : State :=
  let i := s.rn Reg.mtrnDlyIdx
  if s.locked 0x109 then (s.violate Reg.mtrnDlyData 1).lockViolation
  else if s.bit Reg.mtrnTrained (4 * bitsOf i 2 0 + bitsOf i 5 4) then (s.violate Reg.mtrnDlyData 1).lockViolation
  else { s with mem := { s.mem with dly := mset s.mem.dly s.dlyKey 0 (v.toNat % 1024) } }

def execDlyDataWrite (dt : Nat) (_req : Nat) (v : Word) (s : State) : Host.Outcome State Fault Refusal := done ((s.tick dt).writeDly v)

/-- R270: a write to TRAINED sets bits only. -/
def State.writeTrained (s : State) (v : Word) : State :=
  let old := s.rn Reg.mtrnTrained
  if old ||| v.toNat = old then s
  else if s.locked 0x109 then (s.violate Reg.mtrnTrained 1).lockViolation
  else (s.setRn Reg.mtrnTrained (old ||| v.toNat)).publish

def execTrainedWrite (dt : Nat) (_req : Nat) (v : Word) (s : State) : Host.Outcome State Fault Refusal := done ((s.tick dt).writeTrained v)

/-! ### The map and the spare (R256, R257, R259) -/

/-- R256: the mapped capacity of a channel in bytes. -/
def State.mappedBytes (s : State) (c : Nat) : Nat := (s.mappedRanks c).length * s.rankBytes c

/-- R257: the interleave sets as a whole are sound, and the channels that the word written to set `k` names, whatever its EN. -/
def State.ilvSound (s : State) (k : Nat) : Bool :=
  let l := s.ilvs.filterMap id
  let apart := (List.range l.length).all fun i => (List.range l.length).all fun j =>
    i = j || match l[i]?, l[j]? with
      | some a, some b => a.base + a.size ≤ b.base || b.base + b.size ≤ a.base
      | _, _ => true
  let named := bitList (s.fld (Reg.memIlv k) 7 0) 8
  let counts := [1, 2, 4, 8].contains named.length && named.all fun c => s.bit (Reg.mcCtrl c) 0
  let room := (List.range 8).all fun c =>
    l.foldl (fun n i => if i.channels.contains c then n + i.size / i.channels.length else n) 0 ≤ s.mappedBytes c
  apart && counts && room

/-- R257: a write to ILVk. -/
def State.writeIlv (s : State) (k : Nat) (v : Word) : State :=
  let o := Reg.memIlv k
  let (t, _) := s.landAt o v
  if s.locked 0x108 then t
  else if !t.ilvSound k || (t.reg o ≠ s.reg o && s.bit o 31 && s.setAdmitted k) then s.violate o 3
  else t

def execIlvWrite (dt : Nat) (_req : Nat) (k : Fin 4) (v : Word) (s : State) : Host.Outcome State Fault Refusal :=
  done ((s.tick dt).writeIlv k v)

/-- R259: without RANK_TOP, every populated channel maps a power of two of ranks. -/
def State.ranksFit (s : State) : Bool :=
  s.bit Reg.memMap 2 || (List.range 8).all fun c => s.logicalRanks c = 0 || [1, 2, 4, 8].contains (s.mappedRanks c).length

/-- R256, R259: a write to MCn.SPARE. -/
def State.writeSpare (s : State) (c : Nat) (v : Word) : State :=
  let o := Reg.mcSpare c
  let (t, _) := s.landAt o v
  if t.reg o = s.reg o then t
  else if (t.bit o 3 && s.logicalRanks c ≤ 1) || !t.ranksFit then s.violate o 3
  else t

def execSpareWrite (dt : Nat) (_req : Nat) (mc : Fin 8) (v : Word) (s : State) : Host.Outcome State Fault Refusal :=
  done ((s.tick dt).writeSpare mc v)

/-- R259, R283: a write to MAP or HASH, refused while a set is enabled. -/
def State.writeMap (s : State) (off : Nat) (v : Word) : State :=
  let (t, _) := s.landAt off v
  if s.locked 0x108 then t
  else if !(s.ilvs.filterMap id).isEmpty || !t.ranksFit then s.violate off 3
  else t

/-! ### Migration and scrub (R275, R277) -/

/-- R259: the key of a byte offset of a rank. -/
def State.rankKey (s : State) (c r off : Nat) : Nat :=
  locKey c r (decodeCa (s.kLog c) (s.bankBits c) 1 (s.rankBytes c) true (s.bit Reg.memHash 1) off)

/-- R275: a burst of 64 bytes is copied from one place to another, poisoned where `bad`. -/
def State.copyBurst (s : State) (a b : Nat) (bad : Bool) : State :=
  { s with
    dram := mrun s.dram b ((List.range 64).map fun j => mget s.dram (a + j) 0)
    poison := mset s.poison (b / 64) false bad }

/-- R275: one unit is copied; the last one ends the migration. -/
def State.migrate (s : State) (c : Nat) (errors : List Nat) : State :=
  let o := Reg.mcMigrStat c
  if !s.bit o 6 || s.bgHeld 2 || s.memStill || s.srState c ≠ 0 then s
  else
    let m := s.memChan c
    let r0 := s.fld o 2 0
    let r1 := s.fld o 5 3
    let s1 := (List.range 4).foldl (fun s i =>
      let off := m.migPos * 256 + 64 * i
      let a := s.rankKey c r0 off
      let b := s.rankKey c r1 off
      let bad := mget s.poison (a / 64) false || errors.getD i 0 = 2
      let s2 := s.copyBurst a b bad
      if errors.getD i 0 = 1 then (s2.incr (Reg.mcEccCeCnt c)).setBit (Reg.mcStat c) 0 |>.faultEvent 1 (8 * c + r0) false 0 else s2) s
    let s2 := s1.setMemChan c { m with migPos := m.migPos + 1 }
    let s3 := s2.setFld o 29 12 ((m.migPos + 1) * 256 / 2 ^ 20)
    if (m.migPos + 1) * 256 < s.rankBytes c then s3
    else (((s3.clrBit o 6).setBit o 7).setBit (Reg.mcStat c) 3).setBit (Reg.mcSrStat c) (8 + r0)

def execMigrationUnit (dt : Nat) (mc : Fin 8) (errors : List Nat) (s : State) : Host.Outcome State Fault Refusal :=
  done ((s.tick dt).migrate mc errors)

/-- R277: the mapped bursts, and the address of the n-th. -/
def State.mappedBursts (s : State) : Nat := (s.ilvs.filterMap id).foldl (fun n i => n + i.size / 64) 0
def scrubAddr : List IlvSet → Nat → Nat
  | [], _ => 0
  | i :: r, n => if n < i.size / 64 then i.base + 64 * n else scrubAddr r (n - i.size / 64)

/-- R277: the patrol scrub reads the next mapped burst. -/
def State.patrol (s : State) (errors : List Nat) : State :=
  if !s.bit Reg.memScrub 0 || s.bgHeld 4 || s.memStill || s.mappedBursts = 0 then s
  else
    let a := scrubAddr (s.ilvs.filterMap id) s.mem.scrubAt
    let next := s.mem.scrubAt + 1
    let last := s.mappedBursts ≤ next
    let s1 := { s with mem := { s.mem with scrubAt := if last then 0 else next } }.setBitIf last Reg.memStat 4
    match s.place a with
    | none => s1
    | some (c, r, _) =>
      let s1 := s1.reachChan c
      if s.burstPoisoned a then s1.countPoison 1
      else match eccOutcome errors with
        | 0 => s1
        | 1 => s1.eccCorrected c r a
        | _ => s1.eccUncorrectable c r a

def execPatrolScrub (dt : Nat) (errors : List Nat) (s : State) : Host.Outcome State Fault Refusal := done ((s.tick dt).patrol errors)

/-! ### Self-refresh (R278-R281) -/

/-- Some granule of a range lies where `p` says. -/
def State.rangeIn (s : State) (a len : Nat) (p : Nat → Nat → Bool) : Bool :=
  let g := 2 ^ granLog (s.fld Reg.memMap 1 0)
  (List.range (cdiv (a % g + len) g)).any fun i => match s.place (a / g * g + i * g) with
    | some (c, r, _) => p c r
    | none => false

/-- R158: N_tab: the entries of the tables, over all assigned tiles. -/
def State.nTab (s : State) : Nat := ((s.tileList.filter (·.2.given)).map fun x => x.2.pixBase + x.2.w * x.2.h).foldl max 0

/-- R158: the calibration and wear tables: base and length. -/
def State.tableRanges (s : State) : List (Nat × Nat) :=
  let n := s.nTab
  [(s.rn64 Reg.lampCalLo % 2 ^ 41, 8 * n), (s.rn64 Reg.lampWearLo % 2 ^ 41, 8 * n)]

/-- R278: flow buffers and capture buffers. -/
def State.bufferRanges (s : State) : List (Nat × Nat) :=
  (((List.range 16).filter fun f => (s.flw f).word 0 % 2 = 1).map fun f =>
      ((s.flw f).fetchSet.addr0, (s.flw f).depth * (s.flw f).bufStep)) ++
    (([0, 1, 2, 3].filter fun cv => s.bit (Reg.scnCaptCtrl cv) 0).map fun cv =>
      (s.captAddr cv 0, (s.captAddr cv 1 - s.captAddr cv 0) * (s.fld (Reg.scnCaptCtrl cv) 2 1 + 1)))

/-- R278: self-refresh is refused with ADMITTED. -/
def State.srAdmitted (s : State) (c : Nat) : Bool :=
  s.admittedOn c || s.tableRanges.any (fun x => s.rangeIn x.1 x.2 fun d _ => d = c) ||
    (s.bit (Reg.mcSrCtrl c) 1 && s.bufferRanges.any fun x =>
      s.rangeIn x.1 x.2 fun d r => d = c && !s.bit (Reg.mcSrCtrl c) (8 + r))

/-- R278, R279: REQ applies as 1. -/
def State.srAsk (s : State) (c : Nat) : State :=
  if s.srState c ≠ 0 then s
  else if s.mem.fsp.isSome then
    { (s.setFld (Reg.mcSrStat c) 7 4 3) with mem := { s.mem with srWait := if s.mem.srWait.contains c then s.mem.srWait else s.mem.srWait ++ [c] } }
  else if s.srAdmitted c then s.setFld (Reg.mcSrStat c) 7 4 1
  else (s.setFld (Reg.mcSrStat c) 7 4 0).setFld (Reg.mcSrStat c) 2 0 1

/-- R281: ranks leave maximum power saving mode and are zeroed; a retired rank never leaves it. -/
def State.leaveMpsm (s : State) (c : Nat) : State :=
  let back := (List.range 8).filter fun r => s.bit (Reg.mcSrStat c) (8 + r) && !s.isRetired (resKey 1 (8 * c + r)) &&
    (!s.bit (Reg.mcSrCtrl c) 0 || s.bit (Reg.mcSrCtrl c) (8 + r)) && !(s.memChan c).zeroing.contains r
  if back.isEmpty then s
  else (s.setMemChan c { (s.memChan c) with zeroing := (s.memChan c).zeroing ++ back }).setBit (Reg.mcSrStat c) 3

/-- R281: a KEEP mask splits a stack; the logical ranks of a stack are taken to be consecutive. -/
def State.keepSplits (s : State) (c keep : Nat) : Bool :=
  let ph := s.fld (Reg.mcRanks c) 3 0
  let n := if ph = 0 then 1 else s.logicalRanks c / ph
  s.bit (Reg.mcRanks c) 20 && (List.range ph).any fun p =>
    let l := (List.range n).map fun i => keep.testBit (p * n + i)
    l.any id && !l.all id

/-- R278, R281: a write to SR_CTRL. -/
def State.writeSrCtrl (s : State) (c : Nat) (v : Word) : State :=
  let o := Reg.mcSrCtrl c
  let split := s.keepSplits c (bitsOf v.toNat 15 8)
  let v1 := if split then wput v 15 8 (s.fld o 15 8) else v
  let (s1, _) := s.landAt o v1
  let s2 := if split then s1.violate o 3 else s1
  let s3 := s2.leaveMpsm c
  if s3.bit o 0 then (if s.bit o 0 then s3 else s3.srAsk c)
  else
    let s4 := { s3 with mem := { s3.mem with srWait := s3.mem.srWait.filter (· ≠ c) } }
    match s4.srState c with
    | 1 => s4.setFld (Reg.mcSrStat c) 2 0 0
    | 2 => (s4.setFld (Reg.mcSrStat c) 2 0 3).setMemChan c { (s4.memChan c) with exitAt := s.now }
    | _ => s4

def execSrRequest (dt : Nat) (_req : Nat) (mc : Fin 8) (v : Word) (s : State) : Host.Outcome State Fault Refusal :=
  done ((s.tick dt).writeSrCtrl mc v)

/-- R279: the queues are empty, and the ranks enter self-refresh. -/
def State.srEntry (s : State) (c : Nat) : State :=
  let m := s.memChan c
  let quiet := [0, 1].all fun k => let x := s.subChan c k; x.reads.isEmpty && x.writes.isEmpty && x.waiting.isEmpty
  if s.srState c = 0 && s.fld (Reg.mcSrStat c) 7 4 = 2 && m.last = s.now then s.setBit (Reg.mcStat c) 5
  else if s.srState c ≠ 1 || !quiet || m.owed.any (fun o => 0 < o.2) || s.memStill then s
  else
    let s1 := (s.setFld (Reg.mcSrStat c) 2 0 2).setMemChan c { m with exitAt := s.now }
    if s.bit (Reg.mcSrCtrl c) 1 then
      let out := (List.range (s.logicalRanks c)).filter fun r => !s.bit (Reg.mcSrCtrl c) (8 + r)
      out.foldl (fun s r => s.setBit (Reg.mcSrStat c) (8 + r)) s1
    else s1

def execSrEntry (dt : Nat) (mc : Fin 8) (s : State) : Host.Outcome State Fault Refusal := done ((s.tick dt).srEntry mc)

/-- R279, R280: the exit timing is met. -/
def State.srExitDone (s : State) (c : Nat) : State :=
  if s.srState c ≠ 3 then s
  else
    let s1 := ((s.setFld (Reg.mcSrStat c) 2 0 0).setFld (Reg.mcSrStat c) 31 16 (min 65535 (s.now - (s.memChan c).exitAt))).setMemChan c
      { (s.memChan c) with last := s.now }
    s1.refreshAnew c

def execSrExitDone (dt : Nat) (mc : Fin 8) (s : State) : Host.Outcome State Fault Refusal := done ((s.tick dt).srExitDone mc)

/-- R279: no request has come for IDLE µs. -/
def State.srIdle (s : State) (c : Nat) : State :=
  if s.srState c = 0 && s.bit (Reg.mcSrCtrl c) 0 && (s.memChan c).last + s.fld (Reg.mcSrCtrl c) 31 16 * 1000 ≤ s.now then s.srAsk c
  else s

def execSrIdle (dt : Nat) (mc : Fin 8) (s : State) : Host.Outcome State Fault Refusal := done ((s.tick dt).srIdle mc)

/-- The bytes and the poison of a rank dropped: every burst zero and valid. -/
def State.zeroRank (s : State) (c r : Nat) : State :=
  let lo := c * 2 ^ 44 + r * 2 ^ 41
  let hi := lo + 2 ^ 41
  { s with dram := s.dram.filter (fun x => x.1 < lo || hi ≤ x.1), poison := s.poison.filter fun x => x.1 * 64 < lo || hi ≤ x.1 * 64 }

/-- R281: a rank has been zeroed and is mapped again. -/
def State.zeroingDone (s : State) (c r : Nat) : State :=
  let m := s.memChan c
  if !m.zeroing.contains r then s
  else
    let left := m.zeroing.filter (· ≠ r)
    let s1 := ((s.zeroRank c r).clrBit (Reg.mcSrStat c) (8 + r)).setMemChan c { m with zeroing := left }
    (if left.isEmpty then s1.clrBit (Reg.mcSrStat c) 3 else s1).setBit (Reg.mcStat c) 11

def execZeroingDone (dt : Nat) (mc rank : Fin 8) (s : State) : Host.Outcome State Fault Refusal :=
  done ((s.tick dt).zeroingDone mc rank)

/-- R272: the change completes; what waited for it goes on. -/
def State.fspDone (s : State) (begun : List Nat) : State :=
  match s.mem.fsp with
  | none => s
  | some (f, t0) =>
    let s0 := { s with mem := { s.mem with fsp := none, srWait := [], trainWait := false } }.arrivalOrder
    let s1 := s0.each ((List.range 8).filter fun c => s.bit (Reg.mcCtrl c) 0) fun c s => s.refreshAnew c
    let s2 := ((s1.setFld Reg.memFspStat 1 0 f).clrBit Reg.memFspStat 2).setFld Reg.memFspStat 31 16 (min 65535 (s.now - t0))
    let s3 := ((s2.setBit Reg.memStat 0).clrBit Reg.memFspCtrl 2).pll1Up
    let s4 := if s.mem.trainWait then s3.trainStart else s3
    let s5 := s4.each s.mem.srWait fun c s => s.srAsk c
    s5.pumpFires begun none

def execFspChangeDone (dt : Nat) (begun : List Nat) (s : State) : Host.Outcome State Fault Refusal := done ((s.tick dt).fspDone begun)

end Sys2Proof.Machine
end

