-- ==== Sys2Proof/Machine/Dma.lean ====
section
/-! DEFINITION. The DMA engine (R285-R304): descriptors, units, chains, halts, triggers, hand-overs, reservations and
spare channels. -/
namespace Sys2Proof.Machine

def State.dmaCh (s : State) (c : Nat) : DmaChan := mget s.dma c {}
def State.setDmaCh (s : State) (c : Nat) (x : DmaChan) : State := { s with dma := mset s.dma c {} x }

/-- R304: the state of a channel: 0 IDLE, 1 RUN, 2 PAUSED, 3 SPARE. -/
def State.dmaState (s : State) (c : Nat) : Nat := s.fld (Reg.dmaStat c) 22 20
def State.setDmaState (s : State) (c x : Nat) : State := s.setFld (Reg.dmaStat c) 22 20 x

/-- R302: the engine context a channel runs on. -/
def State.dmaContext (s : State) (c : Nat) : Nat := ((s.spareOf (resKey 5 c)).map (· % 128)).getD c

/-- R302: the channel has stopped for good. -/
def State.dmaLost (s : State) (c : Nat) : Bool := s.isLost (resKey 5 c) || s.isLost (resKey 5 (s.dmaContext c))

def DmaRun.op (r : DmaRun) : Nat := r.flags % 4
def DmaRun.srcSpace (r : DmaRun) : Nat := r.spaces % 8
def DmaRun.dstSpace (r : DmaRun) : Nat := r.spaces / 16 % 8

/-- R288: the bytes of the transfer. -/
def DmaRun.total (r : DmaRun) : Nat := if r.op = 3 then 0 else r.len * max 1 r.rows

/-- R288, R291: the descriptor is refused at load; a NOP ignores LENGTH, ROWS and both addresses, and a FILL its source. -/
def DmaRun.badFormat (r : DmaRun) : Bool :=
  let o := r.op
  let ss := r.srcSpace
  let ds := r.dstSpace
  let sg := r.flags.testBit 2 || r.flags.testBit 3
  5 ≤ ss || 5 ≤ ds || (o ≠ 1 && ss = 3) || ds = 4 ||
    (o ≠ 3 && (2 ^ 32 ≤ r.total || r.len = 0 || (sg && 1 < r.rows) || (o = 1 && r.flags.testBit 2) || (o = 2 && 2 ≤ ds) ||
      (ds = 3 && (bitsOf r.dst 10 8 = 0 || 6 ≤ bitsOf r.dst 10 8))))

/-- R287: a descriptor as its 64 bytes spell it. -/
def DmaRun.parse (r : DmaRun) (l : List Byte) : DmaRun :=
  let n := fun i k => ofLe (sliceB l i k)
  let f := n 0 4
  { r with
    loaded := true, flags := f, spaces := n 4 4, src := n 8 8, dst := n 16 8, len := n 24 4, rows := n 28 2
    sp := n 32 4, dp := n 36 4, pat := n 40 8, next := n 48 8
    snext := if f.testBit 2 then some (n 8 8) else none
    dnext := if f.testBit 3 then some (n 16 8) else none }

/-! ### Chain ends -/

/-- R293, R296: write RESULT and STATUS back into the descriptor. -/
def State.writeBack (s : State) (r : DmaRun) (result status : Nat) : State :=
  let d := leBytes 4 result ++ leBytes 4 status
  if r.host then { s with tx := s.tx ++ [.host (r.addr + 56) d] } else s.wrBytes (r.addr + 56) d

/-- R301: a hand-over: NEXT is copied into DESC and the shadow is consumed. -/
def State.handOver (s : State) (c : Nat) : State :=
  let s := (s.setDmaCh c { (s.dmaCh c) with decided := some s.now }).setBitIf ((s.dmaCh c).written = some s.now) (Reg.dmaStat c) 12
  if !s.bit (Reg.dmaNextValid c) 0 then s
  else
    let s1 := (s.setReg (Reg.dmaDescLo c) (s.reg (Reg.dmaNextLo c))).setReg (Reg.dmaDescHi c) (s.reg (Reg.dmaNextHi c))
    ((s1.setRn (Reg.dmaNextValid c) 0).setDmaCh c { (s1.dmaCh c) with resume := none }).incr (Reg.dmaHandoverCount c)

/-- R294: the channel's trigger source is `src` with index `i`. -/
def State.triggered (s : State) (src i c : Nat) : Bool :=
  s.fld (Reg.dmaTrig c) 2 0 = src && s.fld (Reg.dmaTrig c) 8 3 = i && (src ≠ 3 || 56 ≤ c)

/-- R287: begin a descriptor; one in DRAM is read at once, one in host memory when its bytes come. The number is the halt
code. -/
def State.loadDesc (s : State) (c : Nat) (host : Bool) (a : Nat) : State × Nat :=
  let x := s.dmaCh c
  let r : DmaRun := { host := host, addr := a, serial := x.loads + 1 }
  let put := fun (r : DmaRun) => s.setDmaCh c { x with run := some r, loads := x.loads + 1 }
  if host then (put r, 0)
  else if s.anyUnmapped a 64 || s.anyPoison a 64 then ((put r).reportRead a 64, 11)
  else ((put (r.parse (s.rdBytes a 64))).reach a 64, 0)

/-- R288, R292, R293, R295: what a descriptor that has been read meets at load: the flow buffer it takes, or a halt code; half
of no bytes is accepted at once. -/
def State.checkDesc (s : State) (c : Nat) : State × Nat :=
  match (s.dmaCh c).run with
  | none => (s, 0)
  | some r =>
    if !r.loaded then (s, 0)
    else if r.badFormat then (s, 4)
    else if c < 56 && (r.srcSpace = 2 || r.dstSpace = 2) then (s, 7)
    else if r.total = 0 && r.flags.testBit 6 then
      ((s.setDmaCh c { (s.dmaCh c) with run := some { r with half := true } }).setBit (Reg.dmaStat c) 1, 0)
    else if (r.op = 0 || r.op = 2) && r.srcSpace = 4 then
      let f := bitsOf r.spaces 19 16
      match (s.flw f).newest with
      | some b => (s.setDmaCh c { (s.dmaCh c) with run := some { r with buf := some (f, b) } }, 0)
      | none => (s, 6)
    else (s, 0)

/-- R296: the bytes of the current descriptor that have not been accepted. -/
def DmaRun.residue (r : DmaRun) : Nat := if r.loaded then r.total - r.acc else 0

/-- R296: a halt or an abort ends the chain at a burst boundary; of a descriptor that was not read the residue is 0
(notes/assumptions/72). -/
def State.stopChain (s : State) (c code : Nat) : State :=
  let x := s.dmaCh c
  let s1 := match x.run with
    | none => s
    | some r =>
      let result := match r.miss with | some m => m | none => r.residue
      (s.setRn (Reg.dmaResidue c) r.residue).writeBack r result (code + if r.miss.isSome then 2 ^ 30 else 0)
  let s2 := (s1.setFld (Reg.dmaStat c) 19 16 code).setBit (Reg.dmaStat c) (if code = 9 || code = 10 then 3 else 2)
  (s2.setBitIf (code = 10) (Reg.dmaStat c) 4).setDmaCh c { x with run := none, resume := none } |>.setDmaState c 0

/-- R294: one start of a channel that is idle: hand-over if NEXT_VALID = 1, and load DESC. A load that fails halts. -/
def State.startIdle (s : State) (c : Nat) : State :=
  let s1 := s.handOver c
  let (host, a) := ((s1.dmaCh c).resume).getD
    (s1.bit (Reg.dmaDescHi c) 31, s1.rn (Reg.dmaDescLo c) / 64 * 64 + s1.fld (Reg.dmaDescHi c) 30 0 * 2 ^ 32)
  let s2 := (s1.setDmaCh c { (s1.dmaCh c) with resume := none }).setDmaState c 1
  let (s3, e) := s2.loadDesc c host a
  if e ≠ 0 then s3.stopChain c e
  else
    let (s4, e) := s3.checkDesc c
    if e ≠ 0 then s4.stopChain c e else s4

/-- R294, R302: a start reaches a channel. -/
def State.startChan (s : State) (c : Nat) : State :=
  if !s.bit (Reg.dmaCtrl c) 0 || s.dmaState c = 3 || s.dmaLost c then s
  else if s.dmaState c = 0 then s.startIdle c
  else if (s.dmaCh c).pend then s.setBit (Reg.dmaStat c) 10
  else s.setDmaCh c { (s.dmaCh c) with pend := true }

/-- R294, R298: the starts that wait for a chain end: the channel's own, then those of the channels it triggers, and so
on while a start halts at once; a ring of channels that all halt at once is followed `n` chain ends far
(notes/assumptions/128). -/
def State.chainEnds (s : State) : Nat → List Nat → State
  | 0, _ => s
  | _, [] => s
  | n + 1, c :: l =>
    let s1 := if (s.dmaCh c).pend && s.dmaState c = 0 then
        let t := s.setDmaCh c { (s.dmaCh c) with pend := false }
        t.startChan c
      else s
    let again := if (s.dmaCh c).pend && s.dmaState c = 0 && s1.dmaState c = 0 && s1.bit (Reg.dmaCtrl c) 0 then [c] else []
    let hit := (List.range 64).filter fun d => s1.triggered 2 c d
    let s2 := s1.each hit fun d s => s.startChan d
    let ended := hit.filter fun d => s1.dmaState d = 0 && s2.dmaState d = 0 && s2.bit (Reg.dmaCtrl d) 0 && !s2.dmaLost d
    s2.chainEnds n (l ++ again ++ ended)

/-- R296: a halt, with what the chain end brings. -/
def State.halt (s : State) (c code : Nat) : State := (s.stopChain c code).chainEnds 128 [c]

/-- R294: a start, with the chain ends of starts that halt at once. -/
def State.start (s : State) (c : Nat) : State :=
  let s1 := s.startChan c
  if s.dmaState c = 0 && s.bit (Reg.dmaCtrl c) 0 && !s.dmaLost c && s1.dmaState c = 0 then s1.chainEnds 128 [c] else s1

/-- R302: a withheld channel's page discards a write with KIND 3. -/
def State.onChannel (s : State) (c off : Nat) (f : State → State) : State := if s.dmaState c = 3 then s.violate off 3 else f s

/-- R296: an abort. -/
def State.abort (s : State) (c : Nat) : State := if s.dmaState c = 1 || s.dmaState c = 2 then s.halt c 9 else s

def execAbort (dt : Nat) (_req : Nat) (ch : Fin 64) (s : State) : Host.Outcome State Fault Refusal :=
  done ((s.tick dt).onChannel ch (Reg.dmaAbort ch) fun t => t.abort ch)

/-- R294: an event timer fires. -/
def State.eventTimer (s : State) (t : Nat) : State :=
  let p := s.fld (Reg.dmagTimer t) 29 0 * 1000
  if s.bit (Reg.dmagTimer t) 31 && p ≠ 0 && s.now % p = 0 then
    s.each ((List.range 64).filter fun c => s.triggered 1 t c) fun c s => s.start c
  else s

/-- R295: an event request line that has been asserted starts the channels that wait on it. -/
def State.requestLine (s : State) (n : Nat) : State :=
  if !s.edges.contains n then s
  else
    let s1 := { s with edges := s.edges.filter (· ≠ n) }
    s1.each ((List.range 64).filter fun c => s1.triggered 3 n c) fun c s => s.start c

/-! ### Units -/

/-- R287: the address of byte `i` of a side, and how many bytes follow it in one piece. -/
def sideAt (sg : Bool) (seg : List (Nat × Nat)) (base pitch len rows i : Nat) : Option (Nat × Nat) :=
  if sg then
    let rec go : List (Nat × Nat) → Nat → Option (Nat × Nat)
      | [], _ => none
      | (a, n) :: r, k => if k < n then some (a + k, n - k) else go r (k - n)
    go seg i
  else if len = 0 then none
  else if rows ≤ 1 then some (base + i, len - i)
  else some (base + i / len * pitch + i % len, len - i % len)

def DmaRun.srcAt (r : DmaRun) (i : Nat) : Option (Nat × Nat) := sideAt (r.flags.testBit 2) r.sseg r.src r.sp r.len r.rows i
def DmaRun.dstAt (r : DmaRun) (i : Nat) : Option (Nat × Nat) := sideAt (r.flags.testBit 3) r.dseg r.dst r.dp r.len r.rows i

/-- The bytes that the known segments of a list cover. -/
def segBytes (l : List (Nat × Nat)) : Nat := l.foldl (fun n x => n + x.2) 0

/-- R290: take one entry of a list; none: the entry before was the last. -/
def takeEntry (seg : List (Nat × Nat)) (l : List Byte) (at_ : Nat) : List (Nat × Nat) × Option Nat :=
  let f := ofLe (sliceB l 12 4)
  let a := ofLe (sliceB l 0 8)
  if f.testBit 1 then (seg, some a)
  else (seg ++ [(a, ofLe (sliceB l 8 4))], if f.testBit 0 then none else some (at_ + 16))

/-- R290: read a list in DRAM until it covers byte `i`. The flag says that an entry could not be read. -/
def State.walkList (s : State) : Nat → Nat → List (Nat × Nat) → Option Nat → List (Nat × Nat) × Option Nat × Bool
  | 0, _, seg, nx => (seg, nx, false)
  | n + 1, i, seg, nx =>
    match nx with
    | none => (seg, none, false)
    | some a =>
      if i < segBytes seg then (seg, nx, false)
      else if s.anyUnmapped a 16 || s.anyPoison a 16 then (seg, nx, true)
      else let (seg', nx') := takeEntry seg (s.rdBytes a 16) a; s.walkList n i seg' nx'

/-- R299: the rate granted to a channel in MB/s; 0: none. -/
def State.rsvRate (s : State) (c : Nat) : Nat := ((s.rsv.find? (·.1 = c)).map fun g => g.2.2).getD 0

/-- R299: the bytes, in thousandths, that an engine (0 read, 1 write) may still move at the channel's reserved rate: a bucket
of 64 KiB (notes/assumptions/129). -/
def State.paceLeft (s : State) (c e : Nat) : Nat :=
  let (n, t) := mget (s.dmaCh c).pace e (65536000, 0)
  min 65536000 (n + s.rsvRate c * (s.now - t))

/-- R286, R299: a unit of `n` bytes is within the channel's reserved rate. -/
def State.withinRate (s : State) (c e n : Nat) : Bool := s.rsvRate c ≠ 0 && n * 1000 ≤ s.paceLeft c e

/-- R286: the memory port of a unit's requests: DMA_RSV within the reserved rate, else DMA_BE. -/
def State.dmaPort (s : State) (c e n : Nat) : Nat := if s.withinRate c e n then 4 else 6

/-- R299: a unit within the rate takes its bytes from the bucket. -/
def State.spend (s : State) (c e n : Nat) : State :=
  if s.withinRate c e n then
    s.setDmaCh c { (s.dmaCh c) with pace := mset (s.dmaCh c).pace e (65536000, 0) (s.paceLeft c e - n * 1000, s.now) }
  else s

/-! ### The read engine (R285, R286) -/

/-- R286: what a channel has of the buffer: bytes asked for and not yet written. -/
def DmaRun.buffered (r : DmaRun) : Nat := r.rd - r.acc

/-- R286: the part of the buffer that is given out: each running channel has 1 KiB of its own. -/
def State.bufferUsed (s : State) : Nat :=
  s.dma.foldl (fun n x => match x.2.run with
    | some r => n + max 1024 r.buffered
    | none => n) 0

/-- R286: the channel has room in the 256 KiB buffer for `n` bytes more: in its own 1 KiB, or in what is shared; a granted
channel up to 32 KiB. -/
def State.bufferRoom (s : State) (c n : Nat) (r : DmaRun) : Bool :=
  let h := r.buffered
  h + n ≤ 1024 || ((s.rsvRate c = 0 || h + n ≤ 32768) && s.bufferUsed + max 1024 (h + n) ≤ 262144 + max 1024 h)

/-- The bursts of a range: address and bytes of the range in it. -/
def burstSplit : Nat → Nat → Nat → List (Nat × Nat)
  | 0, _, _ => []
  | fuel + 1, a, n =>
    if n = 0 then []
    else
      let k := min n (64 - a % 64)
      (a, k) :: burstSplit fuel (a + k) (n - k)

/-- R260, R286, R289: the read requests of a unit: whole bursts at their channels. -/
def State.readBursts (s : State) (c port a n : Nat) (r : DmaRun) : State :=
  (burstSplit 8 a n).foldl (fun s x => s.memRequest port x.1 none (some ⟨c, r.serial, r.rd + (x.1 - a), x.1 % 64, x.2⟩)) s

/-- R377: what a unit of the flash FIFO leaves: a read's further bytes move in, and the level lines follow. -/
def Xspi.refill (x : Xspi) : Xspi :=
  let room := 1024 - x.fifo.length
  let y := { x with fifo := x.fifo ++ x.rest.take room, rest := x.rest.drop room }
  { y with levels := y.levels.filter fun l => l ≠ 16 || 256 ≤ y.fifo.length || (y.rest.isEmpty && !y.fifo.isEmpty) }

/-- R287, R292: where a byte of the source lies in DRAM, and how many follow in one piece. -/
def State.dramSrc (s : State) (r : DmaRun) (i : Nat) : Option (Nat × Nat) :=
  (r.srcAt i).map fun x => match r.buf with
    | some (f, b) => ((s.flw f).fetchSet.addr0 + b * (s.flw f).bufStep + x.1, x.2)
    | none => x

/-- R285, R286, R290, R292, R295: the read engine issues one read unit of a channel; none where it has none to issue or no
room for it. A unit that fails is marked with its place and code. -/
def State.readUnit (s : State) (c : Nat) : Option State :=
  match (s.dmaCh c).run with
  | none => none
  | some r =>
    let put := fun (s : State) (r : DmaRun) => s.setDmaCh c { (s.dmaCh c) with run := some r }
    if s.dmaState c ≠ 1 || !r.loaded || r.op = 1 || r.srcSpace = 1 || r.bad.isSome || r.total ≤ r.rd ||
        (s.bgHeld 5 && !s.bit (Reg.dmaCtrl c) 2) then none
    else
      let (ss, sn, se) := if r.host then (r.sseg, r.snext, false) else s.walkList 4096 r.rd r.sseg r.snext
      let r := { r with sseg := ss, snext := sn }
      if se then some (put (s.reportRead (sn.getD 0) 16) { r with bad := some (r.rd, 11) })
      else if r.flags.testBit 2 && segBytes ss ≤ r.rd then
        if sn.isNone then some (put s { r with bad := some (r.rd, 5) }) else none
      else if r.srcSpace = 2 then
        let n := min 256 (r.total - r.rd)
        if !s.bufferRoom c n r || !s.xspi.levels.contains 16 || s.xspi.fifo.length < n then none
        else
          let s1 := put s { r with rd := r.rd + n, got := r.got ++ [(r.rd, s.xspi.fifo.take n, false)] }
          some ({ s1 with xspi := { s1.xspi with fifo := s1.xspi.fifo.drop n }.refill }.spend c 0 n)
      else match s.dramSrc r r.rd with
        | none => none
        | some (a, k) =>
          let n := min (min (r.total - r.rd) k) (256 - a % 256)
          if !s.bufferRoom c n r then none
          else if s.anyUnmapped a n then some ((put s { r with bad := some (r.rd, 3) }).setBit Reg.memStat 2)
          else some (((put s { r with rd := r.rd + n }).readBursts c (s.dmaPort c 0 n) a n r).spend c 0 n)

/-- R286: the read engine serves one channel: reserved channels within their rate first, then every other, each tier round
robin. It takes a turn whenever a command of the engine or a memory channel ends (notes/assumptions/129). -/
def State.readTurn (s : State) : State :=
  let order := fun (last : Nat) => (List.range 64).map fun i => (last + 1 + i) % 64
  let serve := fun (l : List Nat) => l.findSome? fun c => (s.readUnit c).map fun t => (c, t)
  match serve ((order s.dmaTurn.1).filter fun c => s.withinRate c 0 256) with
  | some (c, t) => { t with dmaTurn := (c, s.dmaTurn.2) }
  | none => match serve ((order s.dmaTurn.2).filter fun c => !s.withinRate c 0 256) with
    | some (c, t) => { t with dmaTurn := (s.dmaTurn.1, c) }
    | none => s

def execStart (dt : Nat) (_req : Nat) (ch : Fin 64) (s : State) : Host.Outcome State Fault Refusal :=
  done ((s.tick dt).onChannel ch (Reg.dmaStart ch) fun t => (t.start ch).readTurn)

def execEventTimer (dt : Nat) (timer : Fin 16) (s : State) : Host.Outcome State Fault Refusal :=
  done ((s.tick dt).eventTimer timer).readTurn

def execRequestLine (dt : Nat) (line : Nat) (s : State) : Host.Outcome State Fault Refusal :=
  done ((s.tick dt).requestLine line).readTurn

/-- R261, R286: a command slot, and the turn of the read engine that follows. -/
def execCommandSlot (dt : Nat) (mc : Fin 8) (sub : Fin 2) (errors : List Nat) (s : State) : Host.Outcome State Fault Refusal :=
  done ((s.tick dt).commandSlot mc sub errors).readTurn

/-! ### The write engine -/

/-- The next bytes of the buffer from a place on, with their poison, as far as they have come. -/
def takePieces (got : List (Nat × List Byte × Bool)) : Nat → Nat → Nat → List (Byte × Bool)
  | 0, _, _ => []
  | fuel + 1, pos, n =>
    if n = 0 then []
    else match got.find? fun p => p.1 ≤ pos && pos < p.1 + p.2.1.length with
      | none => []
      | some (p, l, bad) =>
        let x := (l.drop (pos - p)).take n
        x.map (fun b => (b, bad)) ++ takePieces got fuel (pos + x.length) (n - x.length)

/-- R285, R291: the length of the next write unit. -/
def DmaRun.unitLen (r : DmaRun) : Nat :=
  let left := r.total - r.acc
  match r.dstSpace with
  | 0 | 1 => match r.dstAt r.acc with
    | some (a, n) => min (min left n) (256 - a % 256)
    | none => 0
  | _ => min left (min 256 (if r.len = 0 then 0 else r.len - r.acc % r.len))

/-- R291: a row that has come whole is queued as one frame, with the headers of R197 and R198. -/
def State.portFrame (s : State) (r : DmaRun) (row : List Byte) : State :=
  let p := r.dst % 64
  s.send p (bitsOf r.dst 10 8) (ofBe (sliceB row 1 1)) (ofBe (sliceB row 2 2)) (row.drop 8)

/-- R233, R291: the queue of a PORT destination holds its limit: the row's frame has no room and is not to be dropped. -/
def State.portFull (s : State) (r : DmaRun) : Bool :=
  let p := r.dst % 64
  let q := bitsOf r.dst 10 8
  let n := max 64 (r.len + 18)
  !s.oversize p q n && (s.noRoom p q n || !((s.prt p).queue (waitQueue q)).isEmpty)

/-- R264, R286, R293: the write queues take the bursts of a unit, all of them or none; `bad` names poisoned bytes by place. -/
def State.writeBursts (s : State) (port : Nat) (bad : Nat → Nat → Bool) : List (Nat × List Byte) → Option State
  | [] => some s
  | (a, l) :: rest =>
    match s.burstReq port a (some (burstBytes a l)) none with
    | none => none
    | some (c, k, q) =>
      let x := s.subChan c k
      if x.room q && x.waiting.all (·.addr ≠ q.addr) then
        let s1 := (s.reachChan c).joinSub c k q
        (if bad a l.length then s1.setPoison a true else s1).writeBursts port bad rest
      else none

/-- R288-R291, R297: a unit's bytes go to the destination: the halt code that ends it, or the state with the unit accepted;
none: the destination does not take it now. -/
def State.dstWrite (s : State) (c : Nat) (r : DmaRun) (d : List (Byte × Bool)) : Option (State × Nat) :=
  let l := d.map (·.1)
  let bad := d.any (·.2)
  let a := ((r.dstAt r.acc).map (·.1)).getD 0
  match r.dstSpace with
  | 0 =>
    if s.anyUnmapped a l.length then some (s.setBit Reg.memStat 2, 3)
    else
      let part := (burstSplit 8 a l.length).map fun x => (x.1, sliceB l (x.1 - a) x.2)
      let hit := fun (b n : Nat) => ((d.drop (b - a)).take n).any (·.2)
      (s.writeBursts (s.dmaPort c 1 l.length) hit part).map fun t =>
        ((t.spend c 1 l.length).setBitIf bad (Reg.dmaStat c) 7, 0)
  | 1 => if bad then some (s, 2) else some ({ s with tx := s.tx ++ [.host a l] }, 0)
  | 2 =>
    if bad then some (s, 2)
    else some ({ s with xspi := { s.xspi with prog := s.xspi.prog ++ l, levels := s.xspi.levels.filter (· ≠ 17) } }, 0)
  | _ =>
    if bad then some (s, 2)
    else if (r.row ++ l).length < r.len then some (s, 0) else some (s.portFrame r (r.row ++ l), 0)

/-- R291, R295, R300, R318: the destination may be given a unit now. -/
def State.mayIssue (s : State) (c : Nat) (r : DmaRun) : Bool :=
  s.dmaState c = 1 && !(s.bgHeld 5 && !s.bit (Reg.dmaCtrl c) 2) && !(r.dstSpace = 2 && !s.xspi.levels.contains 17) &&
    !(r.op ≠ 3 && r.dstSpace = 3 && s.portFull r)

/-- R288, R293: `n` bytes of the descriptor have been accepted. -/
def State.accepted (s : State) (c : Nat) (r : DmaRun) (l : List Byte) : State :=
  let row := r.row ++ l
  let acc := r.acc + l.length
  let half := r.flags.testBit 6 && !r.half && cdiv r.total 2 ≤ acc
  let r1 := { r with
    acc := acc, half := r.half || half, tries := 0
    row := if r.len ≤ row.length then [] else row
    got := r.got.filter fun p => acc < p.1 + p.2.1.length }
  (s.setDmaCh c { (s.dmaCh c) with run := some r1 }).setBitIf half (Reg.dmaStat c) 1

/-- R288: COMPARE a unit. -/
def State.compareUnit (s : State) (c : Nat) (r : DmaRun) (a b : List Byte) : State :=
  let m := (a.zip b).findIdx? fun x => x.1 ≠ x.2
  let r1 := match r.miss, m with
    | none, some k => { r with miss := some (r.acc + k) }
    | _, _ => r
  let s1 := (s.accepted c { r1 with row := [] } a).setBitIf m.isSome (Reg.dmaStat c) 6
  let s2 := match (s1.dmaCh c).run with
    | some r2 => s1.setDmaCh c { (s1.dmaCh c) with run := some { r2 with row := [] } }
    | none => s1
  if m.isSome && r.flags.testBit 8 then s2.halt c 8 else s2

/-- R285, R286, R297: the bytes of the next write unit, or the halt code of the read that failed before it; none: they have not
all come. Bytes of host memory come with the command. -/
inductive UnitData
  | bytes (l : List (Byte × Bool))
  | code (n : Nat)
  | wait
  deriving DecidableEq, Repr

/-- R285: what the write engine finds in the buffer for a unit of `n` bytes. -/
def DmaRun.unitData (r : DmaRun) (n : Nat) (data : List Byte) : UnitData :=
  if r.op = 1 then .bytes ((List.range n).map fun k => (BitVec.ofNat 8 (r.pat >>> (8 * ((r.acc + k) % 8))), false))
  else if r.srcSpace = 1 then .bytes ((sliceB data 0 n).map fun b => (b, false))
  else
    let l := takePieces r.got (n + 1) r.acc n
    if l.length = n then .bytes l
    else match r.bad with
      | some (p, code) => if r.acc + l.length < p then .wait else if l.isEmpty then .code code else .bytes l
      | none => .wait

/-- R288: the other side of a COMPARE in DRAM: its bytes, or the halt code. -/
def State.compareDram (s : State) (r : DmaRun) (n : Nat) : State × (List Byte ⊕ Nat) :=
  let a := ((r.dstAt r.acc).map (·.1)).getD 0
  let t := s.reportRead a n
  (t, if s.anyUnmapped a n then .inr 3 else if s.anyPoison a n then .inr 2 else .inl (s.rdBytes a n))

/-- R285-R292, R297: the next write unit of a channel, with the bytes of host memory it needs. -/
def State.writeUnit (s : State) (c : Nat) (r : DmaRun) (data : List Byte) : State :=
  match r.unitData r.unitLen data with
  | .wait => s
  | .code e => s.halt c e
  | .bytes d =>
    if r.op = 2 then
      if d.any (·.2) then s.halt c 2
      else
        let a := d.map (·.1)
        if r.dstSpace = 1 then s.compareUnit c r a (sliceB data (if r.srcSpace = 1 then a.length else 0) a.length)
        else match s.compareDram r a.length with
          | (t, .inr e) => t.halt c e
          | (t, .inl b) => t.compareUnit c r a b
    else match s.dstWrite c r d with
      | none => s
      | some (t, 0) => t.accepted c r (d.map (·.1))
      | some (t, e) => t.halt c e

/-- R285-R292, R297: a unit of a channel: a descriptor or a list entry of host memory that has come, or a write unit that its
destination accepts. -/
def State.unitAccepted (s : State) (c : Nat) (data : List Byte) : State :=
  match (s.dmaCh c).run with
  | none => s
  | some r =>
    if s.dmaState c ≠ 1 then s
    else if !r.loaded then
      let s1 := s.setDmaCh c { (s.dmaCh c) with run := some (r.parse (sliceB data 0 64)) }
      let (s2, e) := s1.checkDesc c
      if e ≠ 0 then s2.halt c e else s2
    else if r.total ≤ r.acc then s
    else
      let at_ := if r.srcSpace = 1 then r.acc else r.rd
      let (ss, sn, se) := if r.host then (r.sseg, r.snext, false) else s.walkList 4096 at_ r.sseg r.snext
      let (ds, dn, de) := if r.host then (r.dseg, r.dnext, false) else s.walkList 4096 r.acc r.dseg r.dnext
      let r := { r with sseg := ss, snext := sn, dseg := ds, dnext := dn }
      let needS := r.flags.testBit 2 && segBytes ss ≤ at_ && at_ < r.total
      let needD := r.flags.testBit 3 && segBytes ds ≤ r.acc
      if (se && r.srcSpace = 1) || de then (s.reportRead ((if de then dn else sn).getD 0) 16).halt c 11
      else if (needS && sn.isNone && r.srcSpace = 1) || (needD && dn.isNone) then s.halt c 5
      else if needS && r.host && sn.isSome then
        let (x, y) := takeEntry ss data (sn.getD 0)
        s.setDmaCh c { (s.dmaCh c) with run := some { r with sseg := x, snext := y } }
      else if needD then
        let (x, y) := takeEntry ds data (dn.getD 0)
        s.setDmaCh c { (s.dmaCh c) with run := some { r with dseg := x, dnext := y } }
      else if !s.mayIssue c r then s
      else s.writeUnit c r data

def execUnitAccepted (dt : Nat) (ch : Fin 64) (data : List Byte) (s : State) : Host.Outcome State Fault Refusal :=
  done ((s.tick dt).unitAccepted ch data).readTurn

/-- R302, R338: channels whose engine context is lost halt with BUS_ERR and give up their reservation. -/
def State.haltLost (s : State) : State :=
  s.each ((List.range 64).filter fun c => s.dmaLost c) fun c s =>
    let s1 := { s with rsv := s.rsv.filter (·.1 ≠ c) }.clrBit (Reg.dmaCtrl c) 2
    if s1.dmaState c = 1 || s1.dmaState c = 2 then s1.halt c 1 else s1

/-- R6, R297, R331: a unit failed outside: code 1 a bus or flash error, 11 a descriptor or list entry that could not be read,
any other a parity error of the channel.  A failure on PCIe is counted in PCIE.AER_CNT. -/
def State.unitFailure (s : State) (c code : Nat) : State :=
  match (s.dmaCh c).run with
  | none => s
  | some r =>
    let pcie := if code = 11 then r.host else r.srcSpace = 1 || r.dstSpace = 1
    let s := if pcie && (code = 1 || code = 11) && s.dmaState c = 1 then s.incr Reg.pcieAerCnt else s
    if s.dmaState c ≠ 1 then s
    else if code = 11 then s.halt c 11
    else if code = 1 then
      if r.tries < s.fld Reg.dmagRetry 3 0 then
        (s.setDmaCh c { (s.dmaCh c) with run := some { r with tries := r.tries + 1 } }).setBit (Reg.dmaStat c) 8
      else s.halt c 1
    else ((s.setBit Reg.dmagStat 4).faultEvent 5 (s.dmaContext c) false 0).haltLost

def execUnitFailure (dt : Nat) (ch : Fin 64) (code : Nat) (s : State) : Host.Outcome State Fault Refusal :=
  done ((s.tick dt).unitFailure ch code)

/-- R98, R293: the fence count of a channel counts. -/
def State.fenceUp (s : State) (c : Nat) : State :=
  let s1 := s.setFld (Reg.dmaStat c) 31 24 (s.fld (Reg.dmaStat c) 31 24 + 1)
  let s2 := s1.setDmaCh c { (s1.dmaCh c) with fenceAt := some s1.now }
  let met := [0, 1, 2, 3].flatMap fun cv => match (s.cv cv).comp with
    | some k => if k.start = s.now then k.lanes.map (·.layer) else []
    | none => []
  s2.each (met.filter fun n => s.fld (Reg.layFence n) 1 0 = 1 && s.fld (Reg.layFence n) 7 2 = c && s.fld (Reg.layFlow n) 5 4 = 0)
    fun n s => s.setBit (Reg.layStat n) 8

/-- R293, R298: a descriptor ends. -/
def State.descEnd (s : State) (c : Nat) : State :=
  match (s.dmaCh c).run with
  | none => s
  | some r =>
    if s.dmaState c ≠ 1 || !r.loaded || r.acc < r.total then s
    else
      let s1 := s.writeBack r (r.miss.getD 0) (2 ^ 31 + if r.miss.isSome then 2 ^ 30 else 0)
      let s2 := if r.flags.testBit 5 then s1.fenceUp c else s1
      let s3 := (s2.setBitIf (r.flags.testBit 7) (Reg.dmaStat c) 0).setFld (Reg.dmaStat c) 19 16 0
      let chain := r.flags.testBit 4
      let step := s.bit (Reg.dmaTrig c) 9
      if chain && !step then
        let (s4, e) := s3.loadDesc c r.host r.next
        if e ≠ 0 then s4.halt c e
        else
          let (s5, e) := s4.checkDesc c
          if e ≠ 0 then s5.halt c e else s5
      else
          let s4 := s3.setDmaCh c { (s3.dmaCh c) with run := none, resume := if chain then some (r.host, r.next) else none }
        let s5 := (s4.handOver c).setDmaState c 0
        s5.chainEnds 128 [c]

def execDescriptorEnd (dt : Nat) (ch : Fin 64) (s : State) : Host.Outcome State Fault Refusal :=
  done ((s.tick dt).descEnd ch).readTurn

/-! ### The shadow chain (R301) -/

/-- R301: a write to NEXT_LO and NEXT_HI. -/
def State.writeNext (s : State) (c : Nat) (lo hi : Word) : State :=
  if s.bit (Reg.dmaNextValid c) 0 then s.setBit (Reg.dmaStat c) 9
  else ((s.setRn (Reg.dmaNextLo c) (lo.toNat / 64 * 64)).setReg (Reg.dmaNextHi c) hi).setBit (Reg.dmaNextValid c) 1

def execNextWrite (dt : Nat) (_req : Nat) (ch : Fin 64) (lo hi : Word) (s : State) : Host.Outcome State Fault Refusal :=
  done (((s.tick dt).onChannel ch (Reg.dmaNextLo ch) id).onChannel ch (Reg.dmaNextHi ch) fun t => t.writeNext ch lo hi)

/-- R301: a WM write of NEXT_VALID; one at the instant at which the channel last ended a chain is a tie. -/
def State.writeNextValid (s : State) (c : Nat) (v : Word) : State :=
  let o := Reg.dmaNextValid c
  if !v.getLsbD 16 then s
  else
  let s := (s.setDmaCh c { (s.dmaCh c) with written := some s.now }).setBitIf ((s.dmaCh c).decided = some s.now) (Reg.dmaStat c) 12
  if v.getLsbD 0 then
    if s.bit o 0 || !s.bit o 1 then s.violate o 3 else s.setBit o 0
  else s.clrBit o 0

def execNextValidWrite (dt : Nat) (_req : Nat) (ch : Fin 64) (v : Word) (s : State) : Host.Outcome State Fault Refusal :=
  done ((s.tick dt).onChannel ch (Reg.dmaNextValid ch) fun t => t.writeNextValid ch v)

/-! ### Reservations (R299) -/

/-- R299: a write to DMAG.RSV_BW. -/
def State.writeRsv (s : State) (v : Word) : State :=
  let o := Reg.dmagRsvBw
  if s.bit o 31 then s.violate o 3
  else
    let rate := bitsOf v.toNat 23 8
    let s1 := if rate = 0 then (s.setFld o 7 0 (v.toNat % 256)).violate o 3 else s.setFld o 23 0 (v.toNat % 2 ^ 24)
    let ch := v.toNat % 64
    match bitsOf v.toNat 25 24 with
    | 1 => if rate = 0 then s1 else
      { (s1.setBit o 31) with rsvReq := some (ch, bitsOf v.toNat 7 6, rate, s.latch.armed.map (·.seq)) }
    | 2 => ({ s1 with rsv := s1.rsv.filter (·.1 ≠ ch) }.clrBit (Reg.dmaCtrl ch) 2).publish
    | _ => s1

def execReserve (dt : Nat) (_req : Nat) (v : Word) (s : State) : Host.Outcome State Fault Refusal := done ((s.tick dt).writeRsv v)
def execRsvRelease (dt : Nat) (_req : Nat) (v : Word) (s : State) : Host.Outcome State Fault Refusal := done ((s.tick dt).writeRsv v)

/-- The grants with one more, in channel order; a channel holds one grant. -/
def addGrant (l : List (Nat × Nat × Nat)) (g : Nat × Nat × Nat) : List (Nat × Nat × Nat) :=
  l.filter (·.1 < g.1) ++ g :: l.filter (g.1 < ·.1)

/-- R299: the Ward's verdict on a reservation, in its place in the arming order. -/
def State.rsvVerdict (s : State) : State :=
  match s.rsvReq with
  | none => s
  | some (ch, k, rate, before) =>
    if s.latch.armed.any fun c => before.contains c.seq then s
    else
      let st := s.standing
      let base := ((s.candidates st s.latch.accepted).getLast?).getD st
      let v := ({ base with rsv := addGrant base.rsv (ch, k, rate) }).evaluate none (fun _ => 0) (fun _ => false)
      let s1 := { ((s.clrBit Reg.dmagRsvBw 31).setFld Reg.dmagRsvBw 29 26 v.code) with rsvReq := none }
      if v.code = 0 then
        (({ s1 with rsv := addGrant s1.rsv (ch, k, rate) }.setBit (Reg.dmaCtrl ch) 2).setBit Reg.dmagStat 0).publish
      else s1.setBit Reg.dmagStat 1

def execReservationVerdict (dt : Nat) (s : State) : Host.Outcome State Fault Refusal := done (s.tick dt).rsvVerdict

/-! ### Spares and domains (R300, R302) -/

/-- R302: a write to DMAG.CTRL. -/
def State.writeDmagCtrl (s : State) (v : Word) : State :=
  let o := Reg.dmagCtrl
  let old := s.fld o 3 0
  let new := v.toNat % 16
  let moved := (List.range 8).filter fun k => (Decidable.decide (k < old) != Decidable.decide (k < new))
  let busy := moved.any fun k => (s.dmaState (55 - k) ≠ 0 && s.dmaState (55 - k) ≠ 3) || (s.servedBy (resKey 5 (55 - k))).isSome
  if new ≤ 8 && busy then ((s.landAt o (wput v 3 0 old)).1).violate o 3
  else
    let s1 := (s.landAt o v).1
    let n := s1.fld o 3 0
    let s2 := s1.each (List.range 8) fun k s =>
      if k < n then s.setDmaState (55 - k) 3 else if s.dmaState (55 - k) = 3 then s.setDmaState (55 - k) 0 else s
    s2.setFld Reg.dmagSpareMap 15 8 (s2.withheld.filter fun c => (s2.servedBy (resKey 5 c)).isNone && !s2.isRetired (resKey 5 c)).length

def execSparesWrite (dt : Nat) (_req : Nat) (v : Word) (s : State) : Host.Outcome State Fault Refusal := done ((s.tick dt).writeDmagCtrl v)

/-- The chain ports' quad domain, the media port domains and the memory channels that a descriptor uses: those of its own
place, of its surfaces and of the flow buffer it reads (R300). -/
def State.runDomains (s : State) (r : DmaRun) : List Nat :=
  let side := fun (sp : Nat) (sg : Bool) (seg : List (Nat × Nat)) (base pitch : Nat) =>
    if sp = 0 || sp = 4 then (if sg then seg else (List.range (max 1 r.rows)).map fun i => (base + i * pitch, r.len)) else []
  let buf := match r.buf with
    | some (f, b) => (s.flw f).fetchSet.addr0 + b * (s.flw f).bufStep
    | none => 0
  let mem := (if r.host then [] else [(r.addr, 64)]) ++
    ((side r.srcSpace (r.flags.testBit 2) r.sseg r.src r.sp).map fun x => (buf + x.1, x.2)) ++
    side r.dstSpace (r.flags.testBit 3) r.dseg r.dst r.dp
  let mcs := (List.range 8).filter fun c => mem.any fun x => s.rangeIn x.1 x.2 fun d _ => d = c
  let host := if r.host || r.srcSpace = 1 || r.dstSpace = 1 then [39] else []
  let port := if r.dstSpace = 3 then [21 + r.dst % 64 / 4] else []
  let flow := if r.srcSpace = 4 then
      let w := (s.flw (bitsOf r.spaces 19 16)).word 0
      (if w.testBit 1 then [37] else []) ++ (if w.testBit 2 then [38] else [])
    else []
  [42, 43] ++ mcs.map (· + 9) ++ host ++ port ++ flow

/-- R300: the channel, running or paused, uses a domain. -/
def State.usesDomain (s : State) (c d : Nat) : Bool :=
  match (s.dmaCh c).run with
  | some r => (s.dmaState c = 1 || s.dmaState c = 2) && (s.runDomains r).contains d
  | none => false

/-- R300: the channels that use a domain pause, resume, or end with DOMAIN_OFF. -/
def State.pauseDomain (s : State) (d : Nat) : State :=
  s.each ((List.range 64).filter fun c => s.usesDomain c d && s.dmaState c = 1) fun c s =>
    (s.setDmaState c 2).setBit (Reg.dmaStat c) 5
def State.dropDomain (s : State) (d : Nat) : State :=
  s.each ((List.range 64).filter fun c => s.usesDomain c d) fun c s => s.halt c 10

end Sys2Proof.Machine
end

