-- ==== Sys2Proof/Machine/Clocks.lean ====
section
/-! DEFINITION. The four PLLs: locks, hops, dividers, band results and losses of lock (R347-R353, R361). -/
namespace Sys2Proof.Machine

/-- R347, R361: the word of a profile slot after reset: PDIV 1 and the ratio of the PLL table. -/
def profReset (n slot : Nat) : Nat :=
  let (nint, nfrac) := match n with
    | 0 => (80, 0)
    | 1 => ([192, 224, 256, 256].getD slot 192, 0)
    | 2 => (412, 32768)
    | _ => (515, 40960)
  4 + nint * 64 + nfrac * 65536

/-- R348: the word of a profile slot, and the stored band result of a slot. -/
def State.profWord (s : State) (n slot : Nat) : Nat := (mget (s.pll n).prof slot (BitVec.ofNat 32 (profReset n slot))).toNat
def State.bandWordOf (s : State) (n slot : Nat) : Nat := (mget (s.pll n).band slot 0).toNat

/-- R348: the slot in use. -/
def State.slotOf (s : State) (n : Nat) : Nat := s.fld (Reg.pllCtrl n) 3 2

/-- R348, R325: the power domain of a PLL is on, or on its way. -/
def State.pllPowered (s : State) (n : Nat) : Bool :=
  n = 0 || s.bit Reg.keepDomainHi (17 + n) || s.keep.waking.contains (49 + n)

/-- R349 step 1: every output is low and the PLL locks. -/
def State.lockStart (s : State) (n : Nat) : State :=
  let s1 := ((s.clrBit (Reg.pllStat n) 28).setBit (Reg.pllStat n) 29).outputsLow n
  s1.setPll n { (s1.pll n) with locking := some s1.now, search := false }

/-- R351: the domain of a PLL goes off: every output is low. -/
def State.pllOff (s : State) (n : Nat) : State :=
  let s1 := ((s.clrBit (Reg.pllStat n) 28).clrBit (Reg.pllStat n) 29).outputsLow n
  s1.setPll n { (s1.pll n) with locking := none, lossAt := none, search := false, hopping := false, held := none }

/-- R349: the lock under way is a full search. -/
def State.searching (s : State) (n : Nat) : Bool :=
  (s.pll n).search || s.bit (Reg.pllCtrl n) 4 || !(s.bandWordOf n (s.slotOf n)).testBit 31

/-- R350: a hop to a slot is taken. -/
def State.hopTo (s : State) (n slot : Nat) : State :=
  let s1 := s.setFld (Reg.pllCtrl n) 3 2 slot
  let s2 := s1.setPll n { (s1.pll n) with hopping := true, held := none }
  if s2.pllPowered n then s2.lockStart n else s2

/-- R353: what goes on at a relock. -/
def State.relocked (s : State) (n : Nat) : State :=
  match n with
  | 0 => s.setFld Reg.timeStat 29 29 (if s.tbase.holdover then 1 else 0)
  | 1 => s.memRelock
  | _ => s

/-- R349: a PLL locks. `band`: the code and trim that a full search found. -/
def State.pllLock (s : State) (n band : Nat) : State :=
  if s.bit (Reg.pllStat n) 28 || !s.pllPowered n || s.pllLost n then s
  else
    let p := s.pll n
    let slot := s.slotOf n
    let p1 : Pll := if s.searching n then
        { p with band := mset p.band slot 0 (BitVec.ofNat 32 (band % 65536 + 2 ^ 31)), stored := some (slot, s.now) }
      else p
    let s1 := (((s.setBit (Reg.pllStat n) 28).clrBit (Reg.pllStat n) 29).clrBit (Reg.pllCtrl n) 4).outputsUp n
    let s2 := s1.setPll n { p1 with out0 := (s1.pll n).out0, out1 := (s1.pll n).out1, locking := none, lossAt := none, search := false, hopping := false, held := none }
    let s3 := (s2.setBitIf p.lossAt.isSome (Reg.pllStat n) 1).setBitIf p.hopping (Reg.pllStat n) 5
    let s4 := s3.relocked n
    match p.held with
    | some slot => s4.hopTo n slot
    | none => s4

def execPllLock (dt : Nat) (pll : Fin 4) (band : Nat) (s : State) : Host.Outcome State Fault Refusal :=
  done ((s.tick dt).pllLock pll band)

/-- R348, R350: a write to PLLn.CTRL; a change of ACTIVE is a hop, held while the PLL locks. -/
def State.writePllCtrl (s : State) (n : Nat) (v : Word) : State :=
  let o := Reg.pllCtrl n
  let slot := bitsOf v.toNat 3 2
  let s1 := (s.landAt o (wput v 3 2 (s.slotOf n))).1
  if slot = s.slotOf n then s1
  else if n = 0 || n = 1 then s1.violate o 3
  else if s1.bit (Reg.pllStat n) 29 then s1.setPll n { (s1.pll n) with held := some slot }
  else s1.hopTo n slot

def execHop (dt : Nat) (_req : Nat) (pll : Fin 4) (v : Word) (s : State) : Host.Outcome State Fault Refusal :=
  done ((s.tick dt).writePllCtrl pll v)

/-- R350: a lock from a stored band goes on as a full search. -/
def State.bandMiss (s : State) (n : Nat) : State :=
  if !s.bit (Reg.pllStat n) 29 || s.searching n then s
  else
    let p := s.pll n
    let w := s.bandWordOf n (s.slotOf n)
    let s1 := s.setPll n { p with search := true, band := mset p.band (s.slotOf n) 0 (BitVec.ofNat 32 (w % 2 ^ 31)) }
    (s1.setBit (Reg.pllStat n) 2).faultEvent 4 (2 * n + s.fld (Reg.pllCtrl n) 8 8) false 0

def execBandMiss (dt : Nat) (pll : Fin 4) (s : State) : Host.Outcome State Fault Refusal := done ((s.tick dt).bandMiss pll)

/-- R353: a frame in delivery is not resumed: its packets leave the link queues. -/
def Port.dropPixels (p : Port) : Port :=
  { p with lq := p.lq.filterMap fun (x : Nat × List Queued) =>
      let l := x.2.filter fun q => match q.frame with | .pix _ => false | .msg _ _ _ => true
      if l.isEmpty then none else some (x.1, l) }

/-- R353: the frame a canvas delivers has lost packets. -/
def State.breakDeliv (s : State) (cv : Nat) : State :=
  match (s.cv cv).deliv with
  | some d => s.setCv cv { (s.cv cv) with deliv := some { d with broken := true } }
  | none => s

/-- R190: memory accepts no capture writes of the frame that a canvas composes: the rest of its capture is dropped. -/
def State.dropCapture (s : State) (cv : Nat) : State :=
  match (s.cv cv).comp with
  | some k => if k.done || k.capt.isNone then s else s.setCv cv { (s.cv cv) with comp := some { k with captDrop := true } }
  | none => s

/-- R190, R353: what stops while a PLL is unlocked. -/
def State.unlocked (s : State) (n : Nat) : State :=
  match n with
  | 0 => s.setBit Reg.timeStat 29
  | 1 =>
    let s1 := { s with mem := { s.mem with frozen := s.mem.frozen <|> some s.now } }
    s1.each [0, 1, 2, 3] fun cv s => s.dropCapture cv
  | 2 => s.each (List.range 64) fun p s =>
      if (s.prt p).up then
        let s1 := s.setPrt p { (s.prt p).dropPixels with up := false, wire := none, resync := true }
        match s1.cvOfPort p with
        | some cv => s1.breakDeliv cv
        | none => s1
      else s
  | _ => s

/-- R353: a PLL loses lock. -/
def State.lossOfLock (s : State) (n : Nat) : State :=
  if !s.bit (Reg.pllStat n) 28 then s
  else
    let s1 := s.lockStart n
    let s2 := (s1.setPll n { (s1.pll n) with lossAt := some s1.now }).setBit (Reg.pllStat n) 0
    (s2.unlocked n).faultEvent 4 (2 * n + s.fld (Reg.pllCtrl n) 8 8) false 0

def execLossOfLock (dt : Nat) (pll : Fin 4) (s : State) : Host.Outcome State Fault Refusal := done ((s.tick dt).lossOfLock pll)

/-- R353: a relock is not complete 400,000 ns after the loss. -/
def State.relockTimeout (s : State) (n : Nat) : State :=
  let p := s.pll n
  match p.lossAt with
  | some t =>
    if p.locking = some t && t + 400000 ≤ s.now then s.faultEvent 4 (2 * n + s.fld (Reg.pllCtrl n) 8 8) true 0 else s
  | none => s

def execRelockTimeout (dt : Nat) (pll : Fin 4) (s : State) : Host.Outcome State Fault Refusal :=
  done ((s.tick dt).relockTimeout pll)

/-- R349, R351: a write to PLLn.DIV: a divider that changes makes the PLL lock anew; EN_k holds or releases output k. -/
def State.writePllDiv (s : State) (n : Nat) (v : Word) : State :=
  let o := Reg.pllDiv n
  let s1 := (s.landAt o v).1
  let moved := s1.fld o 7 0 ≠ s.fld o 7 0 || s1.fld o 23 16 ≠ s.fld o 23 16
  if moved && s1.pllPowered n && !s1.pllLost n then s1.lockStart n
  else
    let on := s1.bit (Reg.pllStat n) 28
    let from_ := fun (b k was : Nat) => if s1.bit o b && !s.bit o b then s1.releaseAt n k else was
    let s1 := s1.setPll n { (s1.pll n) with out0 := from_ 12 0 (s1.pll n).out0, out1 := from_ 28 1 (s1.pll n).out1 }
    (s1.setFld o 13 13 (if on && s1.bit o 12 then 1 else 0)).setFld o 29 29 (if on && s1.bit o 28 then 1 else 0)

def execDivWrite (dt : Nat) (_req : Nat) (pll : Fin 4) (v : Word) (s : State) : Host.Outcome State Fault Refusal :=
  done ((s.tick dt).writePllDiv pll v)

/-- R361: a write to PLLn.BAND, for slot PSEL; it loses to a store of that slot's result at the same instant. -/
def State.writePllBand (s : State) (n : Nat) (v : Word) : State :=
  let slot := s.fld (Reg.pllCtrl n) 1 0
  if (s.pll n).stored = some (slot, s.now) then s.setBit (Reg.pllStat n) 4
  else s.setPll n { (s.pll n) with band := mset (s.pll n).band slot 0 (v &&& 0x8000FFFF) }

def execBandWrite (dt : Nat) (_req : Nat) (pll : Fin 4) (v : Word) (s : State) : Host.Outcome State Fault Refusal :=
  done ((s.tick dt).writePllBand pll v)

/-- R348, R361: a write to PLLn.PROF, for slot PSEL; FREF only on PLL0. A change of the slot in use makes the PLL lock
anew (R349). -/
def State.writePllProf (s : State) (n : Nat) (v : Word) : State :=
  let o := Reg.pllProf n
  let slot := s.fld (Reg.pllCtrl n) 1 0
  match regAt o with
  | none => s
  | some (_, _, d, _) =>
    let old := s.profWord n slot
    let s1 := ((s.setRn o old).land o d v fun lo x => lo = 0 && x = 1 && n ≠ 0).1
    let new := s1.rn o
    let s2 := (s1.setRn o (s.rn o)).setPll n { (s.pll n) with
      prof := mset (s.pll n).prof slot (BitVec.ofNat 32 (profReset n slot)) (BitVec.ofNat 32 new) }
    if new ≠ old && slot = s.slotOf n && (s.bit (Reg.pllStat n) 28 || s.bit (Reg.pllStat n) 29) then s2.lockStart n else s2

/-- R352, R361: a write to PLLn.SPREAD: spread on PLL1 only, within the depth of its form, centre spread only where the
slot is not at 6400 MT/s. -/
def State.writePllSpread (s : State) (n : Nat) (v : Word) : State :=
  let o := Reg.pllSpread n
  match regAt o with
  | none => s
  | some (_, _, d, _) =>
    let en := v.getLsbD 0
    let centre := v.getLsbD 1
    let depth := bitsOf v.toNat 5 2
    let fast := s.fld Reg.memFspCtrl (17 + 2 * s.slotOf 1) (16 + 2 * s.slotOf 1) ≥ 2
    (s.land o d v fun lo x => (lo = 0 && x = 1 && (n ≠ 1 || (centre && fast) || depth = 0)) ||
      (lo = 1 && x = 1 && en && fast) || (lo = 2 && (x = 0 || (if centre then 5 else 10) < x))).1

/-- R361: FREF is absent for 10 µs while PLL0 takes it: PLL0 holds its last control word. -/
def State.refLost (s : State) : State :=
  if (s.profWord 0 (s.slotOf 0)).testBit 0 && !(s.pll 0).noRef then
    (s.setPll 0 { (s.pll 0) with noRef := true }).setBit (Reg.pllStat 0) 6
  else s

def execRefLost (dt : Nat) (s : State) : Host.Outcome State Fault Refusal := done (s.tick dt).refLost

/-- R361: FREF is back: PLL0 follows it again. -/
def State.frefReturn (s : State) : State := s.setPll 0 { (s.pll 0) with noRef := false }

def execFrefReturn (dt : Nat) (s : State) : Host.Outcome State Fault Refusal := done (s.tick dt).frefReturn

end Sys2Proof.Machine
end

