-- ==== Sys2Proof/Machine/Keeper.lean ====
section
/-! DEFINITION. The Keeper: supply states, power domains, heat, the decision at each composition start of the pace
canvas, background work, brightness and energy terms (R305-R323), error events (R327) and shadow checks (R337). -/
namespace Sys2Proof.Machine

/-! ### Supply (R305) -/

/-- R305: VIN has stayed below 18.0 V for 1 ms. -/
def State.vinGoesLow (s : State) (mv : Nat) : State :=
  if s.keep.vinLow || 18000 ≤ mv then s
  else
    let s1 := { (s.setFld Reg.sensVin 15 0 (min 65535 (mv / 10))) with keep := { s.keep with vinLow := true } }
    let s2 := (((s1.setBit Reg.keepStat 8).setBit Reg.sensStat 2).journal 9 0 0 0 0).lifeUp 5
    s2.rebudget s false

def execVinLow (dt : Nat) (mv : Nat) (s : State) : Host.Outcome State Fault Refusal := done ((s.tick dt).vinGoesLow mv)

/-- R305: VIN has been at or above 18.5 V for 1 s. -/
def State.vinGoesNormal (s : State) (mv : Nat) : State :=
  if !s.keep.vinLow || mv < 18500 then s
  else
    let s1 := { (s.setFld Reg.sensVin 15 0 (min 65535 (mv / 10))) with keep := { s.keep with vinLow := false } }
    (s1.setBit Reg.keepStat 9).rebudget s false

def execVinNormal (dt : Nat) (mv : Nat) (s : State) : Host.Outcome State Fault Refusal := done ((s.tick dt).vinGoesNormal mv)

/-- R305: VIN above 60 V. -/
def State.vinGoesOver (s : State) (mv : Nat) : State :=
  if mv ≤ 60000 then s else (s.setFld Reg.sensVin 15 0 (min 65535 (mv / 10))).setBit Reg.sensStat 3

def execVinOver (dt : Nat) (mv : Nat) (s : State) : Host.Outcome State Fault Refusal := done ((s.tick dt).vinGoesOver mv)

/-! ### Power domains (R308-R310) -/

def domReg (d : Nat) : Nat := if d < 32 then Reg.keepDomainLo else Reg.keepDomainHi

/-- R308: a domain is on (or draining). -/
def State.domOn (s : State) (d : Nat) : Bool := s.bit (domReg d) (d % 32)

/-- R308, R325, R346: show a domain on or off. -/
def State.showDom (s : State) (d : Nat) (on : Bool) : State :=
  let x := if on then 1 else 0
  let s1 := s.setFld (domReg d) (d % 32) (d % 32) x
  if d < 9 then (s1.setFld Reg.keepTmbRun d d x).setFld (Reg.tmbStat d) 0 0 x else s1

/-- R313: a domain that an emergency forces off. -/
def forcedDom (d : Nat) : Bool := d < 9 || (42 ≤ d && d ≤ 48)

/-- The Tumblers that the band plan of a point uses. -/
def State.planTumblers (s : State) (n v : Nat) : List Nat :=
  let st := s.bandState
  let bands := (pointBands (st.cvsIn.map st.cvW) (st.fld Reg.wardMargin 15 0) (s.fld Reg.wardTmbAvail 3 0) n v).getD []
  (s.pool.zip bands).map (·.1)

/-- R336, R337: the spare checks. -/
def State.sparing (s : State) : Bool :=
  s.bit (Reg.tmbCtrl 8) 0 && s.bit (Reg.tmbStat 8) 2 && !s.bit (Reg.tmbStat 8) 3 && !s.bit (Reg.tmbStat 8) 5 &&
    s.faults.taking.isNone && s.anyLive

/-- R309: the off condition of a domain holds. -/
def State.mayOff (s : State) (d : Nat) : Bool :=
  if d < 9 then
    !s.bit (Reg.tmbStat d) 1 && !(s.keep.move.isSome && (s.planTumblers s.runCount s.runVolt).contains d) && !(d = 8 && s.sparing)
      && !(s.keep.move.any fun m => (s.planTumblers m.count m.volt).contains d || m.old.contains d)
  else if d < 17 then !s.bit (Reg.mcCtrl (d - 9)) 0
  else if d < 21 then
    let lo := (d - 17) * 134217728
    let hit := fun (a : Nat) => lo ≤ a && a < lo + 134217728
    s.bit Reg.vaultPart 0 && !(s.granulesUsed.any fun g => hit (granAddr g))
      && !(d = 17 && (s.anyLive || !s.tailsUsed.isEmpty || !s.pagesUsed.isEmpty))
  else if d < 37 then !((List.range 4).any fun k => s.bit (Reg.prtCtrl (4 * (d - 21) + k)) 0)
  else if d < 39 then !s.bit (Reg.medCtrl (d - 37)) 0
  else if d = 39 then s.fld Reg.gpioStraps 1 0 = 1 || s.fld Reg.gpioStraps 1 0 = 2
  else if d < 42 then !s.bit (Reg.haspCtrl (d - 40)) 0
  else if d < 44 then
    !((List.range 64).any fun c => s.dmaState c = 1 || s.dmaState c = 2 || (s.dmaCh c).pend)
  else if d < 48 then !s.liveCv (d - 44)
  else if d = 48 then !s.anyLive && s.bit Reg.lampSweepPos 31
  else if d = 49 then !((List.range 64).any fun p => s.bit (Reg.prtCtrl p) 0)
  else if d = 50 then !((List.range 8).any fun m => s.domOn (9 + m))
  else if d = 51 then !((List.range 16).any fun q => s.domOn (21 + q))
  else !([37, 38, 39, 40, 41].any s.domOn)

/-- R300, R308: channels that a domain made pause run again, unless another of their domains is off or drains. -/
def State.resumeDomain (s : State) (d : Nat) : State :=
  s.each ((List.range 64).filter fun c => s.usesDomain c d && s.dmaState c = 2) fun c s =>
    if s.keep.draining.any (s.usesDomain c) || s.keep.waking.any (s.usesDomain c) then s else s.setDmaState c 1

/-- R308, R310: a domain comes on, or stays on, for a user. -/
def State.wakeDomain (s : State) (d : Nat) : State :=
  let k := s.keep
  if k.emerg && forcedDom d then s
  else if s.domOn d then
    if k.draining.contains d then
      { s with keep := { k with draining := k.draining.filter (· ≠ d), domAt := mset k.domAt d none (some s.now) } }.resumeDomain d
    else s
  else if k.waking.contains d then s
  else
    let s1 := { s with keep := { k with waking := k.waking ++ [d] } }.setBitIf (mget k.domAt d none = some s.now) Reg.keepStat 16
    if 50 ≤ d then s1.lockStart (d - 49) else s1

/-- R255, R308: a user needs a domain; that of an empty or disabled memory channel stays off. -/
def State.needDomain (s : State) (d : Nat) : State :=
  if 9 ≤ d && d < 17 && !s.bit (Reg.mcCtrl (d - 9)) 0 then s else s.wakeDomain d

def execDomainNeed (dt : Nat) (dom : Fin 53) (s : State) : Host.Outcome State Fault Refusal := done ((s.tick dt).needDomain dom)

/-- R308, R309: the off condition of a domain has held for 10 ms. -/
def State.idleDomain (s : State) (d : Nat) : State :=
  if !s.domOn d || s.keep.draining.contains d || s.bit Reg.keepCtrl 2 || !s.mayOff d then s
  else { s with keep := { s.keep with draining := s.keep.draining ++ [d] } }.pauseDomain d

def execDomainIdle (dt : Nat) (dom : Fin 53) (s : State) : Host.Outcome State Fault Refusal := done ((s.tick dt).idleDomain dom)

/-- R308, R310: every channel that uses a draining domain has paused: it goes off. -/
def State.drainedDomain (s : State) (d : Nat) : State :=
  let k := s.keep
  if !k.draining.contains d then s.setBitIf (s.domOn d && mget k.domAt d none = some s.now) Reg.keepStat 16
  else if (List.range 64).any fun c => s.usesDomain c d && s.dmaState c = 1 then s
  else
    let s1 := { s with keep := { k with draining := k.draining.filter (· ≠ d), domAt := mset k.domAt d none (some s.now) } }.showDom d false
    if 50 ≤ d then s1.pllOff (d - 49) else s1

def execDomainDrained (dt : Nat) (dom : Fin 53) (s : State) : Host.Outcome State Fault Refusal :=
  done ((s.tick dt).drainedDomain dom)

/-! ### Operating points (R315, R316) -/

/-- R20: a published point. -/
def State.pointOn (s : State) (n v : Nat) : Bool := n ≠ 0 && (s.rn64 Reg.wardOpptLo).testBit ((n - 1) * 5 + v)

/-- R315: the point of the lowest Tumbler charge, then of the fewest Tumblers, then of the lowest voltage. -/
def State.cheapest (s : State) : Option (Nat × Nat) :=
  (List.range 45).foldl (fun (b : Option (Nat × Nat)) i =>
    let (n, v) := (i / 5 + 1, i % 5)
    if !s.pointOn n v then b
    else match b with
      | none => some (n, v)
      | some (m, w) => if n * powerAt v < m * powerAt w then some (n, v) else b) none

/-- R20: the committed point: the smallest published count at the committed voltage. -/
def State.committed (s : State) : Option (Nat × Nat) :=
  let v := voltIdx (s.fld Reg.keepVcommit 6 0)
  ((List.range 9).find? fun k => s.pointOn (k + 1) v).map fun k => (k + 1, v)

/-- R315: the point the Keeper moves to, if it moves. -/
def State.wantedPoint (s : State) : Option (Nat × Nat) :=
  let run := (s.runCount, s.runVolt)
  let goal := if s.bit Reg.keepCtrl 0 || !s.pointOn run.1 run.2 then s.committed
    else s.cheapest.filter fun p => p.1 * powerAt p.2 + 100 ≤ run.1 * powerAt run.2
  goal.filter (· ≠ run)

/-- R316: VCORE of a point, in 10 mV. -/
def State.coreOf (s : State) (p : Nat × Nat) : Nat :=
  if s.bit Reg.keepCtrl 0 then s.fld Reg.keepVcommit 6 0 else cornerVolts.getD p.2 60

/-- R316 step 3: VCORE falls where the new point asks for less, and the Tumblers outside the plan go off. -/
def State.finishMove (s : State) : State :=
  match s.keep.move with
  | some m =>
    if m.wait = some [] then
      let s1 := (s.setFld Reg.keepVcore 6 0 m.core).setFld Reg.keepVcore 14 8 m.core
      let s2 := ({ s1 with keep := { s1.keep with move := none } }).clrBit Reg.keepTmbRun 31
      let keepOn := s2.planTumblers s2.runCount s2.runVolt
      let s3 := s2.each (List.range 9) fun t s =>
        if keepOn.contains t || s.bit (Reg.tmbStat t) 1 || (t = 8 && s.sparing) then s else s.showDom t false
      s3.setBit Reg.keepStat 0
    else s
  | none => s

/-- R316 step 2: once VCORE is high enough and every Tumbler of the new plan is on, the new point is selected. -/
def State.selectPoint (s : State) (begun : List Nat) : State :=
  match s.keep.move with
  | some m =>
    if m.wait.isSome || s.fld Reg.keepVcore 6 0 < m.core || !(s.planTumblers m.count m.volt).all s.domOn then s
    else
      let s1 := (s.setFld Reg.keepTmbRun 19 16 m.count).setFld Reg.keepTmbRun 22 20 m.volt
      let s2 := { s1 with keep := { s1.keep with move := some { m with wait := some ([0, 1, 2, 3].filter s1.liveCv) } } }
      ((s2.publishBands s2.bandState).finishMove).pumpFires begun none
  | none => s

/-- R316 step 1: a move begins. -/
def State.beginMove (s : State) (p : Nat × Nat) (begun : List Nat) : State :=
  let m : Move := { count := p.1, volt := p.2, core := s.coreOf p, old := (List.range 9).filter fun t => s.bit (Reg.tmbStat t) 1 }
  let s1 := ({ s with keep := { s.keep with move := some m } }).setBit Reg.keepTmbRun 31
  let s2 := s1.each (s1.planTumblers p.1 p.2) fun t s => s.needDomain t
  let s3 := if s2.fld Reg.keepVcore 6 0 < m.core then s2.setFld Reg.keepVcore 14 8 m.core else s2
  s3.selectPoint begun

/-- R315: the Keeper chooses its point, once a move under way has finished. With NO_DVS, VCORE is brought to VCOMMIT. -/
def State.choosePoint (s : State) (begun : List Nat) : State :=
  if s.keep.move.isSome || s.keep.emerg then s
  else match s.wantedPoint with
    | some p => s.beginMove p begun
    | none =>
      let run := (s.runCount, s.runVolt)
      if s.runCount ≠ 0 && s.pointOn run.1 run.2 && s.fld Reg.keepVcore 6 0 ≠ s.coreOf run then s.beginMove run begun else s

/-- R316: VCORE reaches the raised voltage. -/
def State.vcoreReached (s : State) (begun : List Nat) : State :=
  if s.keep.move.isNone then s
  else (s.setFld Reg.keepVcore 6 0 (s.fld Reg.keepVcore 14 8)).selectPoint begun

def execVcoreReached (dt : Nat) (begun : List Nat) (s : State) : Host.Outcome State Fault Refusal :=
  done ((s.tick dt).vcoreReached begun)

/-- R308, R316: a domain's wake time has elapsed. -/
def State.wakeDone (s : State) (d : Nat) : State :=
  if !s.keep.waking.contains d then s
  else
    let s1 := ({ s with keep := { s.keep with waking := s.keep.waking.filter (· ≠ d) } }).showDom d true
    let s2 := s1.resumeDomain d
    if d < 9 then s2.selectPoint [] else s2

def execDomainWakeDone (dt : Nat) (dom : Fin 53) (s : State) : Host.Outcome State Fault Refusal := done ((s.tick dt).wakeDone dom)

/-! ### The set point (R317) -/

/-- R317: the set points that qualify as a target. -/
def State.fspChoices (s : State) : List Nat :=
  [0, 1, 2, 3].filter fun f => s.bit Reg.memFspCtrl (8 + f) && s.bit Reg.wardFspOk f && s.fspTrained f

/-- R317: the target: the lowest rate, or the highest while a migration runs or a wear pass was late. -/
def State.fspTarget (s : State) : Option Nat :=
  let migr := (List.range 8).any fun c => s.bit (Reg.mcMigrStat c) 6
  let high := migr || s.now < s.keep.lateUntil
  s.fspChoices.foldl (fun (b : Option Nat) f => match b with
    | none => some f
    | some g => if (if high then s.fspRate g < s.fspRate f else s.fspRate f < s.fspRate g) then some f else b) none

/-- R317: a live canvas has a stream charged to DRAM. -/
def State.cvOnDram (s : State) (cv : Nat) : Bool := (s.frameCharge s.ilvs (s.cvW cv)).any (· ≠ 0)

/-- R317: every live canvas with a stream charged to DRAM has ended composition and has its next latch set, at least
30,000 ns ahead. -/
def State.fspGap (s : State) : Bool :=
  [0, 1, 2, 3].all fun cv => !s.liveCv cv || !s.cvOnDram cv ||
    ((s.cv cv).comp.all (·.done) && (s.cv cv).latchAt.any fun t => s.now + 30000 ≤ t)

/-- R317: start the change of set point that the Keeper wants, at an instant that allows it. -/
def State.fspTry (s : State) : State :=
  match s.keep.fspWait with
  | none => s
  | some t0 =>
    if s.mem.fsp.isSome then s
    else if s.fspGap then
      let s1 := ({ s with keep := { s.keep with fspWait := none } }).fspRequest (s.fld Reg.keepFsp 1 0)
      (s1.setFld Reg.keepFsp 6 4 (s1.fld Reg.memFspStat 6 4)).clrBit Reg.keepFsp 2
    else if t0 + 1000000000 ≤ s.now && !s.bit Reg.keepFsp 2 then (s.setBit Reg.keepFsp 2).setBit Reg.keepStat 1
    else s

/-- R317: the Keeper chooses its set point. -/
def State.chooseFsp (s : State) : State :=
  if s.bit Reg.keepCtrl 1 then ({ s with keep := { s.keep with fspWait := none } }).clrBit Reg.keepFsp 2
  else match s.fspTarget with
    | none => s
    | some f =>
      let s1 := s.setFld Reg.keepFsp 1 0 f
      if f = s.fld Reg.memFspStat 1 0 then ({ s1 with keep := { s1.keep with fspWait := none } }).clrBit Reg.keepFsp 2
      else if s.mem.fsp.isSome then s1
      else
        let w := match s.keep.fspWait with
          | some t => if f = s.fld Reg.keepFsp 1 0 then t else s.now
          | none => s.now
        ({ s1 with keep := { s1.keep with fspWait := some w } }).fspTry

/-! ### Background work (R312, R318) -/

/-- R318: the charge of a class in 0.01 W. -/
def bgCharge (cls : Nat) : Nat := [0, 40, 100, 30, 50, 200].getD cls 0

/-- R311: the valid sensor readings, in 1/16 °C. -/
def State.validTemps (s : State) : List Int := s.keep.temps.filterMap id

/-- R312: KEEP.TLIMIT in 1/16 °C. -/
def State.tlimit (s : State) : Int := (s.fld Reg.keepTlimit 7 0 : Int) * 16

/-- R318: hold and release classes. -/
def State.holdClass (s : State) (c : Nat) : State :=
  if s.keep.held.contains c then s
  else ({ s with keep := { s.keep with
    held := s.keep.held ++ [c]
    heldFrom := mset s.keep.heldFrom c none (some s.now) } }).setBit Reg.keepStat 2
def State.grantClass (s : State) (c : Nat) : State :=
  { s with keep := { s.keep with
    held := s.keep.held.filter (· ≠ c)
    heldFrom := mdrop s.keep.heldFrom c
    forced := mdrop s.keep.forced c } }

/-- R36, R37, R313: the budget that background work is held to: the admitted allowance while it is kept; at the Ward's floor,
not below the floor's charge. -/
def State.bgBudget (s : State) : Nat :=
  let b := max (s.fld Reg.wardPbudget 15 0) (s.keep.allow.getD 0)
  if s.cvsIn.isEmpty && s.rsv.isEmpty then max b (s.fld Reg.wardPdemand 15 0) else b

/-- R312, R318: at a decision the Keeper holds one class or grants one. After heat, a class is granted once every sensor
is at or below T - 5 °C. -/
def State.chooseBg (s : State) : State :=
  if s.keep.emerg then s
  else if s.bit Reg.keepCtrl 4 then s.each s.keep.held fun c s => s.grantClass c
  else
    let pin := s.fld Reg.sensPin 15 0
    let hot := s.validTemps.any (s.tlimit < ·)
    if hot || s.bgBudget < pin then
      let free := (List.range 5).filter fun k => !s.keep.held.contains (k + 1) &&
        !(mget s.keep.forced (k + 1) none).any fun t => s.now < t
      match free.getLast? with
      | some k => s.holdClass (k + 1)
      | none => s
    else match s.keep.held.min? with
      | some c => if s.keep.hot.isEmpty && pin + bgCharge c ≤ s.bgBudget then s.grantClass c else s
      | none => s

/-- R318: a class of priority 1 to 3 has been held for 60 s. -/
def State.bgForced (s : State) (c : Nat) : State :=
  match mget s.keep.heldFrom c none with
  | some t =>
    if 1 ≤ c && c ≤ 3 && s.keep.held.contains c && !s.keep.emerg && t + 60000000000 ≤ s.now then
      ({ s with keep := { s.keep with
        heldFrom := mset s.keep.heldFrom c none (some (s.now + 10000000000))
        forced := mset s.keep.forced c none (some (s.now + 10000000000)) } }).setBit Reg.keepStat 3
    else s
  | none => s

def execBgForced (dt : Nat) (cls : Fin 4) (s : State) : Host.Outcome State Fault Refusal := done ((s.tick dt).bgForced cls)

/-! ### Brightness by tile power (R322) -/

/-- R322: P_NOW and P_LIMIT of a tile's newest STATUS. -/
def Tile.power (t : Tile) : Nat × Nat := let w := (t.telem.getD 6 0).toNat; (w / 65536, w % 65536)

/-- R322: kt_n follows the greatest share of P_LIMIT that a placed tile draws. -/
def State.tileLimit (s : State) (cv : Nat) : State :=
  if s.bit Reg.keepCtrl 3 then { s with keep := { s.keep with kt := mdrop s.keep.kt cv } }
  else
    let l := ((s.placedOn cv).filter fun x => x.2.cap.testBit 5 && x.2.power.2 ≠ 0).map fun x => x.2.power
    match l with
    | [] => s
    | a :: r =>
      let m := r.foldl (fun (m : Nat × Nat) x => if m.1 * x.2 < x.1 * m.2 then x else m) a
      let kt := mget s.keep.kt cv 65535
      if 95 * m.2 < 100 * m.1 then
        ({ s with keep := { s.keep with kt := mset s.keep.kt cv 65535 (kt * 95 * m.2 / (100 * m.1)) } }).setBit Reg.keepStat 10
      else if 10 * m.1 ≤ 9 * m.2 then { s with keep := { s.keep with kt := mset s.keep.kt cv 65535 (min 65535 (kt + 512)) } }
      else s

/-! ### The decision (R314) -/

/-- R314: the pace canvas. -/
def State.paceCanvas (s : State) : Option Nat :=
  ([0, 1, 2, 3].filter s.liveCv).foldl (fun (b : Option Nat) cv => match b with
    | none => some cv
    | some m => if s.fld (Reg.cvTmin cv) 25 0 < s.fld (Reg.cvTmin m) 25 0 then some cv else b) none

/-- R314: the Keeper decides. -/
def State.decision (s : State) (begun : List Nat) : State :=
  let s1 := s.each ([0, 1, 2, 3].filter s.liveCv) fun cv s => s.tileLimit cv
  ((s1.choosePoint begun).chooseFsp).chooseBg

/-- R314: with no canvas live, every 10,000,000 ns. -/
def State.decisionTimer (s : State) (begun : List Nat) : State :=
  if s.anyLive || s.now % 10000000 ≠ 0 then s
  else
    let s1 := match s.keep.move with
      | some m => if m.wait.isSome then { s with keep := { s.keep with move := some { m with wait := some [] } } }.finishMove else s
      | none => s
    s1.decision begun

def execDecisionTimer (dt : Nat) (begun : List Nat) (s : State) : Host.Outcome State Fault Refusal :=
  done ((s.tick dt).decisionTimer begun)

/-- R316 step 3: a canvas starts under the new plan, or is live no more. -/
def State.moveStarted (s : State) (cv : Nat) : State :=
  match s.keep.move with
  | some m =>
    { s with keep := { s.keep with move := some { m with wait := m.wait.map fun (l : List Nat) => l.filter fun c => c ≠ cv && s.liveCv c } } }.finishMove
  | none => s

/-! ### Energy (R323, R340) -/

/-- R323: the power that energy pacing counts, in 0.01 W. -/
def State.scopePower (s : State) : Nat :=
  s.fld Reg.sensPin 15 0 +
    (if s.bit Reg.keepEnergyDay 24 then
      (s.tileList.filter fun x => x.2.state = .assigned || x.2.state = .blanked).foldl (fun n x => n + 10 * x.2.power.1) 0
    else 0)

/-- R323: 0.01 Wh and 1 Wh in 0.01 W times ns. -/
def centiWh : Nat := 3600000000000

/-- R323, R340: energy counts up to now. -/
def State.integrate (s : State) : State :=
  let t := s.now - s.keep.energyAt
  let e := if s.bit Reg.keepCtrl 6 then s.scopePower * t else 0
  let all := s.keep.energyLife + s.fld Reg.sensPin 15 0 * t
  let used := s.keep.energy + e
  let s1 := ({ s with keep := { s.keep with
    energy := used
    paceEnergy := s.keep.paceEnergy + e
    energyLife := all % (100 * centiWh)
    energyAt := s.now } }).lifeAdd64 6 (all / (100 * centiWh))
  s1.setRn Reg.keepEnergyUsed (min 0xFFFFFFFF (used / centiWh))

/-- R323: ns to the next local midnight; without a valid calendar, to the end of the 24 h since ENERGY_EN applied. -/
def State.dayLeft (s : State) : Nat :=
  if s.calValid then ((86400 - s.localSec % 86400).toNat) * 1000000000 - s.now % 1000000000
  else ((s.keep.dayFrom.getD s.now) + 86400000000000) - s.now

/-- R323, R324: the daily energy in 10 Wh, by the schedule where it says so. -/
def State.tenWh (s : State) : Nat :=
  match (if s.bit Reg.keepCtrl 5 then s.keep.schedEnergy else none) with
  | some v => v
  | none => s.fld Reg.keepEnergyDay 15 0

/-- R323: the energy term follows what is left of the day's energy. -/
def State.pace (s : State) : State :=
  let dt := s.now - s.keep.paceAt
  let e := s.keep.paceEnergy
  let s1 := { s with keep := { s.keep with paceEnergy := 0, paceAt := s.now } }
  if !s.bit Reg.keepCtrl 6 || s.tenWh = 0 || dt = 0 then s1
  else
    let rem := s.tenWh * 1000 * centiWh - s.keep.energy
    let left := max 1 s.dayLeft
    let floor := 257 * s.fld Reg.keepEnergyDay 23 16
    if rem * dt < e * left then
      let live := [0, 1, 2, 3].filter s.liveCv
      let k0 := live.foldl (fun k cv => min k (min (s.capOf cv) (s.ktOf cv))) s.keep.ke
      let k1 := max floor (k0 - min 1024 (cdiv (k0 * (e * left - rem * dt)) (e * left)))
      let s2 := ({ s1 with keep := { s1.keep with ke := k1 } }).setBitIf (k1 < s.keep.ke) Reg.keepStat 11
      s2.setBitIf (k1 ≤ floor || rem = 0) Reg.keepStat 12
    else
      let s2 := if 100 * e * left < 95 * rem * dt then { s1 with keep := { s1.keep with ke := min 65535 (s.keep.ke + 256) } } else s1
      s2.setBitIf (rem = 0) Reg.keepStat 12

/-- R323, R340: a whole second of wall time. -/
def State.energyPace (s : State) : State :=
  if s.now % 1000000000 ≠ 0 then s
  else
    let s1 := s.integrate.pace
    let v := s1.fld Reg.sensVin 15 0
    let s2 := if 900 ≤ v && v ≤ 6000 then s1.lifeAdd64 0 1 else s1
    (if s2.validTemps.any (s2.tlimit < ·) then s2.lifeUp 19 else s2).limitChanged s

def execEnergyPace (dt : Nat) (s : State) : Host.Outcome State Fault Refusal := done (s.tick dt).energyPace

/-- R323: local midnight, or 24 h without a valid calendar. -/
def State.dayRoll (s : State) : State :=
  let due := if s.calValid then s.localSec % 86400 = 0 else s.keep.dayFrom.any fun t => t + 86400000000000 ≤ s.now
  if !due || !s.bit Reg.keepCtrl 6 then s
  else
    let s1 := s.integrate
    ((({ s1 with keep := { s1.keep with
      energy := 0
      ke := 65535
      dayFrom := some s.now } }).setRn Reg.keepEnergyUsed 0).setBit Reg.keepStat 13).limitChanged s

def execDayRoll (dt : Nat) (s : State) : Host.Outcome State Fault Refusal := done (s.tick dt).dayRoll

/-! ### Heat (R311-R313) -/

/-- R311: a reading outside -55 to +150 °C is a failure. -/
def sensorOk (t : Int) : Option Int := if -880 ≤ t && t ≤ 2400 then some t else none

/-- R313: a thermal emergency begins. -/
def State.emergency (s : State) : State :=
  let forced := (List.range 53).filter forcedDom
  let s1 := ((s.setBit Reg.keepStat 6).setBit Reg.sensStat 1)
  let s2 := { s1 with keep := { s1.keep with
    emerg := true
    thermal := some 273
    hotFrom := none
    coolFrom := none
    endFrom := none
    waking := s1.keep.waking.filter fun d => !forcedDom d
    draining := s1.keep.draining.filter fun d => !forcedDom d } }
  let s3 := s2.each forced fun d s => (s.dropDomain d).showDom d false
  let s4 := s3.each [0, 1, 2, 3] fun cv s => s.dropComp cv
  let s5 := s4.each [1, 2, 4, 5] fun c s => s.holdClass c
  ((s5.journal 8 0 0 0 0).lifeUp 4).rebudget s false

/-- R311-R313: the sensors are sampled. -/
def State.sensorSample (s : State) (temps : List Int) (vin iin pin : Nat) : State :=
  let s0 := s.integrate
  let ts := (List.range 40).map fun i => sensorOk (temps.getD i (-1000))
  let s1 := ((s0.setFld Reg.sensVin 15 0 (min 65535 vin)).setFld Reg.sensIin 15 0 (min 65535 iin)).setFld Reg.sensPin 15 0 (min 65535 pin)
  let s2 := ({ s1 with keep := { s1.keep with temps := ts } }).setBitIf (ts.any Option.isNone) Reg.sensStat 4
  let best := (ts.zipIdx).foldl (fun (b : Option (Int × Nat)) x => match x.1, b with
    | some t, some (u, _) => if u < t then some (t, x.2) else b
    | some t, none => some (t, x.2)
    | none, b => b) none
  let valid := s2.validTemps
  let t := s2.tlimit
  let hot := valid.any (t < ·)
  let s3 := match best with
    | some (x, i) => s2.setRn Reg.sensTjMax (toCode 16 x + i * 65536)
    | none => s2
  let s4 := (s3.setBitIf hot Reg.keepStat 4).setBitIf hot Reg.sensStat 0
  let cool := valid.all (· ≤ t - 80)
  let hold := fun (c : Bool) (old : Option Nat) => if c then old <|> some s.now else none
  let hi127 := valid.any (2032 ≤ ·)
  let s5 := { s4 with keep := { s4.keep with
    hot := if hot then [1] else if cool then [] else s4.keep.hot
    hotFrom := hold (valid.any (t + 80 < ·) && !s4.keep.emerg) s4.keep.hotFrom
    coolFrom := hold (cool && s4.keep.thermal.isSome && !s4.keep.emerg) s4.keep.coolFrom
    endFrom := hold (s4.keep.emerg && valid.all (· ≤ t - 160)) s4.keep.endFrom
    hot127 := hi127 } }
  let top : Nat := match best with
    | some (x, _) => x.toNat
    | none => 0
  let s6 := if s5.lifeWord 10 < top then s5.setLife 10 top else s5
  if hi127 && s.keep.hot127 && !s.keep.emerg then s6.emergency else s6

def execSensorSample (dt : Nat) (temps : List Int) (vin iin pin : Nat) (s : State) : Host.Outcome State Fault Refusal :=
  done ((s.tick dt).sensorSample temps vin iin pin)

/-- R312: a sensor has read more than T + 5 °C for a further second. -/
def State.thermalCut (s : State) : State :=
  match s.keep.hotFrom with
  | some t =>
    if s.keep.emerg || s.now < t + 1000000000 then s
    else
      let s1 := { s with keep := { s.keep with
        thermal := some (95 * s.fld Reg.wardPdemand 15 0 / 100)
        hotFrom := some s.now } }
      let s2 := (s1.setBit Reg.keepStat 5).setPbudget
      s2.readmitEvent
  | none => s

def execThermalCut (dt : Nat) (s : State) : Host.Outcome State Fault Refusal := done (s.tick dt).thermalCut

/-- R312: the sensors have been cool for a further 10 s. -/
def State.thermalRise (s : State) : State :=
  match s.keep.coolFrom, s.keep.thermal with
  | some t, some b =>
    if s.keep.emerg || s.now < t + 10000000000 then s
    else
      let lim := s.fld Reg.keepPlimit 15 0
      let x := b + 5 * lim / 100
      { s with keep := { s.keep with
        thermal := if lim ≤ x then none else some x
        coolFrom := if lim ≤ x then none else some s.now } }.rebudget s false
  | _, _ => s

def execThermalBudgetRise (dt : Nat) (s : State) : Host.Outcome State Fault Refusal := done (s.tick dt).thermalRise

/-- R313: every sensor has read T - 10 °C or below for 10 s: the emergency ends. -/
def State.emergencyEnd (s : State) : State :=
  match s.keep.endFrom with
  | some t =>
    if !s.keep.emerg || s.now < t + 10000000000 then s
    else
      let from_ := s.keep.held.foldl (fun m c => mset m c none (some s.now)) s.keep.heldFrom
      let s1 := { s with keep := { s.keep with
        emerg := false
        thermal := none
        endFrom := none
        heldFrom := from_ } }
      let s2 := (s1.setBit Reg.keepStat 7).rebudget s false
      if s2.bit Reg.faultCtrl 11 then s2.ltWrite else s2
  | none => s

def execEmergencyEnd (dt : Nat) (s : State) : Host.Outcome State Fault Refusal := done (s.tick dt).emergencyEnd

/-! ### The KEEP page's own writes -/

/-- R325: VCOMMIT is written only while no canvas is live. -/
def State.writeVcommit (s : State) (v : Word) : State :=
  if s.anyLive then s.violate Reg.keepVcommit 3 else (s.landAt Reg.keepVcommit v).1.publish

def execVcommitWrite (dt : Nat) (_req : Nat) (v : Word) (s : State) : Host.Outcome State Fault Refusal :=
  done ((s.tick dt).writeVcommit v)

/-- R323, R324, R325: a write to KEEP.CTRL; SCHED_EN applied as 1 replays the schedule, ENERGY_EN starts the energy
day, and a schedule budget comes into force or leaves it. -/
def State.writeKeepCtrl (s : State) (v : Word) : State :=
  let s0 := s.integrate
  let s1 := (s0.landAt Reg.keepCtrl v).1
  let s2 := if s1.bit Reg.keepCtrl 5 && !s.bit Reg.keepCtrl 5 then s1.replay else s1
  let s3 := if s2.bit Reg.keepCtrl 6 && !s.bit Reg.keepCtrl 6 then
      { s2 with keep := { s2.keep with
        dayFrom := some s.now
        paceEnergy := 0
        paceAt := s.now } }
    else s2
  (s3.rebudget s false).limitChanged s

/-- R320: a write to KEEP.PLIMIT. -/
def State.writePlimit (s : State) (v : Word) : State := (s.landAt Reg.keepPlimit v).1.rebudget s false

/-- R326: SENS.TJ_VAL. -/
def State.tjVal (s : State) : Nat :=
  match s.keep.temps.getD (s.fld Reg.sensTjSel 5 0) (some 0) with
  | some t => toCode 16 t
  | none => 2 ^ 31

/-! ### Error events and shadow checks (R327, R337) -/

/-- R327, R338: an error event of a resource that its owner reports. -/
def State.onFault (s : State) (cls i : Nat) : State := (s.faultEvent cls i false 0).haltLost

def execFaultEvent (dt : Nat) (cls : Fin 7) (index : Nat) (s : State) : Host.Outcome State Fault Refusal :=
  done ((s.tick dt).onFault cls index)

/-- R337: the Tumbler that the spare checks in the present frame of the pace canvas. -/
def State.checkedTumbler (s : State) (cv : Nat) : Option Nat :=
  let l := (List.range 9).filter fun t => s.bit (Reg.wardBand t) 31
  if l.isEmpty then none else l[s.rn (Reg.cvFrameCnt cv) % l.length]?

/-- R337: a line is among those the spare checks of a canvas. -/
def State.checkedLine (s : State) (cv line : Nat) : Bool :=
  let stride := max 1 (s.fld (Reg.tmbCtrl 8) 15 8)
  if s.bit (Reg.cvMode cv) 2 then line % stride = 0
  else match s.checkedTumbler cv with
    | none => false
    | some t =>
      let w := s.rn (Reg.wardBand t)
      bitsOf w 29 28 = cv && bitsOf w 13 0 ≤ line && line ≤ bitsOf w 27 14 && (line - bitsOf w 13 0) % stride = 0

/-- R337: a check of a line: the CRC of the checked Tumbler, of the spare, and of the spare once more. -/
def State.shadowCheck (s : State) (cv line live spare again : Nat) : State :=
  if !s.sparing || s.paceCanvas ≠ some cv || !s.checkedLine cv line then s
  else
    let tmb := if s.bit (Reg.cvMode cv) 2 then ((s.cv cv).comp.map fun k => k.tmbOf true line) else s.checkedTumbler cv
    match tmb with
    | none => s
    | some t =>
      let o := Reg.tmbCheck 8
      let s1 := s.setFld o 11 8 t
      let s2 := s1.setFld o 29 16 line
      if live = spare then s1.setBit o 0
      else if again = spare then (s2.setBit o 1).faultEvent 0 t false line
      else if again = live then (s2.setBit o 2).faultEvent 0 8 false line
      else ((s2.setBit o 3).faultEvent 0 t false line).faultEvent 0 8 false line

def execShadowCheck (dt : Nat) (cv : Fin 4) (line live spare again : Nat) (s : State) : Host.Outcome State Fault Refusal :=
  done ((s.tick dt).shadowCheck cv line live spare again)

end Sys2Proof.Machine
end

