-- ==== Sys2Proof/Machine/Compose.lean ====
section
/-! DEFINITION. Composition of a canvas's frames: readiness, lanes, the composition start with what it takes, through-mode
lines, the composition end, and the start of delivery (R65-R67, R76-R78, R85-R103, R124, R125, R163, R185-R190). -/
namespace Sys2Proof.Machine

/-! ### Readiness (R96-R101) -/

/-- R85, R87: the composed layers of a canvas: enabled, on the canvas, not shed, and not on their way to another. -/
def State.composedLayers (s : State) (cv : Nat) : List Nat :=
  (List.range 64).filter fun n => s.layEn n && s.fld (Reg.layCtrl n) 2 1 = cv && !s.layShed n &&
    !s.latch.applying.any fun a => a.off = Reg.layCtrl n && a.cv ≠ cv && a.at_ ≠ .hinge

/-- R86: the composed layers in stack order: by DEPTH, then by number. -/
def State.stack (s : State) (cv : Nat) : List Nat :=
  let l := s.composedLayers cv
  ((List.range 16).flatMap fun d => l.filter fun n => s.fld (Reg.layCtrl n) 7 4 = d).take 16

/-- R89, R99: FLOW.MODE and FLOW.INDEX of a layer. -/
def State.layMode (s : State) (n : Nat) : Nat := s.fld (Reg.layFlow n) 5 4
def State.layFlowOf (s : State) (n : Nat) : Flow := s.flw (s.fld (Reg.layFlow n) 3 0)

/-- R99: the declared frame period of a flow, in ns. -/
def Flow.period (f : Flow) : Nat := cdiv (1000000000 * bitsOf (f.word 5) 31 16) (bitsOf (f.word 5) 15 0)

/-- R98: the DMA fence of a layer has been reached. -/
def State.fenceReached (s : State) (n : Nat) : Bool :=
  let have_ := s.fld (Reg.dmaStat (s.fld (Reg.layFence n) 7 2)) 31 24
  (have_ + 256 - s.fld (Reg.layFence n) 15 8) % 256 < 128

/-- R99: a layer is ready at a composition start of its canvas now; `last` is the start before. -/
def State.layReady (s : State) (n last : Nat) : Bool :=
  let f := s.layFlowOf n
  match s.layMode n with
  | 0 => s.fld (Reg.layFence n) 1 0 = 0 || s.fenceReached n
  | 1 => (f.word 0).testBit 0 && f.newest.isSome && s.now - f.doneAt ≤ 2 * f.period
  | _ => (f.word 0).testBit 0 && last < f.begunAt

/-- R96: the flow entry's format does not suit the layer's COLOUR.MATRIX. -/
def State.flowFmtBad (s : State) (n : Nat) : Bool :=
  s.layMode n ≠ 0 && fmtYcc (s.layFlowOf n).fetchSet.fmt && s.fld (Reg.layColour n) 3 1 = 4

/-- R99: the fetch set of a layer that is ready, and the FOLLOW buffer it takes. -/
def State.laySet (s : State) (n : Nat) : FetchSet × Option (Nat × Nat) :=
  let f := s.layFlowOf n
  match s.layMode n with
  | 0 => (s.regSet n, none)
  | 1 => ({ f.fetchSet with addr0 := f.fetchSet.addr0 + f.newest.getD 0 * f.bufStep }, f.newest.map fun b => (s.fld (Reg.layFlow n) 3 0, b))
  | _ => (f.fetchSet, none)

/-- R101: the values that the start of a canvas is due to apply: the active ones, overlaid with what waits for it. -/
def State.dueView (s : State) (cv : Nat) : State :=
  (s.latch.applying.filter fun a => a.cv = cv && a.at_ ≠ .hinge && !a.begun).foldl (fun b a => b.withOff a.off a.value) s

/-- R67, R101: every WAIT layer of a canvas is ready on those values. -/
def State.waitMet (s : State) (cv : Nat) : Bool :=
  let v := s.dueView cv
  let c := s.cv cv
  let v := { v with latch := { v.latch with applying := v.latch.applying.filter (·.cv ≠ cv) } }
  (v.stack cv).all fun n => v.fld (Reg.layNotReady n) 1 0 ≠ 0 || v.flowFmtBad n || v.layReady n c.lastStart

/-! ### Lanes -/

/-- R124, R125: TAPS_USED as a composition start leaves it, and whether AUTOTAP reduced the count. -/
def State.tapsWord (s : State) (n fmt : Nat) : Nat × Bool :=
  let l := s.layW n
  let solid := fmt = 0x1F
  let vb := solid || l.vbyp
  let hb := solid || bypassed l.sh (signedOf 16 (s.rn (Reg.layHphase n)))
  let used := if vb then l.taps else l.fitTaps.getD l.taps
  let red := used < l.taps
  (used / 2 - 1 + (if vb then 4 else 0) + (if hb then 8 else 0) + (if red then 16 else 0) + 2 ^ 31, red)

/-- R91: the crop reaches outside the surface. -/
def State.cropOutside (s : State) (n : Nat) (set : FetchSet) : Bool :=
  let l := s.layW n
  set.fmt ≠ 0x1F && (size16 set.w < l.cx + l.cw || size16 set.h < l.cy + l.ch)

/-- R99, R100, R103: decide a layer at a composition start: its lane, and what the layer keeps and reports. -/
def State.takeLane (s : State) (n last : Nat) : State × Lane :=
  let o := Reg.layStat n
  let bad := s.flowFmtBad n
  let ready := s.layReady n last
  let bind := s.layMode n = 2
  let lay := s.lay n
  let tie := match s.layMode n with
    | 0 => s.fld (Reg.layFence n) 1 0 = 1 && (s.dmaCh (s.fld (Reg.layFence n) 7 2)).fenceAt = some s.now
    | 1 => (s.layFlowOf n).newest.isSome && (s.layFlowOf n).doneAt = s.now
    | _ => false
  let s1 := (((s.setFld o 28 28 (if ready then 1 else 0)).setBitIf (!ready) o 0).setBitIf bad o 11).setBitIf tie o 8
  let pol := s.fld (Reg.layNotReady n) 1 0
  let (set, buf) := s.laySet n
  let src : Option (FetchSet × Option (Nat × Nat)) :=
    if bad then none
    else if ready then some (set, buf)
    else if pol = 2 || bind then none
    else lay.good.map fun g => (g, lay.buf)
  let s2 := s1.setBitIf (!ready && pol = 0 && !bad) o 1
  let s3 := match src with
    | none => s2.setBit o 3
    | some _ => s2.setBitIf (!ready) o 2
  let keep := ready && !bad && !bind
  let s4 := match src with
    | some (u, b) => s3.setLay n { (s3.lay n) with good := if keep then some u else lay.good, inUse := some u, buf := b <|> lay.buf }
    | none => s3
  let s5 := s4.setFld o 29 29 (if (s4.lay n).good.isSome then 1 else 0)
  let used := (src.map (·.1)).getD set
  let (w, red) := s5.tapsWord n used.fmt
  let s6 := (((s5.setRn (Reg.layTapsUsed n) w).setBitIf red o 10).setBitIf (src.isSome && s5.cropOutside n used) o 6).setFld o 30 30
    (if src.isSome then 1 else 0)
  (s6, ⟨n, src.isNone, used, if bind then some (s.fld (Reg.layFlow n) 3 0, (s.layFlowOf n).frames) else none⟩)

/-- R102: layers of a frame that a canvas no longer composes, nor another, have no surface in use; a FOLLOW buffer stays taken
until the layer takes a newer one (R96). -/
def State.leaveSurfaces (s : State) (l : List Nat) : State :=
  let gone := l.filter fun n => !((List.range 4).any fun v => s.liveCv v && (s.cv v).comp.any fun k => k.lanes.any (·.layer = n))
  s.each gone fun n s => s.setLay n { (s.lay n) with inUse := none }

/-- R102: a canvas has stopped: it composes no layer any more. -/
def State.freeSurfaces (s : State) (cv : Nat) : State :=
  match (s.cv cv).comp with
  | some k => (s.setCv cv { (s.cv cv) with comp := none }).leaveSurfaces (k.lanes.map (·.layer))
  | none => s

/-- R86, R102: the lanes of a frame in stack order; `old`: the layers of the frame before. -/
def State.takeLanes (s : State) (cv last : Nat) (old : List Nat) : State × List Lane :=
  let st := s.stack cv
  let s1 := s.leaveSurfaces (old.filter (!st.contains ·))
  st.foldl (fun (r : State × List Lane) n => let (t, l) := r.1.takeLane n last; (t, r.2 ++ [l])) (s1, [])

/-! ### The composition start -/

/-- R152: the knots of a bank of a tone set fall somewhere. -/
def State.knotsFall (s : State) (obj bank : Nat) : Bool :=
  (List.range 1024).any fun i => l20Val (s.toneAt obj bank (i + 1)) < l20Val (s.toneAt obj bank i)

/-- R152: a layer's tone set is in use and its knots fall. -/
def State.toneFalls (s : State) (n : Nat) : Bool :=
  let o := Reg.layTone n
  let j := s.fld o 7 4
  s.fld o 1 0 ≠ 0 && s.knotsFall j (s.fld Reg.toneBank j j)

/-- R171: the staged gains of a canvas's tiles take effect. -/
def State.takeGains (s : State) (cv : Nat) : State :=
  let l := (s.placedOn cv).filter (·.2.gNext.isSome)
  let s1 := s.setBitIf (!l.isEmpty && s.gainAt = some s.now) (pgStat 0x080) 9
  s1.each (l.map (·.1)) fun n s =>
    match (s.tile n).gNext with
    | some (r, g, b) => s.setTile n { (s.tile n) with gR := r, gG := g, gB := b, gNext := none }
    | none => s

/-- R190: the capture buffer of the next frame, and what the canvas keeps of it. -/
def State.nextCapt (s : State) (cv frame : Nat) (c : Canvas) : Canvas × Option Nat :=
  let o := Reg.scnCaptCtrl cv
  if !s.bit o 0 then (c, none)
  else match c.captReuse with
    | some k => ({ c with captReuse := none, capts := c.capts ++ [(frame, k)] }, some k)
    | none =>
      let k := c.captNext % (s.fld o 4 1 + 1)
      ({ c with captNext := (k + 1) % (s.fld o 4 1 + 1), capts := c.capts ++ [(frame, k)] }, some k)

/-- R58: at a composition start of a through-mode canvas, where an SL register that waits applies: before its Latch line of
this frame; none: at the start itself. -/
def State.throughLater (s : State) (cv : Nat) (k : Comp) (a : Applying) : Option ApplyAt :=
  let l := s.fld (Reg.latchGcfg (s.groupOf (offReg a.off / 4096))) 15 2
  if s.bit (Reg.cvMode cv) 2 && a.cv = cv && a.at_ ≠ .hinge && !a.begun && offIsSl a.off && l < (s.cvSize cv).2 then
    some (.lines [(k.tmbOf true l, l)] false)
  else none

/-- R55, R76, R78: what every composition start of a canvas does first: it counts, SF registers due apply, and commits
with a line trigger on the canvas fire. -/
def State.beginFrame (s : State) (cv : Nat) (tie : Bool) (begun : List Nat) : State :=
  let n := (s.rn (Reg.cvFrameCnt cv) + 1) % 2 ^ 32
  let s0 := (s.each ((s.bankAt.filter (·.2 = s.now)).map (·.1)) fun p s => s.setBit (pgStat p) 3).setCv cv { (s.cv cv) with
    lutBusy := (s.cv cv).lutBusy.filterMap fun x => if x.2 ≤ 1 then none else some (x.1, x.2 - 1) }
  let s1 := (s0.setRn (Reg.cvFrameCnt cv) n).takeBand (some cv)
  let k : Comp := { frame := n, start := s.now, bands := s1.bandsOf cv, lanes := [], bank := 0 }
  let later := s1.throughLater cv k
  let mine := s1.latch.applying.filter fun a => a.cv = cv && a.at_ ≠ .hinge
  let s1 := { s1 with latch := { s1.latch with applying := s1.latch.applying.map fun (a : Applying) => match later a with
    | some t => { a with at_ := t, begun := false }
    | none => a } }
  let l := (mine.filter fun a => (later a).isNone).map fun (a : Applying) =>
    { a with tie := tie && a.fired = s.now && !a.begun, frame := n }
  let s2 := if l.isEmpty then s1 else s1.applyEvent l
  let s3 := s2.setBitIf (s2.fld (Reg.cvTmax cv) 25 0 < s2.fld (Reg.cvTmin cv) 25 0) (Reg.cvStat cv) 11
  let s4 := s3.setCv cv { (s3.cv cv) with comp := some { k with bands := s3.bandsOf cv } }
  let s5 := s4.pumpFires begun (some cv)
  (s5.crossings cv).foldl (fun s x => if x.2 = 0 then s.crossLine cv x.1 0 else s) s5

/-- R65, R66, R77, R85-R103, R163: the composition start of a canvas's next frame. -/
def State.doStart (s : State) (cv : Nat) (tie : Bool) (begun : List Nat) : State :=
  let last := (s.cv cv).lastStart
  let old := ((s.cv cv).comp.map fun k => k.lanes.map (·.layer)).getD []
  let s1 := (((s.beginFrame cv tie begun).stepK cv).takeGains cv).revertHeads cv
  let n := s1.rn (Reg.cvFrameCnt cv)
  let through := s1.bit (Reg.cvMode cv) 2
  let s2 := s1.setBitIf (s1.ttblAt = some s1.now) (pgStat 0x080) 14
  let s3 := s2.setBitIf (mget s2.keep.kAt cv none = some s2.now) (pgStat (0x18 + cv)) 10
  let (s4, lanes) := s3.takeLanes cv last old
  let s4 := s4.setBitIf (lanes.any fun x => !x.hidden && s4.toneFalls x.layer) (pgStat 0x068) 8
  let c := s4.cv cv
  let bank := if through then 0 else 1 - c.lastBank
  let (c, capt) := s4.nextCapt cv n c
  let masks := fun (bits : List Bool) => bits.zipIdx.foldl (fun m x => if x.1 then m + 2 ^ x.2 else m) 0
  let prov := c.comp.getD { frame := n, start := s4.now, bands := s4.bandsOf cv, lanes := [], bank := bank }
  let k : Comp := { prov with
    lanes := lanes, bank := bank, tiles := (s4.placedOn cv).filter (·.2.given), cal := s4.rn64 Reg.lampCalLo % 2 ^ 41, capt := capt
    bright := s4.kNow cv, coefBanks := masks ((List.range 8).map fun i => s4.bit (Reg.coefCtrl i) 0)
    toneBanks := masks ((List.range 24).map fun i => s4.bit Reg.toneBank i) }
  let more := !through && c.primed && (n + 2 ^ 32 - c.showFrame) % 2 ^ 32 ≤ 1
  let s5 := s4.setCv cv { c with
    comp := some k
    due := if more then some c.lastLatch else none
    waitFrom := none
    lastStart := s4.now
    lastBank := bank }
  let s6 := if s5.keep.emerg then s5.dropComp cv else s5
  let s6 := if s6.ward.gap then s6.countDegraded cv n else s6
  let s6 := (s6.moveStarted cv).allowStarted cv
  if s6.paceCanvas = some cv then s6.decision begun else s6

/-- R65, R67, R101: the start of a canvas that is due happens, unless a WAIT layer holds it. -/
def State.compositionStart (s : State) (cv : Nat) (tie : Bool) (begun : List Nat) : State :=
  let c := s.cv cv
  if !c.live || !(c.due.any fun t => Decidable.decide (t ≤ s.now)) || !(c.comp.all (·.done)) then s
  else
    let t := s.timingOf cv
    if s.waitMet cv || t.tmax = t.tmin then s.doStart cv tie begun
    else match c.waitFrom with
      | some w => if w + (t.tmax - t.tmin) ≤ s.now then s.doStart cv tie begun else s
      | none => (s.setCv cv { c with waitFrom := some s.now, held := some t }).setBit (Reg.cvStat cv) 7

def execCompositionStart (dt : Nat) (cv : Fin 4) (tie : Bool) (begun : List Nat) (s : State) : Host.Outcome State Fault Refusal :=
  done ((s.tick dt).compositionStart cv tie begun)

/-- R67: the longest wait ends. -/
def State.waitLimit (s : State) (cv : Nat) (begun : List Nat) : State :=
  match (s.cv cv).waitFrom with
  | none => s
  | some w =>
    let t := s.timingOf cv
    if w + (t.tmax - t.tmin) ≤ s.now && (s.cv cv).live then s.doStart cv false begun else s

def execWaitLimit (dt : Nat) (cv : Fin 4) (begun : List Nat) (s : State) : Host.Outcome State Fault Refusal :=
  done ((s.tick dt).waitLimit cv begun)

/-! ### The start of delivery -/

/-- R180, R200, R201: the pixel packets of a frame on a port in order: by canvas line, then by chain position, nearest
first, then by tile line and segment. -/
def State.packetsFor (s : State) (cv frame p : Nat) : List Pix :=
  let mine := (s.placedOn cv).filter fun x => x.2.given && s.servePort x.2 = p
  let key := fun (t : Tile) => if s.onPartner t then t.posT else t.pos
  let chain := (List.range 256).flatMap fun k => mine.filter fun x => key x.2 = k
  let rate := s.rateOf p
  let pk := chain.flatMap fun (n, t) =>
    let segs := if t.w = 0 then [] else segments t.w (segCount rate (s.bppOf cv) (pmaxOf t.cap) t.w (s.gateLists p) 1 t.w)
    (List.range t.h).flatMap fun v => segs.map fun x => ({ cv := cv, frame := frame, tile := n, line := v, x0 := x.1, count := x.2 } : Pix)
  (List.range (s.cvSize cv).2).flatMap fun y => pk.filter fun x => (s.pixRows x).2 = y

/-- R65, R68, R186: delivery of a frame starts: its packets go to the pixel queues. A port whose link is down takes none. -/
def State.startDelivery (s : State) (cv frame bank : Nat) : State :=
  let ports := s.withPartners (s.portsOf cv)
  let d : Deliv := { frame := frame, start := s.now, bank := bank, lastEnd := s.now, broken := !s.bit (Reg.pllStat 2) 28 && !ports.isEmpty }
  let s1 := s.setCv cv { (s.cv cv) with composed := none, deliv := some d }
  let mixed := s1.lineLatch cv && (s1.placedOn cv).any fun x => x.2.given && !x.2.cap.testBit 1
  (s1.setBitIf mixed (Reg.scnStat cv) 8).each ports fun p s =>
    let l := s.packetsFor cv frame p
    if !(s.prt p).up || l.isEmpty then s
    else
      let s1 := l.foldl (fun s x => if s.oversize p 0 (s.frameBytes (.pix x)) then s.dropOversize p 0 else s.append p 0 (.pix x)) s
      s1.decide p (s1.now * 10) false

/-- R65: the frame that is composed next in order and not in delivery starts. -/
def State.deliverNext (s : State) (cv : Nat) : State :=
  let c := s.cv cv
  match c.composed, c.deliv with
  | some (n, b), none => if c.primed && n = (c.showFrame + 1) % 2 ^ 32 then s.startDelivery cv n b else s
  | _, _ => s

/-! ### Lines and the end of composition -/

/-- How many lines from the top have all been composed. -/
def linesFrom (l : List Nat) : Nat → Nat → Nat
  | 0, n => n
  | f + 1, n => if l.contains n then linesFrom l f (n + 1) else n

/-- Compose some lines of a canvas's frame. -/
def State.composeLines (s : State) (cv : Nat) (ys : List Nat) : State :=
  let s1 := ys.foldl (fun s y => s.composeLine cv y) s
  match (s1.cv cv).comp with
  | none => s1
  | some k => s1.setCv cv { (s1.cv cv) with comp := some { k with linesDone := linesFrom k.composedLines (s.cvSize cv).2 k.linesDone } }

/-- R234: transmission decisions on the ports of a canvas. -/
def State.decideAll (s : State) (cv : Nat) : State :=
  s.each (s.withPartners (s.portsOf cv)) fun p s => s.decide p (s.now * 10) false

/-- R65, R107, R190, R346: the last line of a canvas's frame has been composed; in through mode every line has begun then
(R185). -/
def State.compositionEnd (s : State) (cv : Nat) : State :=
  match (s.cv cv).comp with
  | none => s
  | some k =>
    let through := s.bit (Reg.cvMode cv) 2
    let h := (s.cvSize cv).2
    if k.done || !(s.cv cv).live || (through && (List.range h).any fun y => (mfind k.begun y).isNone) then s
    else
      let s1 := s.composeLines cv ((List.range h).filter fun y => !k.composedLines.contains y)
      let s2 := (s1.crossAll cv).reportFetch cv
      let c := s2.cv cv
      let k2 := (c.comp).getD k
      let drop := k2.capt.isSome && k2.captDrop
      let s3 := (s2.setCv cv { c with
        comp := some { k2 with done := true, linesDone := h }
        composed := if through then c.composed else some (k.frame, k.bank)
        capts := if drop then c.capts.filter (·.1 ≠ k.frame) else c.capts }).setBitIf drop (Reg.scnStat cv) 6
      let s4 := s3.each (k.bands.map (·.tmb)) fun t s =>
        let n := ((List.range h).filter fun y => k.tmbOf through y = t).length
        (s.setRn (Reg.tmbLines t) (min 0xFFFFFFFF (s.rn (Reg.tmbLines t) + n))).setFld (Reg.tmbStat t) 29 16
          (((List.range h).filter fun y => k.tmbOf through y = t).foldl max 0)
      let s5 := s4.endActive k
      (if through then s5.decideAll cv else s5.deliverNext cv).fspTry

def execCompositionEnd (dt : Nat) (cv : Fin 4) (s : State) : Host.Outcome State Fault Refusal :=
  done ((s.tick dt).compositionEnd cv)

/-! ### Through mode (R185-R187) -/

/-- The first transmissions of a frame's packets that a port has still to send, the one on the wire included. -/
def State.firstLeft (s : State) (cv frame p : Nat) : List Pix :=
  let pt := s.prt p
  let mine := fun (f : LFrame) => match f with
    | .pix x => if x.cv = cv && x.frame = frame && !x.resend then some x else none
    | .msg _ _ _ => none
  ((pt.queue 0).filterMap fun q => mine q.frame) ++ (match pt.wire with | some w => (mine w.frame).toList | none => [])

/-- R185: a line has been transmitted on every port of its canvas and its read-back has completed: its ring slot is free. -/
def State.lineSent (s : State) (cv frame y : Nat) : Bool :=
  (s.cv cv).deliv.any (·.frame = frame) && (s.withPartners (s.portsOf cv)).all fun p =>
    !(s.firstLeft cv frame p).any (fun x => (s.pixRows x).1 ≤ y) &&
    !(s.prt p).readback.any fun r => r.1.cv = cv && r.1.frame = frame && !r.1.resend && (s.pixRows r.1).1 ≤ y

/-- R186: the instant at which a line of a through-mode frame is due: u_y. -/
def State.lineDue (s : State) (cv : Nat) (k : Comp) (y : Nat) : Nat :=
  let t := s.timingOf cv
  let h := (s.cvSize cv).2
  k.start + (y + k.bands.length) * (if h = 0 then 0 else (t.tmin - t.lead) / h)

/-- R17: the layers that a lane of the frame puts on a line, as its Tumbler is charged for them. -/
def State.lineLays (s : State) (k : Comp) (y : Nat) : List LayW :=
  let v := s.viewAt k (k.tmbOf true y) y
  (k.lanes.map fun l => v.layW l.layer).filter fun (l : LayW) => l.dy ≤ (y : Int) && (y : Int) < l.dy + l.dh

/-- R18, R187: the instant by which a line begun at `t` has been composed: after the cycles it is charged, or where a BIND lane
may have waited, when it is due (notes/assumptions/132). -/
def State.composedBy (s : State) (cv : Nat) (k : Comp) (y t : Nat) : Nat :=
  let ls := s.lineLays k y
  let e := t + cyclesNs s.runVolt (lineCycles (s.cvSize cv).1 ls)
  if k.lanes.any fun l => l.bind.isSome && ls.any (·.n = l.layer) then max e (s.lineDue cv k y) else e

/-- R186: the lines of a through-mode frame whose time has passed are composed. -/
def State.composeDue (s : State) (cv : Nat) : State :=
  match (s.cv cv).comp with
  | none => s
  | some k =>
    if !s.bit (Reg.cvMode cv) 2 || k.done then s
    else s.composeLines cv ((k.begun.filter fun x => !k.composedLines.contains x.1 && s.composedBy cv k x.1 x.2 ≤ s.now).map (·.1))

/-- R186: before a port's transmission decision, the lines that its pixel queue waits for are composed if their time has
passed. -/
def State.headDue (s : State) (p : Nat) : State :=
  match (s.prt p).queue 0 with
  | ⟨.pix x, _⟩ :: _ => if s.pixReady x then s else s.composeDue x.cv
  | _ => s

def execFrameTxEnd (dt : Nat) (port : Fin 64) (s : State) : Host.Outcome State Fault Refusal :=
  done (((s.tick dt).headDue port).txEnd port)

def execGateChange (dt : Nat) (port : Fin 64) (s : State) : Host.Outcome State Fault Refusal :=
  let t := (s.tick dt).headDue port
  done (t.decide port (t.now * 10) false)

def execShaperRefill (dt : Nat) (port : Fin 64) (s : State) : Host.Outcome State Fault Refusal :=
  let t := (s.tick dt).headDue port
  done (t.decide port (t.now * 10) false)

def execTakeover (dt : Nat) (port : Fin 64) (s : State) : Host.Outcome State Fault Refusal :=
  done (((s.tick dt).headDue port).takeOver port)

/-- R185: a Tumbler of a through-mode canvas begins a line; it has ended the line before it. -/
def State.throughLine (s0 : State) (cv y : Nat) : State :=
  let s := s0.composeDue cv
  match (s.cv cv).comp with
  | none => s
  | some k =>
    let n := k.bands.length
    let l := s.fld (Reg.scnLeadLines cv) 10 0
    if !s.bit (Reg.cvMode cv) 2 || !(s.cv cv).live || k.done || n = 0 || (s.cvSize cv).2 ≤ y || (mfind k.begun y).isSome
        || (n ≤ y && (mfind k.begun (y - n)).isNone) || (l ≤ y && !s.lineSent cv k.frame (y - l)) then s
    else
      let s1 := if n ≤ y && !k.composedLines.contains (y - n) then s.composeLines cv [y - n] else s
      let t := k.tmbOf true y
      let s2 := if (s1.crossings cv).contains (t, y) then s1.crossLine cv t y else s1
      let c := s2.cv cv
      let s3 := s2.setCv cv { c with comp := c.comp.map fun (k : Comp) => { k with begun := mput k.begun y s2.now } }
      (s3.setFld (Reg.tmbStat t) 29 16 y).decideAll cv

def execThroughLineStart (dt : Nat) (cv : Fin 4) (line : Nat) (s : State) : Host.Outcome State Fault Refusal :=
  done ((s.tick dt).throughLine cv line)

/-- R66, R186: delivery starts once the lead lines are composed. -/
def State.throughDelivery (s0 : State) (cv : Nat) : State :=
  let s := s0.composeDue cv
  match (s.cv cv).comp with
  | none => s
  | some k =>
    let lead := min (s.fld (Reg.scnLeadLines cv) 10 0) (s.cvSize cv).2
    let left := (List.range lead).filter fun y => !k.composedLines.contains y
    if !s.bit (Reg.cvMode cv) 2 || !(s.cv cv).live || (s.cv cv).deliv.isSome || k.dropped || k.frame ≠ ((s.cv cv).showFrame + 1) % 2 ^ 32
        || !left.all (fun y => k.done || (mfind k.begun y).isSome) then s
    else (s.composeLines cv left).startDelivery cv k.frame 0

def execThroughDeliveryStart (dt : Nat) (cv : Fin 4) (s : State) : Host.Outcome State Fault Refusal :=
  done ((s.tick dt).throughDelivery cv)

/-- R187: the cutoff of a pixel of a line: the rest of the line still ends when the line is due. -/
def State.cutoffOf (s : State) (cv : Nat) (k : Comp) (y x : Nat) : Nat :=
  s.lineDue cv k y - cyclesNs s.runVolt (cyclesFrom (s.cvSize cv).1 x (s.lineLays k y))

/-- R187: the samples that a BIND lane needs for a pixel of a line have not all arrived. -/
def State.bindMissing (s : State) (k : Comp) (layer y x : Nat) : Bool :=
  let t := k.tmbOf true y
  let v := s.viewAt k t y
  let l := v.laneLine k t y layer
  l.covers x y && k.lanes.any fun ln => ln.layer = layer && ln.bind.isSome && !ln.hidden &&
    ((v.laneScaler k ln l).row (v.laneSource ln (v.laneBytes ln)) ((y : Int) - l.dy).toNat ((x : Int) - l.dx).toNat 1).any (·.miss)

/-- R187: a pixel of a line reaches its cutoff before its BIND samples: from it on, the lane takes its policy. -/
def State.bindCutoff (s : State) (cv layer line x : Nat) : State :=
  match (s.cv cv).comp with
  | none => s
  | some k =>
    if k.done || (mfind k.begun line).isNone || k.composedLines.contains line || s.now < s.cutoffOf cv k line x
        || !s.bindMissing k layer line x then s
    else
      (s.setCv cv { (s.cv cv) with comp := some { k with late := k.late ++ [(layer, line, x)] } }).setBit (Reg.layStat layer) 9

def execBindCutoff (dt : Nat) (cv : Fin 4) (layer : Fin 64) (line x : Nat) (s : State) : Host.Outcome State Fault Refusal :=
  done ((s.tick dt).bindCutoff cv layer line x)

end Sys2Proof.Machine
end

