-- ==== Sys2Proof/Machine/Frames.lean ====
section
/-! DEFINITION. Genlock, the latch time, wall votes, aborted frames, latches and the mode hinge (R68-R75, R78-R83,
R204, R205, R384). -/
namespace Sys2Proof.Machine

/-! ### Genlock sources (R69) -/

/-- R69: the exact period of an EPOCH rate code in ns, as a fraction. -/
def epochPeriod (code : Nat) : Nat × Nat :=
  let r := [(1001, 24000), (1, 24), (1, 25), (1001, 30000), (1, 30), (1001, 48000), (1, 48), (1, 50), (1001, 60000), (1, 60),
    (1, 100), (1001, 120000), (1, 120), (1, 144), (1, 200), (1, 240)].getD code (1, 24)
  (r.1 * 1000000000, r.2)

/-- R69: the first instant at or after `t` of a series that repeats `base + ⌈j × p / div⌉`, `j = 0 … div - 1`, every `p`. -/
def seriesFrom (base : Int) (p div : Nat) (t : Int) : Option Int :=
  if p = 0 then none
  else
    let m := (t - base) / (p : Int)
    let at_ := fun (j : Nat) => base + m * p + cdiv (j * p) div
    match ((List.range (div + 1)).map at_).find? fun x => Decidable.decide (t ≤ x) with
    | some x => some x
    | none => none

/-- R69: the first genlock instant at or after `t`; none: the source yields none. -/
def State.genlockFrom (s : State) (word t : Nat) : Option Nat :=
  let phase : Int := signedOf 16 (word / 65536) * 1000
  let div := bitsOf word 13 11 + 1
  match bitsOf word 2 0 with
  | 1 =>
    let (num, den) := epochPeriod (bitsOf word 6 3)
    let k := ((t : Int) - phase - 1) * den / num + 1
    let v := -(-(k * num) / (den : Int)) + phase
    some v.toNat
  | 2 => match (s.flw (bitsOf word 10 7)).times with
    | a :: b :: _ => (seriesFrom (a + phase) (a - b) div t).map Int.toNat
    | _ => none
  | 3 => match s.framePulse with
    | a :: b :: _ => (seriesFrom (a + phase) (a - b) div t).map Int.toNat
    | _ => none
  | _ => none

/-- R70: the spacing of the source's instants lies within [T_min, T_max]. -/
def State.spacingFits (s : State) (t : Timing) : Bool :=
  let w := t.genlock
  let div := bitsOf w 13 11 + 1
  let fits := fun (num den : Nat) => t.tmin ≤ num / den && cdiv num den ≤ t.tmax
  match bitsOf w 2 0 with
  | 1 => let (num, den) := epochPeriod (bitsOf w 6 3); fits num den
  | 2 => match (s.flw (bitsOf w 10 7)).times with
    | a :: b :: _ => fits (a - b) div
    | _ => false
  | 3 => match s.framePulse with
    | a :: b :: _ => fits (a - b) div
    | _ => false
  | _ => false

/-- R69: a rising edge of the frame-pulse input, rounded up to 4 ns. -/
def State.framePulseEdge (s : State) : State :=
  if (List.range 16).any fun p => s.gpioFunc p = 1 then { s with framePulse := cdiv s.now 4 * 4 :: s.framePulse.take 1 } else s

def execFramePulse (dt : Nat) (s : State) : Host.Outcome State Fault Refusal := done (s.tick dt).framePulseEdge

/-! ### Aborted frames (R73-R75) -/

/-- R71: the deadline of the frame that a canvas is to latch next. -/
def State.deadlineOf (s : State) (cv : Nat) : Nat :=
  let t := s.timingOf cv
  (s.cv cv).lastLatch + t.tmax - t.lead

/-- R68, R73: the packets of a canvas's frame leave the pixel queues. -/
def State.purge (s : State) (cv : Nat) (frame : Option Nat) : State :=
  let out := fun (q : Queued) => match q.frame with
    | .pix x => x.cv = cv && frame.all (· = x.frame)
    | .msg _ _ _ => false
  s.each (List.range 64) fun p s =>
    let s := s.takeBack p
    let pt := s.prt p
    if (pt.queue 0).any out then (s.setPrt p (pt.setQueue 0 ((pt.queue 0).filter (!out ·)))).decide p (s.now * 10) false else s

/-- R384: this device's VOTE on the frame a canvas is to latch next. -/
def State.sendVote (s : State) (cv : Nat) (cand : Option Nat) : State :=
  let c := s.cv cv
  let k := s.kLimit cv
  let s1 := s.haspSend 0x03 (beBytes 1 cv ++ beBytes 8 c.lastLatch ++ beBytes 8 (cand.getD (2 ^ 64 - 1)) ++ beBytes 2 k)
  s1.setCv cv { (s1.cv cv) with votes := (s1.cv cv).votes ++ [⟨s.ringPos, c.lastLatch, cand, k⟩] }

/-- R73-R75: the frame that a canvas is to latch next is aborted: by its own failure, or by another device's or a missing
vote. -/
def State.abortFrame (s : State) (cv : Nat) (own missing : Bool) : State :=
  let c := s.cv cv
  let n := (c.showFrame + 1) % 2 ^ 32
  let o := Reg.cvStat cv
  let s1 := (s.setBit o 1).incr (Reg.cvAbortCnt cv)
  let t := s.timingOf cv
  let lo := c.lastLatch + t.tmin
  let far := c.cand.isNone && (s.genlockFrom t.genlock lo).any (c.lastLatch + t.tmax < ·)
  let s2 := (s1.setBitIf far o 4).countDegraded cv n
  let s3 := if own then (s2.setBit o 0).incr (Reg.cvUnderrunCnt cv) else s2.setBit o 2
  let s4 := (s3.setBitIf missing o 3).purge cv (some n)
  let s5 := if c.comp.any (·.frame = n) then s4.dropComp cv else s4
  let part := c.capts.find? (·.1 = n)
  let s6 := s5.setBitIf part.isSome (Reg.scnStat cv) 7
  let c6 := s6.cv cv
  let s7 := s6.setCv cv { c6 with
    deliv := none, cand := none
    composed := if c6.composed.any (·.1 = n) then none else c6.composed
    voidAt := some (c.lastLatch + (s.timingOf cv).tmax)
    captReuse := match part with | some x => some x.2 | none => c6.captReuse
    capts := c6.capts.filter (·.1 ≠ n) }
  let s8 := if own && s7.bit (Reg.cvMode cv) 3 then s7.sendVote cv none else s7
  if s8.bit (Reg.cvMode cv) 2 then
    s8.sendHolds cv ((s8.withPartners (s8.portsOf cv)).map fun p => (p, 0xFFFF, holdBody n (s8.fld (Reg.cvEpoch cv) 15 0) false false))
  else s8

/-- A canvas has a frame under way whose latch is not settled. -/
def Canvas.unsettled (c : Canvas) : Bool := c.live && c.primed && c.latchAt.isNone && c.voidAt.isNone

/-- R71, R73, R74: the deadline passes with the frame not delivered. -/
def State.frameDeadline (s : State) (cv : Nat) : State :=
  let c := s.cv cv
  if c.unsettled && c.cand.isNone && s.deadlineOf cv ≤ s.now then s.abortFrame cv true false else s

def execFrameDeadline (dt : Nat) (cv : Fin 4) (s : State) : Host.Outcome State Fault Refusal := done ((s.tick dt).frameDeadline cv)

/-- R74, R186: scan-out of a through-mode frame reaches a line that has not been composed. -/
def State.underrun (s0 : State) (cv : Nat) : State :=
  let s := s0.composeDue cv
  let c := s.cv cv
  match c.comp with
  | none => s
  | some k =>
    let (_, h) := s.cvSize cv
    let y := k.linesDone
    let ahead := fun (p : Nat) => match c.deliv with
      | some _ => !(s.firstLeft cv k.frame p).any fun x => (s.pixRows x).1 < y
      | none => (s.packetsFor cv k.frame p).all fun x => y ≤ (s.pixRows x).1
    if c.unsettled && s.bit (Reg.cvMode cv) 2 && !k.done && y < h && s.lineDue cv k y ≤ s.now
        && (s.portsOf cv).any ahead then s.abortFrame cv true false
    else s

def execUnderrun (dt : Nat) (cv : Fin 4) (s : State) : Host.Outcome State Fault Refusal := done ((s.tick dt).underrun cv)

/-! ### The latch time (R71, R72) -/

/-- R71, R204: the latch time of a canvas's frame is set and announced. -/
def State.setLatch (s : State) (cv l : Nat) (k : Option Nat) : State :=
  let c := s.cv cv
  let s1 := s.setCv cv { c with latchAt := some l, cand := none, latchRep := some (s.now + 2000), kNext := k }
  (s1.sendLatch cv ((c.showFrame + 1) % 2 ^ 32) l 0).fspTry

/-- R384: the positions whose vote a canvas needs. -/
def State.voters (s : State) (cv : Nat) : List Nat :=
  s.ringPos :: ((s.haspMembers.filter fun x => x.2.cvMask.testBit cv).map (·.1)).filter (· ≠ s.ringPos)

/-- R72, R384: settle the frame once the votes allow it. -/
def State.settleVotes (s : State) (cv : Nat) : State :=
  let c := s.cv cv
  let vs := c.votes.filter (·.prev = c.lastLatch)
  if !c.unsettled || !s.bit (Reg.cvMode cv) 3 then s
  else if vs.any (·.cand.isNone) then s.abortFrame cv false false
  else if c.cand.isSome && (s.voters cv).all fun p => vs.any (·.pos = p) then
    s.setLatch cv (vs.foldl (fun m v => max m (v.cand.getD 0)) 0) (some (vs.foldl (fun m v => min m v.k) 65535))
  else s

/-- R72: a device's vote arrives. -/
def State.onVote (s : State) (cv pos prev : Nat) (cand : Option Nat) (k : Nat) : State :=
  let c := s.cv cv
  (s.setCv cv { c with votes := c.votes.filter (fun v => v.pos ≠ pos || v.prev ≠ prev) ++ [⟨pos, prev, cand, k⟩] }).settleVotes cv

/-- R68: every packet of the frame in delivery has been sent once, with every resend that the reserve covers and that was
requested before the last of those transmissions ended. -/
def State.allSent (s : State) (cv : Nat) (d : Deliv) : Bool :=
  d.owed.isEmpty && (List.range 64).all fun p => (s.firstLeft cv d.frame p).isEmpty

/-- R68, R71, R72: delivery of a canvas's frame is complete; the generator sets its latch time, in a wall by vote. -/
def State.deliveryComplete (s : State) (cv : Nat) : State :=
  let c := s.cv cv
  match c.deliv with
  | none => s
  | some d =>
    let t := s.timingOf cv
    if !c.unsettled || d.done.isSome || d.broken || d.frame ≠ (c.showFrame + 1) % 2 ^ 32 || s.deadlineOf cv < s.now
        || !s.allSent cv d || c.comp.any (fun k => k.frame = d.frame && !k.done) then s
    else
      let lo := c.lastLatch + t.tmin
      let g := (s.genlockFrom t.genlock lo).getD lo
      let far := c.lastLatch + t.tmax < g
      let g := if far then c.lastLatch + t.tmax else g
      let l := max (max lo g) (s.now + t.lead)
      let s1 := (s.setCv cv { c with deliv := some { d with done := some s.now }, cand := some l }).setBitIf far (Reg.cvStat cv) 4
      if s1.bit (Reg.cvMode cv) 3 then (s1.sendVote cv (some l)).settleVotes cv else s1.setLatch cv l none

def execDeliveryComplete (dt : Nat) (cv : Fin 4) (s : State) : Host.Outcome State Fault Refusal :=
  done ((s.tick dt).deliveryComplete cv)

/-- R72, R75: a vote is missing 10,000 ns after the latest deadline of the ring. -/
def State.voteTimeout (s : State) (cv : Nat) : State :=
  let c := s.cv cv
  if c.unsettled && s.bit (Reg.cvMode cv) 3 && s.deadlineOf cv + 10000 ≤ s.now then s.abortFrame cv false true else s

def execVoteTimeout (dt : Nat) (cv : Fin 4) (s : State) : Host.Outcome State Fault Refusal := done ((s.tick dt).voteTimeout cv)

/-- R204: the second copy of a LATCH, 2,000 ns after the first. -/
def State.latchRepeat (s : State) (cv : Nat) : State :=
  let c := s.cv cv
  match c.latchRep with
  | none => s
  | some t =>
    if s.now < t then s
    else
      let (n, l) := match c.latchAt with
        | some l => ((c.showFrame + 1) % 2 ^ 32, l)
        | none => (c.showFrame, c.lastLatch)
      (s.setCv cv { c with latchRep := none }).sendLatch cv n l 2000

def execLatchRepeat (dt : Nat) (cv : Fin 4) (s : State) : Host.Outcome State Fault Refusal := done ((s.tick dt).latchRepeat cv)

/-! ### The mode hinge at L_h (R79-R83) -/

/-- R80 steps 1 to 3, R83: the canvas's pending hinge runs at its L_h: the composition due there starts and is stopped; what
waits on the canvas applies, since it stops being live (R56). -/
def State.hingeLh (s : State) (cv : Nat) (h : Hinge) : State :=
  let old := s.portsOf cv
  let st := s.standing
  let s1 := ((s.doStart cv false []).dropComp cv).purge cv none
  let s2 := (s1.setCv cv { (s1.cv cv) with
    composed := none, deliv := none, due := none, waitFrom := none, held := none, cand := none, capts := [] }).nextEpoch cv
  let off := !st.bit (Reg.cvMode cv) 0 || s2.cvShed cv
  let cfg := if off then [] else (st.cfgTiles cv false (s.stagedOn cv)).filter fun n => (st.tile n).given
  let ports := (s2.withPartners (old ++ (st.portsOf cv).filter fun p => !old.contains p)).eraseDups
  let s3 := s2.hingeHold cv ports cfg
  let es := s3.latch.applying.filter fun a => a.cv = cv && a.at_ = .hinge
  let s4 := ((if es.isEmpty then s3 else s3.applyEvent es).placeStaged cv).holdTiles cv ports
  let dl := s.now + s4.fld (Reg.cvHingeHold cv) 3 0 * s4.tmaxOf cv
  if off then
    let s5 := (((s4.setCv cv { (s4.cv cv) with gen := .off, hinge := none, primed := false }).freeBanks cv).freeSurfaces cv).canvasStopped cv
    ((s5.publishBands s5.bandState).moveStarted cv).allowStarted cv
  else
    let s5 := (s4.setCv cv { (s4.cv cv) with
      gen := .reconfig, primed := false, hinge := some { h with lh := some s.now, deadline := dl, cfg := cfg } }).canvasStopped cv
    s5.publishBands s5.bandState

/-- R217: a tile still owes its answer to the COMMIT of its canvas's hinge epoch. -/
def State.unacked (s : State) (t : Tile) : Bool :=
  t.cfg.any fun c => c.commit && c.epoch ≠ 0 && c.epoch = s.fld (Reg.cvEpoch t.cv) 15 0

/-- R80 step 6, R81: tiles that have acknowledged their CONFIG writes are released by the LATCH of a frame. -/
def State.releaseTiles (s : State) (cv : Nat) : State :=
  let s1 := s.each ((s.placedOn cv).map (·.1)) fun n s =>
    let t := s.tile n
    if t.given && !s.unacked t && !t.released then
      s.setTileHw n { t with released := true, dark := false, state := if t.state = .blanked then .assigned else t.state }
    else s
  match (s1.cv cv).hinge with
  | some h =>
    if h.s.isSome && (s1.placedOn cv).all (fun x => x.2.released || !x.2.given || x.2.state = .lost) then
      (s1.setCv cv { (s1.cv cv) with hinge := none, gen := .run }).setBit (Reg.cvStat cv) 9
    else s1
  | none => s1

/-- R80 steps 4 and 5: step 3 of a hinge is complete, at S: banks, CONFIG writes, the generator restarts. -/
def State.reconfigDone (s : State) (cv : Nat) : State :=
  let c := s.cv cv
  match c.hinge with
  | none => s
  | some h =>
    if c.gen ≠ .reconfig then s
    else
      let through := s.bit (Reg.cvMode cv) 2
      let (w, ht) := s.cvSize cv
      let s1 := s.allocBanks cv w ht (s.bppOf cv) through
      let fresh := (s1.cfgTiles cv false []).filter fun n => !h.cfg.contains n
      let s2 := s1.each (h.cfg ++ fresh) fun n s => s.writeFormat n (s.fld (Reg.cvEpoch cv) 15 0)
      let t := s2.now
      let s3 := s2.setCv cv { (s2.cv cv) with
        gen := .priming, hinge := some { h with s := some t }, lastLatch := t, showFrame := s2.rn (Reg.cvFrameCnt cv)
        primed := through, voidAt := if through then none else some (t + s2.fld (Reg.cvTmin cv) 25 0)
        due := some t, waitFrom := none, held := none, latchAt := none, cand := none, composed := none
        deliv := none, votes := [], lastBank := 1, captReuse := none, capts := [] }
      if through then s3.setRn64 (Reg.cvLastLatchLo cv) t else s3

def execHingeReconfigDone (dt : Nat) (cv : Fin 4) (s : State) : Host.Outcome State Fault Refusal :=
  done ((s.tick dt).reconfigDone cv)

/-- R81, R83: the hinge deadline: tiles that have not acknowledged are told to blank. -/
def State.hingeDeadline (s : State) (cv : Nat) : State :=
  let c := s.cv cv
  match c.hinge with
  | none => s
  | some h =>
    if c.gen ≠ .priming || s.now < h.deadline then s
    else
      let e := s.fld (Reg.cvEpoch cv) 15 0
      let late := ((s.placedOn cv).filter fun x => x.2.given && s.unacked x.2).map (·.1)
      let s1 := s.sendHolds cv (s.tileHolds late (holdBody (s.rn (Reg.cvFrameCnt cv)) e true true))
      let s2 := s1.each late fun n s => s.setTileHw n { (s.tile n) with state := .blanked, released := false, dark := true }
      (s2.setCv cv { (s2.cv cv) with gen := .run }).setBit (Reg.cvStat cv) 10

def execHingeDeadline (dt : Nat) (cv : Fin 4) (s : State) : Host.Outcome State Fault Refusal := done ((s.tick dt).hingeDeadline cv)

/-- R205: HOLD messages whose first copy went out 2,000 ns ago are sent a second time. -/
def State.holdRepeat (s : State) (cv : Nat) : State :=
  let l := (s.cv cv).holds
  let s1 := (l.filter (·.1 ≤ s.now)).foldl (fun s x => s.send x.2.1 7 0x12 x.2.2.1 x.2.2.2) s
  s1.setCv cv { (s1.cv cv) with holds := l.filter (s.now < ·.1) }

def execHoldRepeat (dt : Nat) (cv : Fin 4) (s : State) : Host.Outcome State Fault Refusal := done ((s.tick dt).holdRepeat cv)

/-! ### Latches and void latches -/

/-- R70: a latch is counted for lock: the last eight, each by the series as known at its instant (notes/assumptions/137). -/
def State.countLock (s : State) (cv l : Nat) (t : Timing) : State :=
  let c := s.cv cv
  let on := s.genlockFrom t.genlock l = some l && s.spacingFits t
  let run := (on :: c.lockRun).take 8
  let locked := run.length = 8 && run.all id
  let o := Reg.cvStat cv
  ((s.setCv cv { c with lockRun := run, locked := locked, onGenlock := on }).setBitIf (locked && !c.locked) o 5).setBitIf
    (!locked && c.locked) o 6

/-- R65, R80: what a latch and a void latch share: the next composition start is due, the next delivery may start, a pending
hinge runs. -/
def State.afterLatch (s : State) (cv : Nat) : State :=
  let c := s.cv cv
  let h := match c.hingeNext with
    | some n => some n
    | none => c.hinge.filter (·.lh.isNone)
  match h with
  | some h => (s.setCv cv { c with hinge := some h, hingeNext := none }).hingeLh cv h
  | none => (s.setCv cv { c with due := c.due <|> some c.lastLatch }).deliverNext cv

/-- R65, R71, R80, R180, R190, R388: wall time reaches L_N: the tiles show frame N. -/
def State.latchInstant (s : State) (cv : Nat) : State :=
  let c := s.cv cv
  match c.latchAt with
  | none => s
  | some l =>
    if s.now < l || !c.live then s
    else
      let n := (c.showFrame + 1) % 2 ^ 32
      let t := s.timingOf cv
      let s1 := (s.countLock cv l t).setRn64 (Reg.cvLastLatchLo cv) l
      let b := s1.bank cv
      let s2 := s1.setBank cv { b with showB := c.deliv.any (·.bank = 1) }
      let capt := c.capts.find? (·.1 = n)
      let s3 := match capt with
        | some x => ((s2.setFld (Reg.scnCaptCtrl cv) 27 24 x.2).setBit (Reg.scnCaptCtrl cv) 31).setBit (Reg.scnStat cv) 5
        | none => s2
      let s4 := match c.kNext with
        | some k => { s3 with keep := { s3.keep with wallK := mset s3.keep.wallK cv 65535 k } }
        | none => s3
      let c4 := s4.cv cv
      let s5 := s4.setCv cv { c4 with
        lastLatch := l, showFrame := n, latchAt := none, voidAt := none, cand := none, kNext := none, deliv := none
        held := if c4.waitFrom.isNone then none else c4.held
        votes := c4.votes.filter (·.prev = l), capts := c4.capts.filter (·.1 ≠ n) }
      ((s5.pulse (2 + cv)).releaseTiles cv).afterLatch cv

def execLatchInstant (dt : Nat) (cv : Fin 4) (s : State) : Host.Outcome State Fault Refusal := done ((s.tick dt).latchInstant cv)

/-- R73, R74, R80: wall time reaches the void latch of an aborted frame, or L_0 of a hinge. -/
def State.voidLatch (s : State) (cv : Nat) : State :=
  let c := s.cv cv
  match c.voidAt with
  | none => s
  | some l =>
    if s.now < l || !c.live then s
    else
      let s1 := s.setRn64 (Reg.cvLastLatchLo cv) l
      let c1 := s1.cv cv
      (s1.setCv cv { c1 with
        lastLatch := l, showFrame := if c.primed then (c.showFrame + 1) % 2 ^ 32 else c.showFrame, primed := true, voidAt := none
        cand := none, held := if c1.waitFrom.isNone then none else c1.held, votes := c1.votes.filter (·.prev = l) }).afterLatch cv

def execVoidLatch (dt : Nat) (cv : Fin 4) (s : State) : Host.Outcome State Fault Refusal := done ((s.tick dt).voidLatch cv)

end Sys2Proof.Machine
end

