-- ==== Sys2Proof/Machine/Time.lean ====
section
/-! DEFINITION. The wall time base (R354-R362): what it follows, the servo's lock, corrections as steps and slews, SET,
the election of the time master, leap seconds, the calendar's validity and the backup copy. -/
namespace Sys2Proof.Machine

/-! ### What the time base follows (R355, R358) -/

/-- R383: other devices are in the ring. -/
def State.inRing (s : State) : Bool := !s.haspMembers.isEmpty

/-- R355: what disciplines the time base: 0 nothing, 1 PTP, 2 the ring's master. -/
def State.timeMode (s : State) : Nat :=
  let ptp := if s.bit Reg.ptpStat 31 then 1 else 0
  let hasp := if s.bit (Reg.haspMaster 0) 31 && !s.bit Reg.timeStat 30 && s.inRing then 2 else 0
  match s.fld Reg.timeSrc 1 0 with
  | 0 => 0
  | 1 => ptp
  | 2 => hasp
  | _ => if s.inRing && !s.bit Reg.timeStat 30 then hasp else ptp

/-- R358: the device's own class. -/
def State.timeClass (s : State) : Nat :=
  if s.timeMode = 1 && s.bit Reg.timeStat 28 then 0
  else if s.tbase.holdover && s.tbase.ptpHeld then 1
  else if s.calValid then 2
  else 3

/-- R358: the class a HELLO carries; a device that is no candidate sends 255 (notes/assumptions/85). -/
def State.helloClass (s : State) : Nat := if s.bit Reg.timeSrc 4 then s.timeClass else 255

/-- R358: rank order: class, priority, serial number. -/
def rankBelow (a b : Nat × Nat × Nat) : Bool :=
  a.1 < b.1 || (a.1 = b.1 && (a.2.1 < b.2.1 || (a.2.1 = b.2.1 && a.2.2 < b.2.2)))

/-- Put a master into the registers of both Hasp pages. -/
def State.setMaster (s : State) (v : Nat) : State := (s.setRn (Reg.haspMaster 0) v).setRn (Reg.haspMaster 1) v

/-- R358: the lowest rank of the ring's candidates, with its position. -/
def State.bestRank (s : State) : Option (Nat × Nat × Nat × Nat) :=
  let own := if s.bit Reg.timeSrc 4 then
      [(s.ringPos, s.timeClass, s.fld Reg.timeSrc 15 8, Config.serial.toNat)] else []
  let all := own ++ s.haspMembers.filterMap fun x => if x.2.cls ≤ 3 then some (x.1, x.2.cls, x.2.prio, x.2.serial) else none
  all.foldl (fun b x => match b with
    | none => some x
    | some y => if rankBelow x.2 y.2 then some x else b) none

/-- R358: the election; in no ring there is no master. -/
def State.elect (s : State) : State :=
  let old := s.rn (Reg.haspMaster 0)
  let new := if !s.inRing then 3 * 16 else match s.bestRank with
    | none => 3 * 16
    | some (p, c, _, _) => p + c * 16 + 2 ^ 31
  let me := new ≥ 2 ^ 31 && new % 16 = s.ringPos
  let changed := (old / 2 ^ 31 ≠ new / 2 ^ 31 || (new ≥ 2 ^ 31 && old % 16 ≠ new % 16))
  ((s.setMaster new).setFld Reg.timeStat 30 30 (if me then 1 else 0)).setBitIf changed Reg.timeStat 2

/-! ### The calendar (R359) -/

/-- R359, R324: the calendar becomes valid, and the schedule is replayed. -/
def State.calBecomes (s : State) (by_ : Nat) : State :=
  let s1 := { s with tbase := { s.tbase with calBy := by_ } }
  if s.calValid then s1 else (s1.setBit Reg.timeStat 31).replay

/-- R359: what made the calendar valid no longer holds. -/
def State.calLost (s : State) (by_ : Nat) : State :=
  if s.calValid && s.tbase.calBy = by_ then
    { s with tbase := { s.tbase with calBy := 0 } }.clrBit Reg.timeStat 31 |>.setBit Reg.timeStat 5
  else s

/-- R359: UTC_OFS as a source gives it, with the day on which a leap flag was raised. -/
def State.setUtc (s : State) (ofs : Nat) (l61 l59 : Bool) : State :=
  let s0 := if (l61 || l59) && s.fld Reg.timeUtcOfs 17 16 = 0 then
      { s with tbase := { s.tbase with leapDay := (s.utcSec / 86400).toNat } } else s
  (s0.setRn Reg.timeUtcOfs (ofs % 65536 + (if l61 then 2 ^ 16 else 0) + (if l59 then 2 ^ 17 else 0) + 2 ^ 31)).zoneChanged s

/-- R359: an inserted or deleted leap second passes: UTC_OFS follows it (notes/assumptions/86). -/
def State.leapSecond (s : State) : State :=
  let w := s.rn Reg.timeUtcOfs
  if w / 2 ^ 16 % 4 = 0 then s
  else
    let n := if w.testBit 16 then w % 65536 + 1 else w % 65536 - 1
    ((s.setFld Reg.timeUtcOfs 15 0 n).setFld Reg.timeUtcOfs 17 16 0).setBit Reg.timeStat 4

def execLeapSecond (dt : Nat) (s : State) : Host.Outcome State Fault Refusal := done (s.tick dt).leapSecond

/-! ### Corrections (R357) -/

/-- An instant moved by a step. -/
def shiftAt (c : Int) (t : Nat) : Nat := ((t : Int) + c).toNat

/-- The instants of a list that keeps each with a key, or an instant that may be absent, moved by a step. -/
def shiftKeyed (c : Int) (l : Sparse Nat) : Sparse Nat := l.map fun (x : Nat × Nat) => (x.1, shiftAt c x.2)

def shiftMaybe (c : Int) (l : Sparse (Option Nat)) : Sparse (Option Nat) :=
  l.map fun (x : Nat × Option Nat) => (x.1, x.2.map (shiftAt c))

def shiftNoted (c : Int) (l : List (Pix × Nat)) : List (Pix × Nat) := l.map fun x => (x.1, shiftAt c x.2)

/-- A token bucket's last refill, in tenths of a nanosecond, moved by a step. -/
def Bucket.shift (c : Int) (b : Bucket) : Bucket := { b with at_ := shiftAt (10 * c) b.at_ }

/-- The instants of a canvas's frames moved by a step, so that the intervals they measure stay (notes/assumptions/87). -/
def Canvas.shift (k : Canvas) (c : Int) : Canvas :=
  let m := shiftAt c
  { k with
    lastLatch := m k.lastLatch
    due := k.due.map m
    waitFrom := k.waitFrom.map m
    composed := k.composed.map fun x => (x.1, m x.2)
    latchAt := k.latchAt.map m
    cand := k.cand.map m
    voidAt := k.voidAt.map m
    lastStart := m k.lastStart
    latchRep := k.latchRep.map m
    comp := k.comp.map fun x => { x with start := m x.start, begun := shiftKeyed c x.begun }
    deliv := k.deliv.map fun x => { x with start := m x.start, done := x.done.map m, lastEnd := m x.lastEnd, sent := shiftNoted c x.sent }
    votes := k.votes.map fun v => { v with prev := m v.prev, cand := v.cand.map m }
    holds := k.holds.map fun x => (m x.1, x.2)
    hinge := k.hinge.map fun h => { h with fired := m h.fired, lh := h.lh.map m, s := h.s.map m, deadline := m h.deadline } }

/-- What a port measures moved by a step: its wire and buckets in tenths of a nanosecond, its queues, its loop and what it
has heard. -/
def Port.shift (p : Port) (c : Int) : Port :=
  let m := shiftAt c
  { p with
    lq := p.lq.map fun (x : Nat × List Queued) => (x.1, x.2.map fun (q : Queued) => { q with at_ := m q.at_ })
    wire := p.wire.map fun w => { w with
      start := shiftAt (10 * c) w.start, stop := shiftAt (10 * c) w.stop
      was := { w.was with at_ := m w.was.at_, shaper := w.was.shaper.map (Bucket.shift c), tile := w.was.tile.map (Bucket.shift c) } }
    wireFree := shiftAt (10 * c) p.wireFree
    shaper := p.shaper.map (Bucket.shift c)
    police := p.police.map (Bucket.shift c)
    disc := p.disc.map (Bucket.shift c)
    headAt := m p.headAt
    headSeen := m p.headSeen
    broken := p.broken.map m
    switchAt := p.switchAt.map m
    wholeFrom := p.wholeFrom.map m
    lastDisc := m p.lastDisc
    quiet := m p.quiet }

/-- What is measured of a tile moved by a step. -/
def Tile.shift (t : Tile) (c : Int) : Tile :=
  { t with
    heard := shiftAt c t.heard
    heardOther := shiftAt c t.heardOther
    assignAt := shiftAt c t.assignAt
    cfg := t.cfg.map fun x => { x with sentAt := shiftAt c x.sentAt } }

/-- What a flow and its policer measure moved by a step. -/
def Flow.shift (f : Flow) (c : Int) : Flow :=
  { f with
    doneAt := shiftAt c f.doneAt
    begunAt := shiftAt c f.begunAt
    heardM := f.heardM.map (shiftAt c)
    bucket := f.bucket.map fun b => { b with at_ := shiftAt c b.at_ }
    asm := f.asm.map fun x => { x with at_ := shiftAt c x.at_ } }

/-- What the memory system measures moved by a step. -/
def Mem.shift (m : Mem) (c : Int) : Mem :=
  let req := fun (r : MemReq) => { r with at_ := shiftAt c r.at_ }
  { m with
    subs := m.subs.map fun (x : Nat × SubChan) => (x.1, { x.2 with
      reads := x.2.reads.map req
      writes := x.2.writes.map req
      waiting := x.2.waiting.map req
      rows := x.2.rows.map fun (y : Nat × Option (Nat × Nat)) => (y.1, y.2.map fun (r : Nat × Nat) => (r.1, shiftAt c r.2)) })
    chans := m.chans.map fun (x : Nat × MemChan) => (x.1, { x.2 with
      refAt := shiftKeyed c x.2.refAt
      last := shiftAt c x.2.last
      exitAt := shiftAt c x.2.exitAt })
    fsp := m.fsp.map fun (x : Nat × Nat) => (x.1, shiftAt c x.2)
    frozen := m.frozen.map (shiftAt c) }

/-- What the Keeper measures moved by a step; its energy has been counted up to the step. -/
def Keep.shift (k : Keep) (c : Int) : Keep :=
  let m := shiftAt c
  { k with
    fades := k.fades.map fun (x : Nat × Option Fade) => (x.1, x.2.map fun (y : Fade) => { y with at_ := m y.at_ })
    hotFrom := k.hotFrom.map m
    coolFrom := k.coolFrom.map m
    endFrom := k.endFrom.map m
    heldFrom := shiftMaybe c k.heldFrom
    forced := shiftMaybe c k.forced
    fspWait := k.fspWait.map m
    lateUntil := m k.lateUntil
    energyAt := m k.energyAt
    paceAt := m k.paceAt
    dayFrom := k.dayFrom.map m }

/-- What the Hasp unit measures moved by a step. -/
def Hasp.shift (h : Hasp) (c : Int) : Hasp :=
  let m := shiftAt c
  { h with
    members := h.members.map fun (x : Nat × Option Member) => (x.1, x.2.map fun (y : Member) => { y with heard := m y.heard })
    ports := h.ports.map fun (x : Nat × HaspPort) => (x.1, { x.2 with
      peer := x.2.peer.map fun (y : Nat × Nat) => (y.1, m y.2), heard := m x.2.heard })
    seen := h.seen.map fun x => (x.1, x.2.1, x.2.2.1, m x.2.2.2)
    clash := shiftMaybe c h.clash
    tunnel := h.tunnel.map fun t => { t with sentAt := m t.sentAt } }

/-- What the PTP client measures moved by a step. -/
def Ptp.shift (p : Ptp) (c : Int) : Ptp :=
  let m := shiftAt c
  { p with
    masters := p.masters.map fun x => { x with heard := m x.heard, before := x.before.map m }
    sync := p.sync.map fun x => (x.1, m x.2.1, x.2.2)
    req := p.req.map fun (x : Nat × Nat) => (x.1, m x.2)
    reqAt := p.reqAt.map m }

/-- R357: the wall time and every instant from which an interval is being measured, moved by a step (notes/assumptions/87). -/
def State.shift (s : State) (c : Int) : State :=
  let m := shiftAt c
  { s with
    now := m s.now % 2 ^ 64
    latch := { s.latch with evalFrom := s.latch.evalFrom.map m }
    ward := { s.ward with readmit := s.ward.readmit.map m, restored := m s.ward.restored }
    canvases := s.canvases.map fun (x : Nat × Canvas) => (x.1, x.2.shift c)
    lamp := { s.lamp with start := m s.lamp.start }
    ports := s.ports.map fun (x : Nat × Port) => (x.1, x.2.shift c)
    tiles := s.tiles.map fun (x : Nat × Tile) => (x.1, x.2.shift c)
    taccess := s.taccess.map fun t => { t with sentAt := m t.sentAt }
    tshaper := s.tshaper.map fun (x : Nat × Option Bucket) => (x.1, x.2.map (Bucket.shift c))
    mem := s.mem.shift c
    dma := s.dma.map fun (x : Nat × DmaChan) => (x.1, { x.2 with
      pace := x.2.pace.map fun (y : Nat × Nat × Nat) => (y.1, y.2.1, m y.2.2) })
    flows := s.flows.map fun (x : Nat × Flow) => (x.1, x.2.shift c)
    keep := s.keep.shift c
    faults := { s.faults with ltFrom := s.faults.ltFrom.map m }
    plls := s.plls.map fun (x : Nat × Pll) => (x.1, { x.2 with
      locking := x.2.locking.map m, lossAt := x.2.lossAt.map m, out0 := m x.2.out0, out1 := m x.2.out1 })
    hasp := s.hasp.shift c
    ptp := s.ptp.shift c
    framePulse := s.framePulse.map m
    pulses := shiftMaybe c s.pulses
    turnkey := { s.turnkey with
      enum := s.turnkey.enum.map fun (x : Nat × Nat) => (x.1, m x.2), waitFrom := s.turnkey.waitFrom.map m, itemAt := m s.turnkey.itemAt } }

/-- R357, R242: a port with a gate list takes its operational list over again. -/
def State.armRetake (s : State) (p : Nat) : State :=
  let pt := s.prt p
  if pt.oper.isEmpty then s
  else
    let ok := s.now + 2000 ≤ pt.base
    let t := if ok then pt.base else pt.base + cdiv (s.now + 2000 - pt.base) pt.cycle * pt.cycle
    let s1 := if ok then s else (s.setBit Reg.schedStat 0).incr Reg.schedLateStartCnt
    s1.setPrt p { (s1.prt p) with retake := some t }

/-- R357, R294: event timers whose time a step forward has passed fire at once. -/
def State.stepTimers (s : State) (old : Nat) : State :=
  s.each ((List.range 16).filter fun t =>
      let p := s.fld (Reg.dmagTimer t) 29 0 * 1000
      s.bit (Reg.dmagTimer t) 31 && p ≠ 0 && old / p < s.now / p)
    fun t s => s.each ((List.range 64).filter fun c => s.triggered 1 t c) fun c s => s.start c

/-- R357: wall time steps by `c`. -/
def State.stepTime (s : State) (c : Int) : State :=
  let s0 := s.integrate
  let s2 := (s0.shift c).setBit Reg.timeStat 0
  let s3 := s2.each ([0, 1, 2, 3].filter s2.liveCv) fun cv s => if s.hingeBusy cv then s else s.arm 0 (.hinge cv) none []
  let s4 := s3.each (List.range 64) fun p s => s.armRetake p
  let s5 := s4.each [0, 1, 2, 3] fun t s => s.timeTrigger t []
  (s5.stepTimers s0.now).zoneChanged s

/-- R357: a correction is a step where it is large and either nothing is live or steps are allowed; else a slew, which
the model's wall time has in its passing already (notes/assumptions/88). -/
def State.correct (s : State) (c : Int) : State :=
  let quiet := !s.anyLive && !(List.range 64).any fun p => s.bit (Reg.prtCtrl p) 0
  if s.fld Reg.timeCtrl 23 16 * 1000 < c.natAbs && (quiet || s.bit Reg.timeCtrl 0) then s.stepTime c
  else s.setBitIf (c ≠ 0) Reg.timeStat 1

/-- R356, R357: an offset, wall time less source time, reaches the servo. -/
def State.servo (s : State) (hasp : Bool) (offset : Int) : State :=
  if s.timeMode ≠ (if hasp then 2 else 1) then s
  else
    let near := offset.natAbs ≤ (if hasp then 10 else 100)
    let i := if near then min 16 (s.tbase.inside + 1) else 0
    let o := if near then 0 else min 4 (s.tbase.outside + 1)
    let lock := if i = 16 then true else if o = 4 then false else s.bit Reg.timeStat 28
    let s1 := { s with tbase := { s.tbase with inside := i, outside := o, holdover := false, ptpHeld := !hasp } }
    let s2 := s1.setFld Reg.timeStat 28 28 (if lock then 1 else 0)
    let s3 := if s2.bit (Reg.pllStat 0) 28 then s2.clrBit Reg.timeStat 29 else s2
    let s4 := s3.setBitIf (!hasp) Reg.timeStat 27
    let s5 := if !hasp && s4.tbase.traceable then s4.calBecomes 1 else s4
    (s5.correct (-offset)).elect

def execServoOffset (dt : Nat) (hasp : Bool) (offset : Int) (s : State) : Host.Outcome State Fault Refusal :=
  done ((s.tick dt).servo hasp offset)

/-- R356: the source the time base follows has stopped. -/
def State.sourceStops (s : State) : State :=
  if s.tbase.holdover then s
  else
    let s1 := { s with tbase := { s.tbase with holdover := true, inside := 0, outside := 0 } }
    ((s1.setBit Reg.timeStat 29).setBit Reg.timeStat 3).clrBit Reg.timeStat 28

/-- R43, R357, R359: a write of SET_HI. -/
def State.writeSet (s : State) (v : Word) : State :=
  let lo := (mget s.loHeld Reg.timeSetLo none).getD (s.reg Reg.timeSetLo)
  let s1 := ({ s with loHeld := mdrop s.loHeld Reg.timeSetLo }.setReg Reg.timeSetLo lo).setReg Reg.timeSetHi v
  let c : Int := (s1.rn64 Reg.timeSetLo : Int) - (s1.now : Int)
  let s2 := s1.correct c
  (if s2.bit Reg.timeCtrl 1 then (s2.setBit Reg.timeStat 27).calBecomes 3 else s2).elect

def execSet (dt : Nat) (_req : Nat) (v : Word) (s : State) : Host.Outcome State Fault Refusal := done ((s.tick dt).writeSet v)

/-! ### Registers and the backup domain -/

/-- R360: at a whole second the calendar is copied into the backup domain. -/
def State.backupCopy (s : State) : State :=
  if s.bit Reg.timeCtrl 2 && s.now % 1000000000 = 0 then
    { s with tbase := { s.tbase with
      backup := some (s.now, s.rn Reg.timeUtcOfs, s.rn Reg.timeZoneOfs, s.calValid) } }
  else s

def execBackupCopy (dt : Nat) (s : State) : Host.Outcome State Fault Refusal := done (s.tick dt).backupCopy

/-- R359, R362: a write of ZONE_OFS: -900 to +900. -/
def State.writeZone (s : State) (v : Word) : State :=
  let z := signedOf 12 v.toNat
  if z < -900 || 900 < z then s.violate Reg.timeZoneOfs 3
  else (s.setFld Reg.timeZoneOfs 11 0 v.toNat).zoneChanged s

end Sys2Proof.Machine
end

