-- ==== Sys2Proof/Machine/Hasp.lean ====
section
/-! DEFINITION. The Hasp ports (R380-R387): frames received and forwarded, HELLO and the ring's members, the time master's
TIME, votes, wall commits with their verdicts, and links.  Tunnels stand with the register bus. -/
namespace Sys2Proof.Machine

/-- A Hasp frame that a port has accepted: its type, sender, hop count, sequence number and body. -/
structure HFrame where
  type : Nat
  src  : Nat
  hop  : Nat
  seq  : Nat
  body : List Byte
  deriving DecidableEq, Repr

/-- R381: the bytes of a Hasp frame up to its FCS, if it is well formed: at least 64 bytes with a sound FCS. -/
def ethSound (f : List Byte) : Bool :=
  64 ≤ f.length && f.length ≤ 9216 && Decidable.decide (ofLe (f.drop (f.length - 4)) = crc32 (f.take (f.length - 4)))

/-- R381: the fields of a Hasp frame. -/
def haspParse (f : List Byte) : Option HFrame :=
  let b := f.take (f.length - 4)
  if beAt b 0 6 = 0x0350_4C48_0000 && beAt b 12 2 = 0x88B6 && beAt b 14 1 = 1 then
    some ⟨beAt b 15 1, beAt b 16 1, beAt b 17 1, beAt b 18 2, b.drop 20⟩
  else none

/-- R382: a frame goes on out of the other port, HOP incremented and, for TIME, its residence added to CORR. -/
def State.haspForward (s : State) (p : Nat) (f : List Byte) (h : HFrame) (residence : Nat) : State :=
  let q := 1 - p
  if !(s.haspUp.contains q) then s
  else
    let b := f.take (f.length - 4)
    let b1 := b.take 17 ++ beBytes 1 (h.hop + 1) ++ b.drop 18
    let b2 := if h.type = 2 then b1.take 28 ++ beBytes 4 (beAt b 28 4 + residence) ++ b1.drop 32 else b1
    { s with tx := s.tx ++ [.hasp q (b2 ++ leBytes 4 (crc32 b2))] }

/-- R382: the frame repeats one seen within the last 10 ms. -/
def State.haspSeen (s : State) (h : HFrame) : Bool :=
  s.hasp.seen.any fun x => x.1 = h.src && x.2.1 = h.type && x.2.2.1 = h.seq && Decidable.decide (s.now ≤ x.2.2.2 + 10000000)

/-- R382: receive a frame on a port; the frame if it is to be consumed. -/
def State.haspReceive (s : State) (p : Nat) (f : List Byte) (residence : Nat) : State × Option HFrame :=
  if !(s.haspUp.contains p) then (s, none)
  else if !ethSound f then (s.incr (Reg.haspErrCnt p), none)
  else match haspParse f with
    | none => (s, none)
    | some h =>
      if h.src = s.ringPos || s.haspSeen h then (s, none)
      else
        let old := s.hasp.seen.filter fun x => Decidable.decide (s.now ≤ x.2.2.2 + 10000000)
        let s1 := { s with hasp := { s.hasp with seen := (h.src, h.type, h.seq, s.now) :: old } }
        let mine := (h.type = 6 || h.type = 7) && beAt h.body 0 1 = s.ringPos
        (if mine then s1 else s1.haspForward p f h residence, some h)

/-! ### The ring (R383, R387) -/

/-- Set bits of the status register of both pages. -/
def State.haspFlag (s : State) (b : Nat) : State := (s.setBit (Reg.haspStat 0) b).setBit (Reg.haspStat 1) b

/-- R383: RING shows the members, on both pages; `closed`: the ring is whole. -/
def State.showRing (s : State) (closed : Bool) : State :=
  let l := s.haspMembers
  let m := if l.isEmpty then 0 else l.foldl (fun m x => m ||| 2 ^ x.1) (2 ^ s.ringPos)
  let v := s.ringPos + (if closed then 16 else 0) + m % 65536 * 65536
  (s.setRn (Reg.haspRing 0) v).setRn (Reg.haspRing 1) v

/-- R387: the ring is whole. -/
def State.ringClosed (s : State) : Bool := s.bit (Reg.haspRing 0) 4

/-- Both ports hear a neighbour. -/
def State.bothHeard (s : State) : Bool := s.bit (Reg.haspLink 0) 12 && s.bit (Reg.haspLink 1) 12

/-- R383: a HELLO straight from the neighbour gives the link's delay and its neighbour. -/
def State.neighbour (s : State) (p : Nat) (h : HFrame) : State :=
  let tTx := beAt h.body 11 8
  let tPeer := beAt h.body 19 8
  let tRx := beAt h.body 27 8
  let d : Int := (((s.now : Int) - tPeer) - ((tTx : Int) - tRx)) / 2
  let fresh := !s.bit (Reg.haspLink p) 12
  let s1 := { s with hasp := { s.hasp with
    ports := mset s.hasp.ports p {} { (s.haspPort p) with peer := some (tTx, s.now), heard := s.now } } }
  let s2 := (s1.setFld (Reg.haspLink p) 11 8 h.src).setBit (Reg.haspLink p) 12
  let s3 := if tPeer = 0 then s2 else s2.setFld (Reg.haspLink p) 31 16 (min 65535 d.toNat)
  s3.showRing (s3.ringClosed || (fresh && s3.bothHeard))

/-- R380: the HELLO comes from another device of the same position. -/
def State.onClash (s : State) (pos : Nat) : State :=
  let s1 := { s with hasp := { s.hasp with clash := mset s.hasp.clash pos none (some s.now) } }
  if pos = s.ringPos then (s1.haspFlag 3).showRing false else s1.showRing s1.ringClosed

/-- R358, R380, R383: a HELLO arrives. -/
def State.onHello (s : State) (p : Nat) (f : List Byte) : State :=
  match (if s.haspUp.contains p && ethSound f then haspParse f else none) with
  | none => (s.haspReceive p f 0).1
  | some h =>
    if h.type ≠ 1 then (s.haspReceive p f 0).1
    else
      let serial := beAt h.body 0 8
      let own := h.src = s.ringPos
      let s0 := if own && serial ≠ Config.serial.toNat then s.onClash h.src else s
      let s1 := if h.hop = 0 && !own then s0.neighbour p h else s0
      match s1.haspReceive p f 0 with
      | (s2, none) => s2
      | (s2, some _) =>
        let m : Member := ⟨beAt h.body 10 1, s2.now, beAt h.body 8 1, beAt h.body 9 1, serial⟩
        let was := (s2.haspMembers.find? (·.1 = h.src)).map (·.2)
        let s3 := { s2 with hasp := { s2.hasp with members := mset s2.hasp.members h.src none (some m) } }
        if was.any (·.serial ≠ serial) then s3.onClash h.src
        else
          let s4 := s3.showRing (s3.ringClosed || (was.isNone && s3.bothHeard))
          if was.any (fun w => w.cls = m.cls && w.prio = m.prio) then s4 else s4.elect

def execHello (dt : Nat) (port : Fin 2) (frame : List Byte) (s : State) : Host.Outcome State Fault Refusal :=
  done ((s.tick dt).onHello port frame)

/-- R383, R358: HELLO goes out of both ports with the device's rank and what it has heard on that link. -/
def State.helloTimer (s : State) : State :=
  let mask := [0, 1, 2, 3].foldl (fun m n => if s.bit (Reg.cvMode n) 3 then m + 2 ^ n else m) 0
  let seq := mget s.hasp.seqs 1 0
  let body := fun (p : Nat) =>
    let x := (s.haspPort p).peer.getD (0, 0)
    beBytes 8 Config.serial.toNat ++ beBytes 1 s.helloClass ++ beBytes 1 (s.fld Reg.timeSrc 15 8) ++ beBytes 1 mask
      ++ beBytes 8 s.now ++ beBytes 8 x.1 ++ beBytes 8 x.2
  { s with
    hasp := { s.hasp with seqs := mset s.hasp.seqs 1 0 ((seq + 1) % 65536) }
    tx := s.tx ++ s.haspUp.map fun p => .hasp p (haspFrame s.ringPos 1 s.ringPos 0 seq (body p)) }

def execHelloTimer (dt : Nat) (s : State) : Host.Outcome State Fault Refusal := done (s.tick dt).helloTimer

/-- R387: a port hears its neighbour no longer. -/
def State.deafPort (s : State) (p : Nat) : State :=
  if s.now < (s.haspPort p).heard + 3000000 || !s.bit (Reg.haspLink p) 12 then s
  else (s.clrBit (Reg.haspLink p) 12).showRing false

/-- R356, R358, R383, R387: a member has not been heard for 3 ms and drops out of the ring; the election reruns. -/
def State.memberTimeout (s : State) (pos : Nat) : State :=
  let s0 := (s.deafPort 0).deafPort 1
  match mget s0.hasp.members pos none with
  | none => s0
  | some m =>
    if s0.now < m.heard + 3000000 then s0
    else
      let master := s0.bit (Reg.haspMaster 0) 31 && s0.fld (Reg.haspMaster 0) 3 0 = pos
      let s1 := { s0 with hasp := { s0.hasp with members := mset s0.hasp.members pos none none } }
      let s2 := (s1.showRing false).haspFlag 2
      (if master && s.fld Reg.timeSrc 1 0 ≥ 2 then s2.sourceStops else s2).elect

def execMemberTimeout (dt : Nat) (pos : Fin 16) (s : State) : Host.Outcome State Fault Refusal :=
  done ((s.tick dt).memberTimeout pos)

/-- R380, R383: a Hasp link comes up. -/
def State.haspLinkUp (s : State) (p : Nat) : State :=
  let s1 := { s with hasp := { s.hasp with ports := mset s.hasp.ports p {} { up := true } } }
  (s1.setBit (Reg.haspStat p) 0).setBit (Reg.haspLink p) 0

def execHaspLinkUp (dt : Nat) (port : Fin 2) (s : State) : Host.Outcome State Fault Refusal := done ((s.tick dt).haspLinkUp port)

/-- R387: a Hasp link goes down. -/
def State.haspLinkDown (s : State) (p : Nat) : State :=
  let s1 := { s with hasp := { s.hasp with ports := mset s.hasp.ports p {} {} } }
  ((s1.setBit (Reg.haspStat p) 1).setRn (Reg.haspLink p) 0).showRing false

def execHaspLinkDown (dt : Nat) (port : Fin 2) (s : State) : Host.Outcome State Fault Refusal :=
  done ((s.tick dt).haspLinkDown port)

/-! ### Time (R356, R359, R383) -/

/-- R383, R359: TIME of the master arrives; `rx`: its arrival.  The offset is measured against ORIGIN + CORR / 16 + the
delay of the receiving port. -/
def State.onHaspTime (s : State) (p : Nat) (f : List Byte) (rx : Nat) : State :=
  match s.haspReceive p f ((s.now - rx) * 16) with
  | (s1, none) => s1
  | (s1, some h) =>
    if h.type ≠ 2 || !s1.bit (Reg.haspMaster 0) 31 || h.src ≠ s1.fld (Reg.haspMaster 0) 3 0 then s1
    else
      let t := beAt h.body 0 8 + beAt h.body 8 4 / 16 + s1.fld (Reg.haspLink p) 31 16
      let fl := beAt h.body 14 1
      let s2 := { s1 with tbase := { s1.tbase with measured := some ((rx : Int) - t) } }
      if s2.timeMode ≠ 2 then s2
      else
        let s3 := (s2.setUtc (beAt h.body 12 2) (fl.testBit 2) (fl.testBit 3)).setFld Reg.timeStat 27 27 (fl % 2)
        if fl.testBit 1 then s3.calBecomes 2 else s3.calLost 2

def execHaspTime (dt : Nat) (port : Fin 2) (frame : List Byte) (rx : Nat) (s : State) : Host.Outcome State Fault Refusal :=
  done ((s.tick dt).onHaspTime port frame rx)

/-- R383: the time master sends TIME. -/
def State.haspTimeTimer (s : State) : State :=
  if !s.bit Reg.timeStat 30 then s
  else
    let fl := (if s.bit Reg.timeStat 27 then 1 else 0) + (if s.calValid then 2 else 0) + s.fld Reg.timeUtcOfs 17 16 * 4
    s.haspSend 0x02 (beBytes 8 s.now ++ beBytes 4 0 ++ beBytes 2 (s.rn Reg.timeUtcOfs) ++ beBytes 1 fl)

def execHaspTimeTimer (dt : Nat) (s : State) : Host.Outcome State Fault Refusal := done (s.tick dt).haspTimeTimer

/-! ### Votes and wall commits (R384, R385) -/

/-- R72, R384: another device's VOTE arrives. -/
def State.haspVote (s : State) (p : Nat) (f : List Byte) : State :=
  match s.haspReceive p f 0 with
  | (s1, some h) =>
    if h.type ≠ 3 || beAt h.body 0 1 ≥ 4 then s1
    else
      let c := beAt h.body 9 8
      s1.onVote (beAt h.body 0 1) h.src (beAt h.body 1 8) (if c = 2 ^ 64 - 1 then none else some c) (beAt h.body 17 2)
  | (s1, none) => s1

def execVote (dt : Nat) (port : Fin 2) (frame : List Byte) (s : State) : Host.Outcome State Fault Refusal :=
  done ((s.tick dt).haspVote port frame)

/-- The fire instant and origin of a wall commit. -/
def Commit.wallKey (c : Commit) : Nat × Nat :=
  (match c.trig with | .hasp t => t | _ => 0, match c.wall with | some (_, o) => o | none => 0)

/-- A commit put before the first of a list that it precedes. -/
def insCommit (c : Commit) : List Commit → List Commit
  | [] => [c]
  | x :: r => if c.wallKey.1 < x.wallKey.1 || (c.wallKey.1 = x.wallKey.1 && c.wallKey.2 < x.wallKey.2) then c :: x :: r
    else x :: insCommit c r

/-- R385: wall commits that arrive at one instant arm in order of T_FIRE, then of the originating position. -/
def State.orderCommits (s : State) : State :=
  let same := fun (c : Commit) => c.wall.isSome && c.armedAt = s.now
  let head := s.latch.armed.filter fun c => !same c
  let l := s.latch.armed.filter same
  let r := l.foldl (fun (a : List Commit) c => insCommit c a) []
  let l2 := List.zipWith (fun (x y : Commit) => { y with seq := x.seq, begun := x.begun }) l r
  { s with latch := { s.latch with armed := head ++ l2 } }

/-- R53, R385: a COMMIT arrives and arms the same groups here. -/
def State.onCommit (s : State) (p : Nat) (f : List Byte) : State :=
  match s.haspReceive p f 0 with
  | (s1, some h) =>
    if h.type ≠ 4 then s1
    else
      let w := beAt h.body 0 2
      let s2 := { s1 with hasp := { s1.hasp with wseq := w } }.setBit Reg.latchStat 5
      (s2.arm (beAt h.body 2 2) (.hasp (beAt h.body 4 8)) (some (w, h.src)) []).orderCommits
  | (s1, none) => s1

def execCommit (dt : Nat) (port : Fin 2) (frame : List Byte) (s : State) : Host.Outcome State Fault Refusal :=
  done ((s.tick dt).onCommit port frame)

/-- R385: another member's VERDICT arrives. -/
def State.onVerdict (s : State) (p : Nat) (f : List Byte) : State :=
  match s.haspReceive p f 0 with
  | (s1, some h) =>
    if h.type ≠ 5 then s1
    else { s1 with hasp := { s1.hasp with verdicts := s1.hasp.verdicts ++ [(beAt h.body 0 2, h.src, beAt h.body 2 1)] } }
  | (s1, none) => s1

def execVerdict (dt : Nat) (port : Fin 2) (frame : List Byte) (s : State) : Host.Outcome State Fault Refusal :=
  done ((s.tick dt).onVerdict port frame)

/-- R34, R385: the first device that refused wall commit `w`: the first VERDICT with a code, else the lowest member
whose VERDICT is missing. -/
def State.wallRefuser (s : State) (w : Nat) : Option Nat :=
  match s.firstRefuser w with
  | some p => some p
  | none =>
    let l := s.hasp.verdicts.filter (·.1 = w)
    let ms := (s.ringPos :: s.haspMembers.map (·.1)).mergeSort (· ≤ ·)
    ms.find? fun p => !l.any (·.2.1 = p)

/-- R34: a wall commit is refused because of another device, or because the device's own evaluation has not ended in time: code 0
then too (notes/assumptions/122). -/
def State.wallRefuse (s : State) (c : Commit) (peer : Nat) : State :=
  let head := s.latch.evalFrom.isSome && s.latch.armed.head?.any (·.seq = c.seq)
  let s1 := { s with latch := { s.latch with
    armed := s.latch.armed.filter (·.seq ≠ c.seq)
    accepted := s.latch.accepted.filter (·.seq ≠ c.seq)
    evalFrom := if head then none else s.latch.evalFrom } }
  let s2 := match c.wall with
    | some (w, _) => { s1 with hasp := { s1.hasp with verdicts := s1.hasp.verdicts.filter (·.1 ≠ w) } }
    | none => s1
  ((s2.report ⟨0, 0, 0⟩ c.seq 1 (peer % 16)).countRefusal).startEval

/-- R34, R385: 20 µs before T_FIRE every device checks the verdicts of the wall. -/
def State.verdictDeadline (s : State) : State :=
  let due := (s.latch.armed ++ s.latch.accepted).filter fun c => match c.trig with
    | .hasp t => !c.due && Decidable.decide (t ≤ s.now + 20000)
    | _ => false
  due.foldl (fun s c => match c.wall with
    | none => s
    | some (w, _) => match s.wallRefuser w with
      | none => s
      | some peer => s.wallRefuse c peer) s

def execCommitVerdictDeadline (dt : Nat) (s : State) : Host.Outcome State Fault Refusal := done (s.tick dt).verdictDeadline

/-- R53, R385: T_FIRE of wall commits. -/
def State.commitFire (s : State) (begun : List Nat) : State :=
  let s1 := s.verdictDeadline
  let at_ := fun (c : Commit) => match c.trig with | .hasp t => Decidable.decide (t ≤ s1.now) | _ => false
  let ws := (s1.latch.accepted.filter at_).filterMap fun c => c.wall.map (·.1)
  let s2 := { s1 with
    latch := { s1.latch with accepted := s1.latch.accepted.map fun c => if at_ c then { c with due := true } else c }
    hasp := { s1.hasp with verdicts := s1.hasp.verdicts.filter fun v => !ws.contains v.1 } }
  s2.pumpFires begun none

def execCommitFire (dt : Nat) (begun : List Nat) (s : State) : Host.Outcome State Fault Refusal :=
  done ((s.tick dt).commitFire begun)

end Sys2Proof.Machine
end

