-- ==== Sys2Proof/Machine/Lamp.lean ====
section
/-! DEFINITION. The wear sweep, wear gains and checkpoints of the lamp correction engine (R158, R164-R175). -/
namespace Sys2Proof.Machine

/-- A millisecond. -/
def msNs : Nat := 1000000

/-- The status flags of LAMP.PG_STAT. -/
def lampFlag : Nat := pgStat 0x080

/-! ### Passes (R165) -/

/-- R165: the entry that the sweep visits next: tile and index within its region, from a place on. -/
def State.sweepNext (s : State) (tile idx : Nat) : Option (Nat × Nat) :=
  match s.tileList.find? fun x => x.2.given && ((x.1 = tile && idx < x.2.w * x.2.h) || (tile < x.1 && 0 < x.2.w * x.2.h)) with
  | some x => some (x.1, if x.1 = tile then idx else 0)
  | none => none

/-- SWEEP_POS.ENTRY follows the sweep's place. -/
def State.showPos (s : State) : State :=
  match s.sweepNext s.lamp.tile s.lamp.idx with
  | some (t, i) => s.setFld Reg.lampSweepPos 25 0 ((s.tile t).pixBase + i)
  | none => s.setFld Reg.lampSweepPos 25 0 0

/-- R165: a pass starts on a whole millisecond: pass 0 with no credited interval, a later one once due. One that starts late
asks for the highest set point for 60 s (R317). -/
def State.passStart (s : State) : State :=
  let l := s.lamp
  let due := l.start + l.period * msNs
  if !l.on || l.active || s.now % msNs ≠ 0 || (!l.fresh && s.now < due) then s
  else
    let late := !l.fresh && due < s.now
    let l1 := { l with
      fresh := false, active := true, stopping := false, start := s.now, tile := 0, idx := 0, noCredit := []
      delta := if l.fresh then 0 else min 65535 ((s.now - l.start) / msNs)
      base := s.rn64 Reg.lampWearLo % 2 ^ 41, period := s.fld Reg.lampWearPeriod 15 0 }
    let keep := if late then { s.keep with lateUntil := s.now + 60000000000 } else s.keep
    ((({ s with lamp := l1, keep := keep }.setBitIf late lampFlag 8).setBit Reg.lampSweepPos 30).clrBit Reg.lampSweepPos 31).showPos

def execSweepPassStart (dt : Nat) (s : State) : Host.Outcome State Fault Refusal := done (s.tick dt).passStart

/-! ### Visits (R166, R167, R169) -/

/-- R166: whether the sweep can sample a tile's canvas now: it is not live, or in through mode, or between D_N and L_N. -/
def State.canSample (s : State) (t : Tile) : Bool :=
  !t.placed || !s.liveCv t.cv || t.dark || s.bit (Reg.cvMode t.cv) 2 || (s.cv t.cv).deliv.any (·.done.isSome)

/-- R166: the code of a lamp of a tile's pixel, and the output depth. -/
def State.lampCode (s : State) (t : Tile) (idx c : Nat) : Nat × Nat :=
  let di := s.rn (Reg.cvcDither t.cv)
  let d := s.depthOfCv t.cv di
  if !t.placed || !s.liveCv t.cv || t.dark then (0, d)
  else
    let b := s.bank t.cv
    let bk := (s.cv t.cv).deliv.any (·.bank = 1)
    let (dx, dy) := orientXY t.orient t.w t.h (idx % t.w) (idx / t.w)
    let p := ((t.y + dy) * b.w + t.x + dx) * b.bpp
    let by_ := (List.range b.bpp).map fun k => b.addr bk (p + k)
    if by_.any fun a => s.vault.bad.contains (a / 8) then (0, d)
    else
      let x := ofLe (by_.map s.vb)
      if b.bpp = 4 then (bitsOf x (10 * c + 9) (10 * c), d) else (bitsOf x (16 * c + 15) (16 * c) / 2 ^ (16 - d), d)

/-- R167: the threshold of a visit. -/
def wearHash (p c v seed : Nat) : Nat :=
  let m := fun (x : Nat) => x % 2 ^ 32
  let h := m (p * 0x9E3779B1) ^^^ m (v * 0x85EBCA77) ^^^ m (c * 0xC2B2AE3D) ^^^ seed
  let h := m ((h ^^^ (h >>> 16)) * 0x7FEB352D)
  let h := m ((h ^^^ (h >>> 15)) * 0x846CA68B)
  h ^^^ (h >>> 16)

/-- R167: the dithered credit of a visit: code, depth, interval in ms. -/
def wearCredit (q d delta h : Nat) : Nat :=
  let a := q * delta
  let b := (2 ^ d - 1) * 225000
  a / b + if h * b < a % b * 2 ^ 32 then 1 else 0

/-- R164, R167: a wear entry after a visit; `q` gives the codes. -/
def wearEntry (e : Nat) (fault credit : Bool) (q : Nat → Nat × Nat) (p delta v seed : Nat) : Nat :=
  let e1 := if fault then e ||| 2 ^ 61 else e
  if e1.testBit 62 || !credit then e1
  else (List.range 3).foldl (fun e c =>
    let w := bitsOf e (20 * c + 19) (20 * c)
    let x := q c
    let n := min (w + wearCredit x.1 x.2 delta (wearHash p c v seed)) 0xFFFFF
    let e2 := putBits e (20 * c + 19) (20 * c) n
    if n = 0xFFFFF then e2 ||| 2 ^ 60 else e2) e1

/-- R169: the good bytes of a wear burst from a checkpoint chunk that was read, if its CRC matches. -/
def State.chunkBytes (s : State) (slot off : Nat) (chunk : Option (List Byte)) : Option (List Byte) :=
  match chunk, mget s.lamp.copies slot none with
  | some l, some crcs =>
    if crcs[off / 1048576]? = some (crc32c l) then some (sliceB l (off % 1048576) 64) else none
  | _, _ => none

/-- R169: a poisoned wear burst is written back from a checkpoint copy, or with no credit and FREEZE. -/
def State.repairWear (s : State) (a : Nat) (newest other : Option (List Byte)) : State :=
  let off := a - s.lamp.base
  let nw := s.fld Reg.lampCkptStat 30 30
  let frozen := (List.range 8).flatMap fun _ => leBytes 8 (2 ^ 62)
  let l := if s.bit Reg.lampCkptStat 31 then
      ((s.chunkBytes nw off newest) <|> (s.chunkBytes (1 - nw) off other)).getD frozen
    else frozen
  let s1 := (s.wrBytes a l).setBit lampFlag 13
  { s1 with lamp := { s1.lamp with noCredit := s1.lamp.noCredit ++ [a] } }

/-- R165: the sweep moves on by one entry, and stops at a burst boundary where SWEEP_EN has applied as 0. -/
def State.sweepStep (s : State) (tile idx : Nat) : State :=
  let s1 := { s with lamp := { s.lamp with tile := tile, idx := idx + 1 } }.showPos
  let burst := fun (t i : Nat) => (s1.lamp.base + 8 * ((s1.tile t).pixBase + i)) / 64
  let leaves := match s1.sweepNext tile (idx + 1) with
    | some (t, i) => burst t i ≠ burst tile idx
    | none => true
  if s1.lamp.stopping && leaves then
    { (s1.clrBit Reg.lampSweepPos 30).setBit Reg.lampSweepPos 31 with lamp := { s1.lamp with on := false, active := false, stopping := false } }
  else s1

/-- R162, R164, R166, R167, R169: the sweep visits the next entry, and reads a wear and a calibration burst with the first
entry of a region in it; `newest` and `other` are what the chunks of the two
checkpoint copies read where the burst is poisoned. -/
def State.wearVisit (s : State) (newest other : Option (List Byte)) : State :=
  let l := s.lamp
  if !l.active || s.bgHeld 1 || s.memStill then s
  else match s.sweepNext l.tile l.idx with
    | none => s
    | some (n, i) =>
      let t := s.tile n
      if !s.canSample t then s
      else
        let p := t.pixBase + i
        let a := l.base + 8 * p
        let ca := s.rn64 Reg.lampCalLo % 2 ^ 41
        let first := fun (x : Nat) => i = 0 || x % 64 = 0
        let s0 := if first a then s.reportRead a 8 else s
        let s0 := if first (ca + 8 * p) then s0.reportRead (ca + 8 * p) 8 else s0
        let s1 := if s.burstPoisoned a then s0.repairWear (a / 64 * 64) newest other else s0
        let cal := s1.calEntry ca p
        let e := ofLe (s1.rdBytes a 8)
        let credit := !s1.lamp.noCredit.contains (a / 64 * 64)
        let e2 := wearEntry e (cal.testBit 63) credit (s1.lampCode t i) p l.delta (l.passes % 2 ^ 32) (Config.serial.toNat % 2 ^ 32)
        let s2 := (if e2 = e then s1 else s1.wrBytes a (leBytes 8 e2)).setBitIf (e2.testBit 60 && !e.testBit 60) lampFlag 11
        s2.sweepStep n i

def execWearVisit (dt : Nat) (newest other : Option (List Byte)) (s : State) : Host.Outcome State Fault Refusal :=
  done ((s.tick dt).wearVisit newest other)

/-! ### Wear gains (R170, R171) -/

/-- R170: the efficiency of a lamp with credit `w`, in 1/16,384 of a code; `pt` gives the curve's points. -/
def efficiency (pt : Nat → Nat) (w : Nat) : Nat :=
  let j := w / 16384
  if j = 63 then pt 63 * 16384 else ((pt j * 16384 : Int) + (w % 16384 : Nat) * ((pt (j + 1) : Int) - pt j)).toNat

/-- R170: point `j` of a curve for a colour. -/
def State.curvePoint (s : State) (curve c j : Nat) : Nat := mget s.curves ((curve * 3 + c) * 64 + j) 65535

/-- R171: S and n of a tile for a colour. -/
def State.wearSum (s : State) (t : Tile) (c : Nat) : Nat × Nat :=
  (List.range (t.w * t.h)).foldl (fun r i =>
    let e := ofLe (s.rdBytes (s.lamp.base + 8 * (t.pixBase + i)) 8)
    if e.testBit 61 || e.testBit 62 then r
    else (r.1 + efficiency (s.curvePoint t.curve c) (bitsOf e (20 * c + 19) (20 * c)), r.2 + 1)) (0, 0)

/-- The smaller of two fractions. -/
def minFrac (a b : Nat × Nat) : Nat × Nat := if a.1 * b.2 ≤ b.1 * a.2 then a else b

/-- R171: a tile's ρ for a colour as a fraction. -/
def State.rho (s : State) (t : Tile) (c : Nat) : Nat × Nat :=
  let (sum, n) := s.wearSum t c
  (sum, 16384 * n * s.curvePoint t.curve c 0)

/-- R171: G from target `tgt` (T_c, or 1), ρ and cap, in 2^-14 with ties upward, and whether the cap limits it; none: the
rule gives no value, as ρ is 0 / 0 or the target over ρ is 0 / 0. -/
def gainOf (tgt rho : Nat × Nat) (head : Nat) : Option (Nat × Bool) :=
  let cap := 256 * (64 + head)
  let num := tgt.1 * rho.2
  let den := tgt.2 * rho.1
  if rho.2 = 0 || (num = 0 && den = 0) then none
  else if (64 + head) * den < 64 * num then some (cap, true)
  else some ((2 * 16384 * num + den) / (2 * den), false)

/-- R171: the wear gains of a live canvas are computed and staged. -/
def State.wearGains (s : State) (cv : Nat) : State :=
  let ts := (s.placedOn cv).filter (·.2.given)
  let head := s.fld Reg.lampCtrl (6 * cv + 5) (6 * cv)
  let target := fun (c : Nat) =>
    if !s.bit Reg.lampCtrl 26 then (1, 1)
    else (ts.filter fun x => (s.wearSum x.2 c).2 ≠ 0).foldl (fun m x =>
      let r := s.rho x.2 c
      minFrac m (minFrac (1, 1) (r.1 * (64 + head), r.2 * 64))) (1, 1)
  let s1 := ts.foldl (fun s (n, t) =>
    let g := fun (c : Nat) =>
      if (s.wearSum t c).2 = 0 then (16384, false)
      else (gainOf (target c) (s.rho t c) head).getD (Config.freeValue (2 ^ 72 + 2 ^ 20 * s.free + 4 * n + c) % 65536, false)
    let capped := (g 0).2 || (g 1).2 || (g 2).2
    (s.setTile n { (s.tile n) with capped := capped, gNext := some ((g 0).1, (g 1).1, (g 2).1) }).setBitIf capped lampFlag 10) s
  if ts.isEmpty then s1 else s1.setBitIf ((s1.cv cv).comp.any (·.start = s1.now)) lampFlag 9

/-- R165, R171: a pass ends. -/
def State.passEnd (s : State) : State :=
  let l := s.lamp
  if !l.active || (s.sweepNext l.tile l.idx).isSome then s
  else
    let s1 := { (s.clrBit Reg.lampSweepPos 30) with
      lamp := { l with active := false, passes := (l.passes + 1) % 2 ^ 64, on := l.on && !l.stopping, stopping := false }
      gainAt := some s.now }
    let s2 := if l.on && !l.stopping then s1 else s1.setBit Reg.lampSweepPos 31
    (s2.each ([0, 1, 2, 3].filter s2.liveCv) fun cv s => s.wearGains cv).drawn

def execSweepPassEnd (dt : Nat) (s : State) : Host.Outcome State Fault Refusal := done (s.tick dt).passEnd

/-! ### Checkpoints (R172, R173) -/

/-- R173: the first byte of a slot. -/
def State.slotBase (s : State) (slot : Nat) : Nat :=
  (64 * s.fld Reg.lampCkptCtrl 31 22 + slot * 16 * s.fld Reg.lampCkptCtrl 21 12) * s.nandBlock

/-- R173: the blocks of a slot that are not known as bad, in order. -/
def State.goodBlocks (s : State) (slot : Nat) : List Nat :=
  let n := 16 * s.fld Reg.lampCkptCtrl 21 12
  ((List.range n).map fun i => 64 * s.fld Reg.lampCkptCtrl 31 22 + slot * n + i).filter fun b => !s.lamp.badBlocks.contains b

/-- R173: the good blocks after the record block hold the body. -/
def State.bodyFits (s : State) (good entries : Nat) : Bool := cdiv (8 * entries) s.nandBlock + 1 ≤ good

/-- The checkpoint under way ends without a valid copy. -/
def State.ckptFail (s : State) (noSpace : Bool) : State :=
  let s1 := ((s.setBit Reg.lampCkptStat 1).setBitIf noSpace Reg.lampCkptStat 2).clrBit Reg.lampCkptStat 29
  { s1 with lamp := { s1.lamp with ckpt := 0 } }

/-- R172, R173: a checkpoint starts: the slot that does not hold the newest valid copy is erased. -/
def State.ckptStart (s : State) : State :=
  let slot := if s.bit Reg.lampCkptStat 31 then 1 - s.fld Reg.lampCkptStat 30 30 else 0
  let n := s.nTab
  let s1 := { s.setBit Reg.lampCkptStat 29 with
    lamp := { s.lamp with ckpt := 1, slot := slot, entries := n, waits := false, copies := mset s.lamp.copies slot none none } }
  let good := s1.goodBlocks slot
  if s1.bodyFits good.length n then { s1 with tx := s1.tx ++ good.map fun b => .flash 1 2 (b * s.nandBlock) [] }
  else s1.ckptFail true

/-- R172, R341: a checkpoint is due; one that falls due while another or a lifetime write runs waits. -/
def State.ckptDue (s : State) : State :=
  if s.lamp.ckpt ≠ 0 || s.lamp.restoring then { s.setBit Reg.lampCkptStat 10 with lamp := { s.lamp with waits := true } }
  else if s.faults.ltSlot.isSome then { s with lamp := { s.lamp with waits := true } }
  else s.ckptStart

/-- R172, R341: what waits for the checkpoint flash starts once it is free: the lifetime record, then a checkpoint. -/
def State.ckptNext (s : State) : State :=
  let t := s.ltNext
  if t.lamp.waits && t.lamp.ckpt = 0 && !t.lamp.restoring && t.faults.ltSlot.isNone then t.ckptStart else t

def execLifetimeWriteDone (dt : Nat) (ok : Bool) (s : State) : Host.Outcome State Fault Refusal :=
  done ((s.tick dt).ltEnd ok).ckptNext

/-- R172: wall time reaches a multiple of the interval. -/
def State.ckptTimer (s : State) : State :=
  if s.bit Reg.lampCkptCtrl 0 && s.now % (s.fld Reg.lampCkptCtrl 11 4 * 60000000000) = 0 then s.ckptDue else s

def execCheckpointDue (dt : Nat) (s : State) : Host.Outcome State Fault Refusal := done (s.tick dt).ckptTimer

/-- R172: CKPT_CTRL.NOW is written as 1. -/
def State.ckptNow (s : State) : State := (s.setBit Reg.lampCkptCtrl 1).ckptDue

def execCkptNow (dt : Nat) (_req : Nat) (s : State) : Host.Outcome State Fault Refusal := done (s.tick dt).ckptNow

/-- R173: every block of the slot is erased; the body copy begins. -/
def State.ckptErased (s : State) : State :=
  if s.lamp.ckpt ≠ 1 then s
  else { s with lamp := { s.lamp with
    ckpt := 2, tStart := s.now, cPasses := s.lamp.passes, cPeriod := s.fld Reg.lampWearPeriod 15 0, entries := s.nTab } }

def execCkptEraseDone (dt : Nat) (s : State) : Host.Outcome State Fault Refusal := done (s.tick dt).ckptErased

/-- R173: an erase or program of the slot's block `i` fails: its bad-block marker is programmed (notes/assumptions/130), and the
slot goes on with the next good block, if enough are left. -/
def State.ckptBlockFail (s : State) (i : Nat) : State :=
  let n := 16 * s.fld Reg.lampCkptCtrl 21 12
  if (s.lamp.ckpt ≠ 1 && s.lamp.ckpt ≠ 2) || n ≤ i then s
  else
    let b := 64 * s.fld Reg.lampCkptCtrl 31 22 + s.lamp.slot * n + i
    let s1 := { s.setBit Reg.lampCkptStat 3 with
      tx := s.tx ++ [.flash 1 1 (b * s.nandBlock) [0]]
      lamp := { s.lamp with badBlocks := if s.lamp.badBlocks.contains b then s.lamp.badBlocks else s.lamp.badBlocks ++ [b] } }
    if s1.bodyFits (s1.goodBlocks s1.lamp.slot).length s1.lamp.entries then s1 else (s1.ckptFail true).ckptNext

def execCkptBlockFail (dt : Nat) (block : Nat) (s : State) : Host.Outcome State Fault Refusal := done ((s.tick dt).ckptBlockFail block)

/-- A list cut into runs of a length. -/
def chunksOf (n : Nat) : Nat → List Byte → List (List Byte)
  | 0, _ => []
  | f + 1, l => if l.isEmpty then [] else l.take n :: chunksOf n f (l.drop n)

/-- R173: the CRCs of a body's chunks. -/
def chunkCrcs (body : List Byte) : List Nat := (chunksOf 1048576 (body.length / 1048576 + 1) body).map crc32c

/-- R173: the checkpoint record. -/
def State.ckptRecord (s : State) (crcs : List Nat) : List Byte :=
  let l := s.lamp
  let r := ([0x45, 0x4C, 0x52, 0x57] : List Byte) ++ leBytes 2 1 ++ leBytes 2 0 ++ leBytes 4 (l.seq + 1) ++ leBytes 4 l.entries
    ++ leBytes 8 l.tStart ++ leBytes 8 s.now ++ leBytes 8 l.cPasses ++ leBytes 8 Config.serial.toNat ++ leBytes 4 l.cPeriod
    ++ leBytes 4 crcs.length ++ leBytes 8 0 ++ crcs.flatMap (leBytes 4)
  let r := r ++ List.replicate (4092 - r.length) 0
  r ++ leBytes 4 (crc32c r)

/-- R173: all N_tab entries are programmed; the record follows, to be read back. -/
def State.ckptBody (s : State) : State :=
  if s.lamp.ckpt ≠ 2 then s
  else
    let body := s.rdBytes (s.rn64 Reg.lampWearLo % 2 ^ 41) (8 * s.lamp.entries)
    let crcs := chunkCrcs body
    let rec_ := s.ckptRecord crcs
    let good := s.goodBlocks s.lamp.slot
    let parts := (good.drop 1).zip (chunksOf s.nandBlock (body.length / s.nandBlock + 1) body)
    { s.reportRead (s.rn64 Reg.lampWearLo % 2 ^ 41) (8 * s.lamp.entries) with
      tx := s.tx ++ parts.map (fun x => Sent.flash 1 1 (x.1 * s.nandBlock) x.2) ++ [.flash 1 1 (good.headD 0 * s.nandBlock) rec_]
      lamp := { s.lamp with ckpt := 3, copies := mset s.lamp.copies s.lamp.slot none (some crcs) } }

def execCkptBodyDone (dt : Nat) (s : State) : Host.Outcome State Fault Refusal := done (s.tick dt).ckptBody

/-- R172, R173: the record is read back. -/
def State.ckptReadback (s : State) (valid : Bool) : State :=
  let l := s.lamp
  if l.ckpt ≠ 3 then s
  else if valid then
    let s1 := ((s.setRn64 Reg.lampCkptLastLo l.tStart).setBit Reg.lampCkptStat 0).clrBit Reg.lampCkptStat 29
    let s2 := ((s1.setFld Reg.lampCkptStat 30 30 l.slot).setBit Reg.lampCkptStat 31).clrBit Reg.lampCkptCtrl 1
    { s2 with lamp := { l with ckpt := 0, seq := (l.seq + 1) % 2 ^ 32 } }.ckptNext
  else ({ s with lamp := { l with copies := mset l.copies l.slot none none } }.ckptFail false).ckptNext

def execCkptRecordReadback (dt : Nat) (valid : Bool) (s : State) : Host.Outcome State Fault Refusal :=
  done ((s.tick dt).ckptReadback valid)

/-- R173: CKPT_CTRL.EN applies as 0: the checkpoint under way is abandoned, and its slot holds no valid copy. -/
def State.ckptAbandon (s : State) : State :=
  if s.lamp.ckpt = 0 then { s with lamp := { s.lamp with waits := false } }
  else { s.clrBit Reg.lampCkptStat 29 with
    lamp := { s.lamp with ckpt := 0, waits := false, copies := mset s.lamp.copies s.lamp.slot none none } }.ltNext

/-! ### Restore (R174) -/

/-- R174: a restore is carried out only while the sweep is idle and no checkpoint or restore runs. -/
def State.restoreBlocked (s : State) : Bool := !s.bit Reg.lampSweepPos 31 || s.lamp.ckpt ≠ 0 || s.lamp.restoring

/-- R174: CKPT_CTRL.RESTORE is written as 1. -/
def State.ckptRestore (s : State) : State :=
  if s.restoreBlocked then s.violate Reg.lampCkptCtrl 3
  else { (s.setBit Reg.lampCkptCtrl 2).setBit Reg.lampCkptStat 29 with lamp := { s.lamp with restoring := true } }

def execCkptRestore (dt : Nat) (_req : Nat) (s : State) : Host.Outcome State Fault Refusal := done (s.tick dt).ckptRestore

/-- R173: a slot's record is valid. -/
def recordValid (slot : List Byte) : Bool :=
  4096 ≤ slot.length && slot.take 4 = [0x45, 0x4C, 0x52, 0x57] && ofLe (sliceB slot 4 2) = 1 &&
    ofLe (sliceB slot 4092 4) = crc32c (slot.take 4092)

/-- R173: a little-endian field of a record. -/
def recAt (slot : List Byte) (o n : Nat) : Nat := ofLe (sliceB slot o n)

/-- R173: chunk `i` of a slot's body, where its CRC matches. -/
def goodChunk (slot : List Byte) (i : Nat) : Option (List Byte) :=
  let n := 8 * recAt slot 12 4
  let c := ((slot.drop 4096).drop (1048576 * i)).take (min 1048576 (n - 1048576 * i))
  if i < recAt slot 52 4 && crc32c c = recAt slot (64 + 4 * i) 4 then some c else none

/-- R174: the restored bytes of one chunk, whether it came from the other copy, and whether it was lost. -/
def restoreChunk (a : List Byte) (b : Option (List Byte)) (i n : Nat) : List Byte × Bool × Bool :=
  match goodChunk a i with
  | some c => (c.take n, false, false)
  | none => match b.bind fun x => goodChunk x i with
    | some c => if n ≤ c.length then (c.take n, true, false) else ((List.range (n / 8)).flatMap fun _ => leBytes 8 (2 ^ 62), false, true)
    | none => ((List.range (n / 8)).flatMap fun _ => leBytes 8 (2 ^ 62), false, true)

/-- R174: what the two slots hold has been read: 4,096 bytes of record page each, and the body after it. -/
def State.restoreDone (s : State) (slotA slotB : List Byte) : State :=
  if !s.lamp.restoring then s
  else
    let n := s.nTab
    let base := s.rn64 Reg.lampWearLo % 2 ^ 41
    let end_ := fun (s : State) =>
      { (s.clrBit Reg.lampCkptCtrl 2).clrBit Reg.lampCkptStat 29 with lamp := { s.lamp with restoring := false } }.ckptNext
    let va := recordValid slotA
    let vb := recordValid slotB
    if !va && !vb then
      end_ ((({ s with lamp := { s.lamp with copies := [] } }.wrBytes base (List.replicate (8 * n) 0)).setBit Reg.lampCkptStat 5).clrBit Reg.lampCkptStat 31)
    else
      let d := (recAt slotA 8 4 + 2 ^ 32 - recAt slotB 8 4) % 2 ^ 32
      let useA := va && (!vb || (1 ≤ d && d < 2 ^ 31))
      let x := if useA then slotA else slotB
      let other := if va && vb then some (if useA then slotB else slotA) else none
      let m := min (recAt x 12 4) n
      let parts := (List.range (cdiv (8 * m) 1048576)).map fun i => restoreChunk x other i (min 1048576 (8 * m - 1048576 * i))
      let bytes := parts.flatMap (·.1) ++ List.replicate (8 * (n - m)) 0
      let crcs := fun (l : List Byte) => some ((List.range (recAt l 52 4)).map fun i => recAt l (64 + 4 * i) 4)
      let s1 := (s.wrBytes base bytes).setBitIf (parts.any (·.2.1)) Reg.lampCkptStat 6
      let s2 := ((s1.setBitIf (parts.any (·.2.2)) Reg.lampCkptStat 7).setBitIf (recAt x 12 4 ≠ n) Reg.lampCkptStat 8).setBitIf
        (recAt x 40 8 ≠ Config.serial.toNat) Reg.lampCkptStat 9
      let s3 := ((s2.setBit Reg.lampCkptStat 4).setRn64 Reg.lampCkptLastLo (recAt x 16 8)).setBit Reg.lampCkptStat 31
      let c1 := mset [] 0 none (if va then crcs slotA else none)
      let s4 := { s3.setFld Reg.lampCkptStat 30 30 (if useA then 0 else 1) with
        lamp := { s3.lamp with passes := recAt x 32 8, seq := recAt x 8 4, copies := mset c1 1 none (if vb then crcs slotB else none) } }
      end_ s4

/-- R46, R172-R174: a write to CKPT_CTRL: NOW and RESTORE act on a 1, EN on a fall to 0, and the other fields land.  `v` is
the value whose discarded fields have been put back. -/
def State.writeCkptCtrl (s : State) (v : Word) : State :=
  let o := Reg.lampCkptCtrl
  let was := s.bit o 0
  let s1 := s.setReg o (wput (wput v 1 1 (s.fld o 1 1)) 2 2 (s.fld o 2 2))
  let s2 := if was && !v.getLsbD 0 then s1.ckptAbandon else s1
  let s3 := if v.getLsbD 1 then s2.ckptNow else s2
  if v.getLsbD 2 then s3.ckptRestore else s3

end Sys2Proof.Machine
end

