-- ==== Sys2Proof/Machine/Ptp.lean ====
section
/-! DEFINITION. Frames at the media ports and the PTP client (R367, R368, R374, R375): the check of a received frame, UDP
over IPv4, the ports' own addresses, ARP, the best master, offsets and path delay. -/
namespace Sys2Proof.Machine

/-! ### Frames (R367, R368) -/

/-- R367: a media port receives a frame; its bytes up to the FCS if it is sound. -/
def State.mediaIn (s : State) (p : Nat) (f : List Byte) : State × Option (List Byte) :=
  if !s.bit (Reg.medCtrl p) 0 then (s, none)
  else
    let s1 := s.incr (Reg.medRxFrames p)
    if ethSound f then (s1, some (f.take (f.length - 4))) else (s1.incr (Reg.medDropCnt p), none)

/-- R367: a frame that matches nothing is dropped and counted. -/
def State.mediaDrop (s : State) (p : Nat) : State := s.incr (Reg.medDropCnt p)

/-- A received UDP datagram: its VLAN, addresses, destination port and data. -/
structure Udp where
  vlan : Option Nat
  src  : Nat
  dst  : Nat
  port : Nat
  data : List Byte
  deriving DecidableEq, Repr

/-- EtherType, VLAN and the offset of the data of a frame. -/
def etherType (b : List Byte) : Nat × Option Nat × Nat :=
  if beAt b 12 2 = 0x8100 then (beAt b 16 2, some (beAt b 14 2 % 4096), 18) else (beAt b 12 2, none, 14)

/-- A frame as an unfragmented UDP datagram over IPv4. -/
def udpParse (b : List Byte) : Option Udp :=
  let (et, vlan, o) := etherType b
  let u := o + beAt b o 1 % 16 * 4
  if et = 0x0800 && beAt b o 1 / 16 = 4 && beAt b (o + 9) 1 = 17 && beAt b (o + 6) 2 % 2 ^ 14 = 0 then
    some ⟨vlan, beAt b (o + 12) 4, beAt b (o + 16) 4, beAt b (u + 2) 2, (b.drop (u + 8)).take (beAt b (u + 4) 2 - 8)⟩
  else none

/-- The Internet checksum. -/
def inetSum (l : List Byte) : Nat :=
  let s := (List.range ((l.length + 1) / 2)).foldl (fun n i => n + beAt l (2 * i) 2) 0
  let f := fun x => x % 65536 + x / 65536
  65535 - f (f s)

/-- R373: the words of a port's own object. -/
def State.ownWord (s : State) (p k : Nat) : Nat := (mget (s.flw (16 + p)).w k 0).toNat

/-- R368, R373: a port's MAC and IPv4 addresses. -/
def State.ownMac (s : State) (p : Nat) : Nat := s.ownWord p 1 % 65536 * 2 ^ 32 + s.ownWord p 0
def State.ownIp (s : State) (p : Nat) : Nat := s.ownWord p 2

/-- A frame that a media port sends, tagged with the port's VLAN where that is enabled. -/
def State.mediaSend (s : State) (p dst et : Nat) (data : List Byte) : State :=
  let w := s.ownWord p 3
  let tag := if w % 2 = 1 then beBytes 2 0x8100 ++ beBytes 2 (bitsOf w 27 16) else []
  { s with tx := s.tx ++ [.media p (ethFrame (beBytes 6 dst ++ beBytes 6 (s.ownMac p) ++ tag ++ beBytes 2 et ++ data))] }

/-- An IPv4 packet from the port's own address to a multicast group. -/
def State.ipSend (s : State) (p dst proto ttl : Nat) (opts data : List Byte) : State :=
  let n := 20 + opts.length
  let h := fun (c : Nat) => beBytes 1 (0x40 + n / 4) ++ beBytes 1 (if opts.isEmpty then 0 else 0xC0) ++ beBytes 2 (n + data.length)
    ++ beBytes 4 0 ++ beBytes 1 ttl ++ beBytes 1 proto ++ beBytes 2 c ++ beBytes 4 (s.ownIp p) ++ beBytes 4 dst ++ opts
  s.mediaSend p (0x01005E000000 + dst % 2 ^ 23) 0x0800 (h (inetSum (h 0)) ++ data)

/-- R368: an ARP request for the port's own address is answered. -/
def State.onArp (s : State) (p : Nat) (f : List Byte) : State :=
  match s.mediaIn p f with
  | (s1, none) => s1
  | (s1, some b) =>
    let (et, _, o) := etherType b
    if et = 0x0806 && beAt b o 4 = 0x00010800 && beAt b (o + 6) 2 = 1 && s1.ownIp p ≠ 0 && beAt b (o + 24) 4 = s1.ownIp p then
      s1.mediaSend p (beAt b (o + 8) 6) 0x0806 (beBytes 4 0x00010800 ++ beBytes 4 0x06040002 ++ beBytes 6 (s1.ownMac p)
        ++ beBytes 4 (s1.ownIp p) ++ sliceB b (o + 8) 10)
    else s1.mediaDrop p

def execArpRequest (dt : Nat) (port : Fin 2) (frame : List Byte) (s : State) : Host.Outcome State Fault Refusal :=
  done ((s.tick dt).onArp port frame)

/-! ### PTP messages (R374) -/

/-- A PTP message on the client's domain, from an enabled client's port: its bytes. -/
def State.ptpMessage (s : State) (p : Nat) (b : List Byte) : Option (List Byte) :=
  match udpParse b with
  | none => none
  | some u =>
    let sel := s.fld Reg.ptpCtrl 2 1
    let m := u.data
    if s.bit Reg.ptpCtrl 0 && (sel = 0 || sel = p + 1) && (u.port = 319 || u.port = 320) && u.dst = 0xE0000181 &&
        34 ≤ m.length && beAt m 1 1 % 16 = 2 && beAt m 4 1 = s.fld Reg.ptpDomain 7 0 then some m else none

/-- The fields of a PTP message: type, flags, correction in 2^-16 ns, source port identity, sequence number. -/
def ptpType (m : List Byte) : Nat := beAt m 0 1 % 16
def ptpFlags (m : List Byte) : Nat := beAt m 6 2
def ptpCorr (m : List Byte) : Int := signedOf 64 (beAt m 8 8)
def ptpIdent (m : List Byte) : Nat := beAt m 20 10
def ptpSeq (m : List Byte) : Nat := beAt m 30 2
/-- A timestamp of a message in ns. -/
def ptpStamp (m : List Byte) : Nat := beAt m 34 6 * 1000000000 + beAt m 40 4

/-- Two to a signed power, in seconds, as ns. -/
def pow2s (k : Int) : Nat := if 0 ≤ k then 1000000000 * 2 ^ k.toNat else 1000000000 / 2 ^ (-k).toNat

/-! ### The best master (R375) -/

/-- Lexicographic order of ranks. -/
def listBelow : List Nat → List Nat → Bool
  | a :: r, b :: t => a < b || (a = b && listBelow r t)
  | _, _ => false

/-- R375: a master qualifies once two of its Announce messages have come within four intervals. -/
def PtpMaster.qualified (m : PtpMaster) : Bool := m.before.any fun t => Decidable.decide (m.heard ≤ t + 4 * m.every)

/-- R375: what a change of the master followed sets. -/
def State.ptpFollow (s : State) (m : PtpMaster) : State :=
  let old := s.ptp.best
  let gm := s.rn64 Reg.ptpGmLo
  let s1 := s.setBitIf (s.bit Reg.ptpStat 31 && gm ≠ m.gm) Reg.ptpStat 0
  let s2 := s1.setBitIf (old.any (·.1 ≠ m.port)) Reg.ptpStat 2
  let s3 := (s2.setRn64 Reg.ptpGmLo m.gm).setBit Reg.ptpStat 31
  if old = some (m.port, m.ident) then s3
  else { s3 with ptp := { s3.ptp with best := some (m.port, m.ident), sync := none, diff := none, path := 0, req := none } }

/-- R375: the best master clock algorithm. -/
def State.bmca (s : State) : State :=
  let l := s.ptp.masters.filter (·.qualified)
  let best := l.foldl (fun (b : Option PtpMaster) m => match b with
    | none => some m
    | some x => if listBelow m.rank x.rank then some m else b) none
  match best with
  | none => s
  | some m =>
    let s1 := s.ptpFollow m
    let s2 := { s1 with tbase := { s1.tbase with traceable := m.flags.testBit 4 } }
    if s2.timeMode ≠ 1 then s2
    else
      let s3 := if m.flags.testBit 2 then s2.setUtc m.utc (m.flags.testBit 0) (m.flags.testBit 1) else s2
      if m.flags.testBit 4 then s3 else s3.calLost 1

/-- R375: an Announce message of a master. -/
def State.announceMsg (s : State) (p : Nat) (m : List Byte) : State :=
  let old := s.ptp.masters.find? fun x => x.port = p && x.ident = ptpIdent m
  let r : PtpMaster := {
    port := p
    ident := ptpIdent m
    rank := [beAt m 47 1, beAt m 48 1, beAt m 49 1, beAt m 50 2, beAt m 52 1, beAt m 53 8, beAt m 61 2, ptpIdent m, p]
    gm := beAt m 53 8
    every := pow2s (signedOf 8 (beAt m 33 1))
    heard := s.now
    before := old.map (·.heard)
    utc := beAt m 44 2
    flags := beAt m 7 1 }
  if beAt m 61 2 ≥ 255 then s
  else { s with ptp := { s.ptp with masters := s.ptp.masters.filter (fun (x : PtpMaster) => x.port ≠ p || x.ident ≠ ptpIdent m) ++ [r] } }.bmca

/-- R375: an Announce arrives. -/
def State.onPtpAnnounce (s : State) (p : Nat) (f : List Byte) : State :=
  match s.mediaIn p f with
  | (s1, none) => s1
  | (s1, some b) => match s1.ptpMessage p b with
    | some m => if ptpType m = 11 then (s1.announceMsg p m).elect else s1
    | none => s1.mediaDrop p

def execPtpAnnounce (dt : Nat) (port : Fin 2) (frame : List Byte) (s : State) : Host.Outcome State Fault Refusal :=
  done ((s.tick dt).onPtpAnnounce port frame)

/-- R375: the master followed has announced nothing for three intervals: another takes over, or the client has lost its
time. -/
def State.announceTimeout (s : State) : State :=
  match s.ptp.masters.find? fun x => s.ptp.best = some (x.port, x.ident) with
  | none => s
  | some m =>
    if s.now < m.heard + 3 * m.every then s
    else
      let l := s.ptp.masters.filter fun x => Decidable.decide (s.now < x.heard + 3 * x.every)
      let s1 := { s with ptp := { s.ptp with masters := l } }
      if l.any (·.qualified) then s1.bmca
      else
        let follows := s.timeMode = 1
        let s2 := ({ s1 with ptp := { s1.ptp with best := none, sync := none, diff := none, req := none } }.clrBit Reg.ptpStat 31).setBit Reg.ptpStat 1
        (if follows then s2.sourceStops else s2).elect

def execAnnounceTimeout (dt : Nat) (s : State) : Host.Outcome State Fault Refusal := done (s.tick dt).announceTimeout

/-! ### Offset and path delay (R374) -/

/-- R375: OFFSET, signed and saturating. -/
def State.setOffset (s : State) (x : Int) : State :=
  s.setRn Reg.ptpOffset (toCode 32 (max (-(2 ^ 31 : Int)) (min (2 ^ 31 - 1) x)))

/-- R374: the origin time of a Sync is known: the difference and the offset follow. -/
def State.synced (s : State) (t2 : Nat) (origin : Nat) (corr : Int) : State :=
  let d : Int := ((t2 : Int) - origin) * 65536 - corr
  ({ s with ptp := { s.ptp with diff := some d, sync := none } }).setOffset ((d - s.ptp.path) / 65536)

/-- R374: a Sync or Follow_Up arrives; `rx`: the timestamp of its arrival. -/
def State.onPtpSync (s : State) (p : Nat) (f : List Byte) (rx : Nat) : State :=
  match s.mediaIn p f with
  | (s1, none) => s1
  | (s1, some b) => match s1.ptpMessage p b with
    | none => s1.mediaDrop p
    | some m =>
      if s1.ptp.best ≠ some (p, ptpIdent m) then s1
      else if ptpType m = 0 then
        if (ptpFlags m).testBit 9 then { s1 with ptp := { s1.ptp with sync := some (ptpSeq m, rx, ptpCorr m) } }
        else s1.synced rx (ptpStamp m) (ptpCorr m)
      else if ptpType m = 8 then match s1.ptp.sync with
        | some (q, t2, c) => if q = ptpSeq m then s1.synced t2 (ptpStamp m) (c + ptpCorr m) else s1
        | none => s1
      else s1

def execPtpSync (dt : Nat) (port : Fin 2) (frame : List Byte) (rx : Nat) (s : State) : Host.Outcome State Fault Refusal :=
  done ((s.tick dt).onPtpSync port frame rx)

/-- The client's port identity: the EUI-64 of the port's MAC address, port 1 (notes/assumptions/93). -/
def State.ptpOwn (s : State) (p : Nat) : Nat :=
  let m := s.ownMac p
  ((m / 2 ^ 24) * 2 ^ 40 + 0xFFFE * 2 ^ 24 + m % 2 ^ 24) * 65536 + 1

/-- R374: a Delay_Req goes to the master at its interval. -/
def State.delayReq (s : State) (p : Nat) : State :=
  let every := pow2s ((s.fld Reg.ptpCtrl 11 8 : Int) - 8)
  if !s.bit Reg.ptpCtrl 0 || !s.ptp.best.any (·.1 = p) || s.ptp.reqAt.any (fun t => Decidable.decide (s.now < t + every)) then s
  else
    let q := (s.ptp.reqSeq + 1) % 65536
    let m := beBytes 1 0x01 ++ beBytes 1 2 ++ beBytes 2 44 ++ beBytes 1 (s.fld Reg.ptpDomain 7 0) ++ beBytes 1 0 ++ beBytes 2 0
      ++ beBytes 8 0 ++ beBytes 4 0 ++ beBytes 10 (s.ptpOwn p) ++ beBytes 2 q ++ beBytes 1 1 ++ beBytes 1 0x7F ++ beBytes 10 0
    let s1 := { s with ptp := { s.ptp with req := some (q, s.now), reqSeq := q, reqAt := some s.now } }
    s1.ipSend p 0xE0000181 17 1 [] (beBytes 2 319 ++ beBytes 2 319 ++ beBytes 2 (8 + m.length) ++ beBytes 2 0 ++ m)

def execDelayReq (dt : Nat) (port : Fin 2) (s : State) : Host.Outcome State Fault Refusal := done ((s.tick dt).delayReq port)

/-- R374: a Delay_Resp completes a measurement of the path delay. -/
def State.onDelayResp (s : State) (p : Nat) (f : List Byte) : State :=
  match s.mediaIn p f with
  | (s1, none) => s1
  | (s1, some b) => match s1.ptpMessage p b with
    | none => s1.mediaDrop p
    | some m =>
      match s1.ptp.req, s1.ptp.diff with
      | some (q, t3), some d =>
        if ptpType m = 9 && s1.ptp.best = some (p, ptpIdent m) && ptpSeq m = q && beAt m 44 10 = s1.ptpOwn p then
          let back : Int := ((ptpStamp m : Int) - t3) * 65536 - ptpCorr m
          { s1 with ptp := { s1.ptp with path := (d + back) / 2, req := none } }
        else s1
      | _, _ => s1

def execDelayResp (dt : Nat) (port : Fin 2) (frame : List Byte) (s : State) : Host.Outcome State Fault Refusal :=
  done ((s.tick dt).onDelayResp port frame)

/-- R374: the client is disabled: it follows nothing. -/
def State.ptpStop (s : State) : State :=
  let follows := s.timeMode = 1
  let s1 := { s with ptp := {} }.clrBit Reg.ptpStat 31
  if follows then s1.sourceStops else s1

end Sys2Proof.Machine
end

