-- ==== Sys2Proof/Machine/Media.lean ====
section
/-! DEFINITION. The media ports and receive flows (R367-R373): matching, policing, the merge of a pair, source frames and
their buffers, lines for BIND lanes, FLOW objects, IGMP reports, links. -/
namespace Sys2Proof.Machine

/-! ### The ring of a flow (R96, R292, R372) -/

/-- R96, R292: buffers of a flow that a layer or a DMA descriptor holds. -/
def State.heldBufs (s : State) (f : Nat) : List Nat :=
  (s.layers.filterMap fun x => match x.2.buf with | some (g, b) => if g = f then some b else none | none => none) ++
    s.dma.filterMap fun x => match x.2.run with
      | some r => match r.buf with | some (g, b) => if g = f then some b else none | none => none
      | none => none

/-- R372: the ring, the oldest buffer first. -/
def Flow.ring (f : Flow) : List Nat :=
  let l := f.order.filter (· < f.depth)
  ((List.range f.depth).filter fun b => !l.contains b) ++ l

/-- R372: the buffer a new source frame takes. -/
def State.takeBuffer (s : State) (n : Nat) : Option Nat :=
  let f := s.flw n
  let h := s.heldBufs n ++ f.asm.filterMap (·.buf)
  f.ring.find? fun b => !h.contains b

/-! ### Packets (R369) -/

/-- An RTP packet of a video flow. -/
structure Rtp where
  marker : Bool
  pt     : Nat
  seq    : Nat
  stamp  : Nat
  segs   : List (Nat × Nat × Nat × Bool)
  data   : List Byte
  deriving DecidableEq, Repr

/-- Up to three sample row data headers: length, row, offset, field bit. -/
def srdHeaders (m : List Byte) : Nat → List (Nat × Nat × Nat × Bool)
  | 0 => []
  | n + 1 =>
    let row := beAt m 2 2
    let off := beAt m 4 2
    (beAt m 0 2, row % 32768, off % 32768, row.testBit 15) :: (if off.testBit 15 then srdHeaders (m.drop 6) n else [])

/-- R369: the packet of a datagram, if it is RTP version 2. -/
def rtpParse (m : List Byte) : Option Rtp :=
  let b0 := beAt m 0 1
  let cs := 12 + 4 * (b0 % 16)
  let o := if b0.testBit 4 then cs + 4 + 4 * beAt m (cs + 2) 2 else cs
  if b0 / 64 = 2 && o + 8 ≤ m.length then
    let h := srdHeaders (m.drop (o + 2)) 3
    some ⟨(beAt m 1 1).testBit 7, beAt m 1 1 % 128, beAt m o 2 * 65536 + beAt m 2 2, beAt m 4 4, h, m.drop (o + 2 + 6 * h.length)⟩
  else none

/-- R369: the packet belongs to a flow entry. -/
def Flow.matches_ (f : Flow) (p : Nat) (u : Udp) (r : Rtp) : Bool :=
  let w0 := f.word 0
  w0.testBit 0 && w0.testBit (1 + p) && u.dst = f.word 1 && u.port = f.word 2 % 65536
    && (!w0.testBit 5 || u.src = f.word 3) && (!w0.testBit 6 || u.vlan = some (bitsOf (f.word 2) 27 16))
    && r.pt = bitsOf w0 30 24

/-- R370: the policer: tokens of 1 / (10 · DEN · 10⁹) byte. -/
def Flow.unit (f : Flow) : Nat := 10 * bitsOf (f.word 5) 31 16 * 1000000000
def Flow.police (f : Flow) (now n : Nat) : Option Flow :=
  let g := f.fetchSet
  let depth := (if (f.word 0).testBit 4 then 262144 else 65536) * f.unit
  let c := match f.bucket with
    | none => depth
    | some b => min depth (b.c + 11 * (fmtLineBytes g.fmt 0 g.w * g.h) * bitsOf (f.word 5) 15 0 * (now - b.at_))
  if n * f.unit ≤ c then some { f with bucket := some ⟨c - n * f.unit, 0, now⟩ } else none

/-! ### Source frames (R371-R373) -/

/-- A sequence number counted on through wraps from the one heard last (notes/assumptions/95). -/
def Flow.unwrap (f : Flow) (seq : Nat) : Nat :=
  match f.lastSeq with
  | none => 2 ^ 32 + seq
  | some l => ((l : Int) + signedOf 32 (seq + 2 ^ 32 - l % 2 ^ 32)).toNat

/-- The runs of numbers with one more. -/
def addRun (e : Nat) : List (Nat × Nat) → List (Nat × Nat)
  | [] => [(e, e)]
  | (a, b) :: r =>
    if e + 1 < a then (e, e) :: (a, b) :: r
    else if e + 1 = a then (e, b) :: r
    else if e ≤ b then (a, b) :: r
    else if e = b + 1 then match r with
      | (c, d) :: t => if c = e + 1 then (a, d) :: t else (a, e) :: r
      | [] => [(a, e)]
    else (a, b) :: addRun e r

/-- R371: the frame is complete. -/
def SrcFrame.complete (x : SrcFrame) : Bool :=
  match x.marker with
  | none => false
  | some m => !x.field && x.got.any fun g => g.1 ≤ x.first && m ≤ g.2

/-- Packets of a frame that have not arrived, as far as is known. -/
def SrcFrame.missing (x : SrcFrame) : Nat :=
  let last := x.marker.getD ((x.got.map (·.2)).foldl max x.first)
  (last + 1 - x.first) - (x.got.foldl (fun n g => n + (g.2 + 1 - g.1)) 0)

/-- R371: a frame with a gap is given up. -/
def State.giveUp (s : State) (n : Nat) (x : SrcFrame) : State :=
  let f := s.flw n
  let next := (x.marker.getD ((x.got.map (·.2)).foldl max x.first)) + 1
  (s.setFlw n { f with
    asm := f.asm.filter (·.num ≠ x.num)
    floor := some (max next (f.floor.getD 0))
    incomplete := (f.incomplete + 1) % 2 ^ 32
    lost := min 65535 (f.lost + x.missing) }).setBit Reg.flowStat 3

/-- R371, R372, R295: a frame completes: its buffer is the newest, and the event request line is asserted. A FOLLOW layer whose
composition start came at this instant notes the tie (R103). -/
def State.frameDone (s : State) (n : Nat) (x : SrcFrame) : State :=
  let f := s.flw n
  let f1 := { f with asm := f.asm.filter (·.num ≠ x.num), floor := some (max (x.marker.getD 0 + 1) (f.floor.getD 0)) }
  match x.buf with
  | none => s.setFlw n f1
  | some b =>
    let s1 := s.setFlw n { f1 with
      newest := some b
      doneAt := s.now
      order := f1.order.filter (· ≠ b) ++ [b]
      complete := (f1.complete + 1) % 2 ^ 32 }
    let met := [0, 1, 2, 3].flatMap fun cv => match (s.cv cv).comp with
      | some k => if k.start = s.now then k.lanes.map (·.layer) else []
      | none => []
    let s2 := s1.each (met.filter fun l => s.fld (Reg.layFlow l) 5 4 = 1 && s.fld (Reg.layFlow l) 3 0 = n) fun l s => s.setBit (Reg.layStat l) 8
    { s2 with edges := if s2.edges.contains n then s2.edges else s2.edges ++ [n] }

/-- R373: the wall time of an RTP timestamp. -/
def rtpTime (arrival stamp : Nat) : Option Nat :=
  let k := arrival * 9 / 100000
  let back := (k + 2 ^ 32 - stamp) % 2 ^ 32
  if k < back then none else some (min arrival (cdiv ((k - back + 1) * 100000) 9 - 1))

/-- R372: a new source frame begins. -/
def State.beginSource (s : State) (n e stamp : Nat) : State :=
  let f := s.flw n
  let b := s.takeBuffer n
  let x : SrcFrame := { num := f.frames + 1, buf := b, stamp := stamp, first := f.floor.getD e, at_ := s.now }
  (s.setFlw n { f with
    asm := f.asm ++ [x]
    frames := f.frames + 1
    begunAt := s.now
    times := match rtpTime s.now stamp with | some t => t :: f.times.take 1 | none => f.times }).setBitIf b.isNone Reg.flowStat 4

/-- R97: a BIND lane draws on the flow. -/
def State.bound (s : State) (n : Nat) : Bool :=
  (List.range 64).any fun l => s.fld (Reg.layFlow l) 5 4 = 2 && s.fld (Reg.layFlow l) 3 0 = n

/-- The bytes of a segment in the line that BIND lanes draw on. -/
def Flow.bindBytes (f : Flow) (num row off : Nat) (l : List Byte) : Flow :=
  let e := mget f.bind row (0, [])
  let old := if e.1 = num then e.2 else []
  { f with bind := mset f.bind row (0, []) (num, (l.zipIdx off).foldl (fun m x => mput (mdrop m x.2) x.2 x.1) old) }

/-- R369: the segments of a packet are written to the frame's buffer. -/
def State.writeSegs (s : State) (n : Nat) (x : SrcFrame) : List (Nat × Nat × Nat × Bool) → List Byte → State
  | [], _ => s
  | (len, row, off, field) :: r, data =>
    let g := (s.flw n).fetchSet
    let (px, by_) := fmtGroup g.fmt 0
    let s1 :=
      if field then s.setBit Reg.flowStat 2
      else if g.h ≤ row || g.w < off + len / by_ * px then s
      else
        let o := off / px * by_
        let l := data.take len
        let s2 := match x.buf with
          | some b => s.wrBytes ((g.addr0 + b * (s.flw n).bufStep + row * g.pitch0 + o) % 2 ^ 41) l
          | none => s
        if s2.bound n then s2.setFlw n ((s2.flw n).bindBytes x.num row o l) else s2
    s1.writeSegs n x r (data.drop len)

/-- R371: frames that a newer one has overtaken are given up: at once, for a pair after SKEW µs. -/
def State.overtaken (s : State) (n : Nat) : State :=
  let f := s.flw n
  let pair := bitsOf (f.word 0) 2 1 = 3
  let wait := if pair then f.word 9 % 65536 * 1000 else 0
  ((f.asm.zip (f.asm.drop 1)).filter fun x => x.2.at_ + wait ≤ s.now).foldl (fun s x => s.giveUp n x.1) s

/-- R370, R371: a packet of a flow. Where one port alone delivers, the first packet of a frame shows the gap of the one before it,
whose buffer takes the new frame. -/
def State.flowPacket (s : State) (n p : Nat) (r : Rtp) : State :=
  let f0 := s.flw n
  let f1 := { f0 with heardM := [0, 1].map fun k => if k = p then s.now else f0.heardM.getD k 0 }
  let e0 := f1.unwrap r.seq
  let fresh := f1.floor.any fun a => e0 + 65536 < a
  let f2 := if fresh then { f1 with floor := none, asm := [], lastSeq := none } else f1
  let e := f2.unwrap r.seq
  let s1 := s.setFlw n f2
  let have_ := f2.asm.any fun x => x.stamp = r.stamp && x.got.any fun g => g.1 ≤ e && e ≤ g.2
  if f2.floor.any (e < ·) || have_ then s1
  else match f2.police s1.now (r.segs.foldl (fun a x => a + x.1) 0) with
    | none =>
      ((s1.setFlw n { f2 with policed := min 65535 (f2.policed + 1) }).setBit Reg.flowStat 5).incr (Reg.medDropCnt p)
    | some f3 =>
      let s2 := s1.setFlw n { f3 with lastSeq := some (max e (f3.lastSeq.getD 0)) }
      let stale := if bitsOf (f3.word 0) 2 1 = 3 then [] else f3.asm
      let s3 := if f3.asm.any (·.stamp = r.stamp) then s2
        else (stale.foldl (fun s x => s.giveUp n x) s2).beginSource n e r.stamp
      match (s3.flw n).asm.find? (·.stamp = r.stamp) with
      | none => s3
      | some x =>
        let x1 := { x with
          got := addRun e x.got
          first := min x.first e
          field := x.field || r.segs.any (·.2.2.2)
          marker := if r.marker then some e else x.marker }
        let s4 := s3.setFlw n { (s3.flw n) with asm := (s3.flw n).asm.map fun y => if y.num = x.num then x1 else y }
        let s5 := s4.writeSegs n x1 r.segs r.data
        (if x1.complete then s5.frameDone n x1 else s5).overtaken n

/-! ### IGMP (R368) -/

/-- An IGMPv3 membership report of flows: record type for a source-specific and for an any-source group. -/
def State.igmpReport (s : State) (p : Nat) (fs : List Nat) (ssm asm_ : Nat) : State :=
  if fs.isEmpty then s
  else
    let rec_ := fun (n : Nat) =>
      let f := s.flw n
      if (f.word 0).testBit 5 then beBytes 1 ssm ++ beBytes 1 0 ++ beBytes 2 1 ++ beBytes 4 (f.word 1) ++ beBytes 4 (f.word 3)
      else beBytes 1 asm_ ++ beBytes 1 0 ++ beBytes 2 0 ++ beBytes 4 (f.word 1)
    let m := fun (c : Nat) => beBytes 2 0x2200 ++ beBytes 2 c ++ beBytes 2 0 ++ beBytes 2 fs.length ++ fs.flatMap rec_
    s.ipSend p 0xE0000016 2 1 (beBytes 4 0x94040000) (m (inetSum (m 0)))

/-- Flows with IGMP = 1 that are enabled on a port. -/
def State.igmpFlows (s : State) (p : Nat) : List Nat :=
  (List.range 16).filter fun n => let w := (s.flw n).word 0; w.testBit 0 && w.testBit (1 + p) && w.testBit 7

/-- An IGMP membership query. -/
def isIgmpQuery (b : List Byte) : Bool :=
  let (et, _, o) := etherType b
  et = 0x0800 && beAt b (o + 9) 1 = 2 && beAt b (o + beAt b o 1 % 16 * 4) 1 = 0x11

/-! ### The ports -/

/-- R367-R369: a media port receives a frame. -/
def State.mediaFrame (s : State) (p : Nat) (f : List Byte) : State :=
  match s.mediaIn p f with
  | (s1, none) => s1
  | (s1, some b) =>
    if isIgmpQuery b && !(s1.igmpFlows p).isEmpty then s1.igmpReport p (s1.igmpFlows p) 1 2
    else match udpParse b with
    | none => s1.mediaDrop p
    | some u => match rtpParse u.data with
      | none => s1.mediaDrop p
      | some r =>
        let l := (List.range 16).filter fun n => (s1.flw n).matches_ p u r
        if l.isEmpty then s1.mediaDrop p else s1.each l fun n s => s.flowPacket n p r

/-- R6, R367: what RS-FEC made of the codewords of a frame. -/
def State.fecIn (s : State) (p ce : Nat) (ue : Bool) : State :=
  if !s.bit (Reg.medLink p) 2 then s
  else (s.setRn (Reg.medFecCeCnt p) (min 0xFFFFFFFF (s.rn (Reg.medFecCeCnt p) + ce))).setBitIf ue (Reg.medStat p) 2

/-- R272, R367: while memory stands still a frame waits in the port's receive buffer of 768 KiB; one that finds it full is
dropped. -/
def State.mediaBuffer (s : State) (p n : Nat) : Option State :=
  let held := if s.memStill then mget s.medBuf p 0 else 0
  if !s.bit (Reg.medCtrl p) 0 || held + n ≤ 786432 then some { s with medBuf := mset s.medBuf p 0 (if s.memStill then held + n else 0) }
  else none

def execMediaFrame (dt : Nat) (port : Fin 2) (frame : MediaRx) (s : State) : Host.Outcome State Fault Refusal :=
  let s1 := (s.tick dt).fecIn port frame.corrected frame.uncorrectable
  done (match s1.mediaBuffer port frame.bytes.length with
    | some t => t.mediaFrame port frame.bytes
    | none => (s1.mediaDrop port).setBit (Reg.medStat port) 3)

/-- R371: one path of a pair has delivered nothing for SKEW µs. -/
def State.pathLost (s : State) (n p : Nat) : State :=
  let f := s.flw n
  if bitsOf (f.word 0) 2 0 = 7 && f.heardM.getD p 0 + f.word 9 % 65536 * 1000 ≤ s.now then s.setBit Reg.flowStat 6 else s

def execPathLost (dt : Nat) (flow : Fin 16) (path : Fin 2) (s : State) : Host.Outcome State Fault Refusal :=
  done ((s.tick dt).pathLost flow path)

/-- R367: a media link comes up. -/
def State.mediaLinkUp (s : State) (p : Nat) : State :=
  (s.setBit (Reg.medStat p) 0).setRn (Reg.medLink p) (3 + if s.bit (Reg.medCtrl p) 1 then 4 else 0)

def execMediaLinkUp (dt : Nat) (port : Fin 2) (s : State) : Host.Outcome State Fault Refusal := done ((s.tick dt).mediaLinkUp port)

/-- R367: a media link goes down. -/
def State.mediaLinkDown (s : State) (p : Nat) : State := (s.setBit (Reg.medStat p) 1).setRn (Reg.medLink p) 0

def execMediaLinkDown (dt : Nat) (port : Fin 2) (s : State) : Host.Outcome State Fault Refusal :=
  done ((s.tick dt).mediaLinkDown port)

/-! ### FLOW objects (R372, R373) -/

/-- The writable bits of a word of an object. -/
def flowMask (obj k : Nat) : Nat :=
  if obj < 16 then [0x7FFF0FFF, 0xFFFFFFFF, 0x0FFFFFFF, 0xFFFFFFFF, 0xFFFFFFFF, 0xFFFFFFFF, 0xFFFFF000, 0x1FF, 0xFFFFC0, 0xFFFF].getD k 0
  else [0xFFFFFFFF, 0xFFFF, 0xFFFFFFFF, 0x0FFF0001].getD k 0

/-- R373: a word of an object as READ loads it. -/
def State.flowWord (s : State) (obj k : Nat) : Nat :=
  let f := s.flw obj
  if obj ≥ 16 then if k < 4 then (mget f.w k 0).toNat else 0
  else match k with
  | 10 => f.newest.getD 0 + (if f.newest.isSome then 16 else 0)
      + (s.heldBufs obj).foldl (fun m b => m ||| 2 ^ b) 0 % 65536 * 65536
  | 11 => f.doneAt % 2 ^ 32
  | 12 => f.doneAt / 2 ^ 32
  | 13 => f.complete
  | 14 => f.incomplete
  | 15 => f.policed + f.lost * 65536
  | _ => f.word k

/-- R373: CMD.READ. -/
def State.flowRead (s : State) : State :=
  let obj := s.fld Reg.flowIdx 4 0
  (s.each (List.range 16) fun k t => t.setRn (Reg.flowData k) (s.flowWord obj k)).setBit Reg.flowStat 0

def execFlowRead (dt : Nat) (_req : Nat) (s : State) : Host.Outcome State Fault Refusal := done (s.tick dt).flowRead

/-- R372: a WRITE of a flow entry from words `d` is refused; FMT is judged where the entry is enabled (notes/assumptions/152). -/
def flowRefused (old : Flow) (d : Nat → Nat) : Bool :=
  let w0 := d 0
  let changed := (List.range 10).any fun k => if k = 0 then old.word 0 / 2 ≠ w0 / 2 else old.word k ≠ d k
  (old.word 0 % 2 = 1 && changed) || bitsOf w0 11 8 = 0 || d 9 = 0 || 50000 < d 9 ||
    (w0 % 2 = 1 && (bitsOf w0 23 16 < 0x08 || 0x10 < bitsOf w0 23 16 || d 5 % 65536 = 0 || d 5 / 65536 = 0
      || d 4 % 65536 = 0 || d 4 / 65536 = 0 || bitsOf w0 2 1 = 0))

/-- R36, R372: a WRITE changes what the Ward charges. -/
def flowCharged (old : Flow) (d : Nat → Nat) : Bool :=
  (old.word 0 &&& 0xFF0F01) ≠ (d 0 &&& 0xFF0F01) || [4, 5, 6, 7, 8].any fun k => old.word k ≠ d k

/-- R368, R372: CMD.WRITE. -/
def State.flowWrite (s : State) : State :=
  let obj := s.fld Reg.flowIdx 4 0
  let old := s.flw obj
  let d := fun k => s.rn (Reg.flowData k) &&& flowMask obj k
  let n := if obj < 16 then 10 else 4
  let w := (List.range n).foldl (fun (m : Sparse Word) k =>
    mset m k (if obj < 16 && k = 9 then 10000 else 0) (BitVec.ofNat 32 (d k))) old.w
  if 17 < obj then s
  else if obj ≥ 16 then (s.setFlw obj { old with w := w }).setBit Reg.flowStat 0
  else if flowRefused old d then s.setBit Reg.flowStat 1
  else
    let on := d 0 % 2 = 1 && old.word 0 % 2 = 0
    let off := d 0 % 2 = 0 && old.word 0 % 2 = 1
    let f1 : Flow :=
      if on then { old with
        w := w
        newest := none
        bucket := none
        asm := []
        lastSeq := none
        floor := none
        times := []
        heardM := [s.now, s.now]
        order := []
        bind := [] }
      else { old with w := w, asm := if off then [] else old.asm }
    let ports := [0, 1].filter fun p => (d 0).testBit 7 && (d 0).testBit (1 + p) && s.bit (Reg.medCtrl p) 0
    let s1 := (s.setFlw obj f1).setBit Reg.flowStat 0
    let s2 := if on then s1.each ports fun p s => s.igmpReport p [obj] 5 4
      else if off then s1.each ports fun p s => s.igmpReport p [obj] 6 3 else s1
    if flowCharged old d then s2.readmitEvent else s2

def execFlowWrite (dt : Nat) (_req : Nat) (s : State) : Host.Outcome State Fault Refusal := done (s.tick dt).flowWrite

end Sys2Proof.Machine
end

