-- ==== Sys2Proof/Machine/Reset.lean ====
section
/-! DEFINITION. The resets: power-on reset, RESET_N, DEV.SOFT_RESET and the PCIe resets, PERST# and the PCIe link
(R307, R363, R390-R392, R394). -/
namespace Sys2Proof.Machine

/-! ### The soft reset (R390) -/

/-- R49, R390: a register's reset word with the LK fields of its present word. -/
def keepLk (d : RegDef) (new old : Word) : Word :=
  d.fields.foldl (fun w f => if f.lk then wput w f.hi f.lo (bitsOf old.toNat f.hi f.lo) else w) new

/-- R64, R390: the bits of a register that show hardware a soft reset leaves as it is: sensors and straps, the DIMMs' organisation
and migrations, the set point in force, the PLLs' locks, power domains and core voltage, spares in use, the flash sizes,
strap samples. -/
def hardBits (off : Nat) : Nat :=
  let page := off / 4096
  let o := off % 4096
  if page = 0x006 then (match o % 32 with | 0x00 => 0x100 | 0x08 => 0x20002000 | 0x0C => 0x70000000 | _ => 0)
  else if page = 0x008 then (if o = 0x040 || (0x048 ≤ o && o ≤ 0x054) then 0xFFFFFFFF else 0)
  else if page = 0x003 then (if o = 0x048 || o = 0x070 || o = 0x074 then 0xFFFFFFFF else 0)
  else if 0x070 ≤ page && page ≤ 0x078 then (if o = 0x040 then 0x2D else 0)
  else if 0x100 ≤ page && page < 0x108 then (if o = 0x044 || o = 0x064 then 0xFFFFFFFF else if o = 0x054 then 0xFF00 else 0)
  else if off = Reg.memFspStat then 0x3
  else if off = Reg.dmagSpareMap then 0xFFFFFFFF
  else if page = 0x18B then (if 0x060 ≤ o && o < 0x080 then 0xFFFFFFFF else 0)
  else if page = 0x18A then (if o = 0x044 then 0x1FFF0000 else 0)
  else if page = 0x18C || page = 0x18D then (if o = 0x04C then 0xF else 0)
  else if off = Reg.gpioStraps then 0xFF
  else 0

/-- R390: the word a register holds after a soft reset: the TIME, PCIE, FAULT and MTRN pages, PG_LOCK and LK fields are
kept. -/
def softWord (off : Nat) (w : Word) : Word :=
  let page := off / 4096
  if page = 0x004 || page = 0x005 || page = 0x109 || page = 0x188 || off % 4096 = 0x00C then w
  else
    let r := resetWord off
    match regAt off with
    | none => r
    | some (_, _, d, _) =>
      let m := BitVec.ofNat 32 (hardBits off)
      (keepLk d r w &&& ~~~m) ||| (w &&& m)

/-- R390: the register table after a soft reset. -/
def softRegs (l : Sparse Word) : Sparse Word :=
  l.filterMap fun x =>
    if softWord x.1 x.2 = x.2 then some x
    else if softWord x.1 x.2 = resetWord x.1 then none
    else some (x.1, softWord x.1 x.2)

/-- R353: a PLL whose slot or dividers a reset has changed locks anew. -/
def State.relockChanged (s old : State) : State :=
  s.each ((List.range 4).filter fun n => old.bit (Reg.pllStat n) 28 &&
    (old.slotOf n ≠ 0 || ((old.rn (Reg.pllDiv n) ^^^ s.rn (Reg.pllDiv n)) &&& 0xFF00FF) ≠ 0)) fun n s => s.lockStart n

/-- R390, R392: DEV.SOFT_RESET: the core restarts; locks, trained banks, DRAM, wall time and what the fault manager knows
are kept, and every enabled channel is in self-refresh until bring-up takes it out. -/
def State.softReset (s : State) : State :=
  let lostTmb := (s.faults.lost.filter (· / 128 = 0)).length
  let n : State := {
    pending := s.pending
    now := s.now
    free := s.free
    regs := softRegs s.regs
    tbase := s.tbase
    faults := s.faults
    plls := s.plls.map fun (x : Nat × Pll) => (x.1, { x.2 with band := [] })
    pcie := s.pcie
    dram := s.dram
    poison := s.poison
    vault := { used := s.vault.used, spared := s.vault.used, lost := s.vault.lost }
    ports := s.ports.filterMap fun (x : Nat × Port) => if x.2.lost then some (x.1, { lost := true }) else none
    keep := { temps := s.keep.temps, vinLow := s.keep.vinLow, hot127 := s.keep.hot127, energyLife := s.keep.energyLife,
              energyAt := s.now, paceAt := s.now }
    mem := { dly := s.mem.dly, frozen := s.mem.frozen, chans := s.mem.chans.filterMap fun (x : Nat × MemChan) =>
      let c : MemChan := { migPos := x.2.migPos, zeroing := x.2.zeroing, hot := x.2.hot }
      if c = {} then none else some (x.1, c) }
    turnkey := { cause := 0, ilvKept := [0, 1, 2, 3].map fun k => s.reg (Reg.memIlv k), cacheSlot := s.turnkey.cacheSlot }
    lamp := { badBlocks := s.lamp.badBlocks }
    tx := s.tx
    out := s.out }
  let n1 := n.each [0, 1, 2, 3] fun k t => t.setReg (Reg.memIlv k) (s.reg (Reg.memIlv k) &&& 0x7FFFFFFF)
  let n2 := n1.each ((List.range 8).filter fun c => s.bit (Reg.mcCtrl c) 0) fun c t => t.setFld (Reg.mcSrStat c) 2 0 2
  let n3 := (n2.setFld Reg.mboxStat 23 16 1).setRn Reg.wardTmbAvail (8 - lostTmb)
  (n3.relockChanged s).setPbudget

def execSoftReset (dt : Nat) (_req : Nat) (s : State) : Host.Outcome State Fault Refusal := done (s.tick dt).softReset

/-! ### Power-on reset and RESET_N (R307, R390, R391) -/

/-- R360: the wall time that the backup counter has come to: whole ticks of XIN32 since the last copy. -/
def backupTime (copy now : Nat) : Nat := copy + (now - copy) * 32768 / 1000000000 * 1000000000 / 32768

/-- R360: the time base after a power-on reset or RESET_N, from the backup copy where it holds a valid calendar. -/
def State.timeFromBackup (s : State) (b : Option (Nat × Nat × Nat × Bool)) (was : Nat) : State :=
  match b with
  | some (t, utc, zone, true) =>
    let s1 := { s with now := backupTime t was % 2 ^ 64, tbase := { backup := b, calBy := 4 } }
    ((s1.setRn Reg.timeUtcOfs utc).setRn Reg.timeZoneOfs zone).setBit Reg.timeStat 27 |>.setBit Reg.timeStat 31
  | _ => { s with now := 0 }

/-- R390, R391: everything restarts; the straps are sampled. `cause`: the lifetime counter that counts the reset;
`vbat`: VBAT has held the backup domain. -/
def State.coldReset (s : State) (straps cause : Nat) (vbat : Bool) : State :=
  let n : State := { State.reset with
    pending := s.pending, free := s.free, tx := s.tx, turnkey := { cause := cause }, lamp := { badBlocks := s.lamp.badBlocks } }
  let n1 := n.timeFromBackup (if vbat then s.tbase.backup else none) s.now
  let n2 := (n1.setRn Reg.gpioStraps (straps % 256)).each [0, 1] fun h t => t.setFld (Reg.haspRing h) 3 0 (bitsOf straps 6 3)
  n2.setFld Reg.xspiMode 1 0 (if straps.testBit 2 then 0 else 1)

def execPowerOnReset (dt : Nat) (straps : Nat) (vbat : Bool) (s : State) : Host.Outcome State Fault Refusal :=
  done ((s.tick dt).coldReset straps 2 vbat)

def execResetN (dt : Nat) (straps : Nat) (s : State) : Host.Outcome State Fault Refusal :=
  done ((s.tick dt).coldReset straps 3 true)

/-! ### PCIe (R363, R390, R394) -/

/-- R394: phase 2 of bring-up has ended. -/
def State.imageDone (s : State) : Bool := s.turnkey.phases.testBit 2

/-- R390: a PCIe reset: 0 PERST#, 1 a hot reset, 2 a link down. PG_LOCK and the LK fields of BAR2_SIZE stay. -/
def State.pcieReset (s : State) (kind : Nat) : State :=
  let perst := s.pcie.perst && kind ≠ 0
  let regs := s.regs.filter fun x => x.1 / 4096 ≠ 0x188 || x.1 = pgLock 0x188 || x.1 = Reg.pcieBar2Size
  let s1 := { s with regs := regs, pcie := { perst := perst } }
  s1.setBitIf (perst && s.imageDone) Reg.pcieStat 9

def execPcieReset (dt : Nat) (kind : Fin 3) (s : State) : Host.Outcome State Fault Refusal := done ((s.tick dt).pcieReset kind)

/-- R394: PERST# is deasserted; READY follows once phase 2 has ended. -/
def State.perstUp (s : State) : State :=
  let s1 := { s with pcie := { s.pcie with perst := true } }
  s1.setBitIf s.imageDone Reg.pcieStat 9

def execPerstDeassert (dt : Nat) (s : State) : Host.Outcome State Fault Refusal := done (s.tick dt).perstUp

/-- R363: the link trains to a speed code and a width, and the data link comes up. -/
def State.pcieUp (s : State) (speed width : Nat) : State :=
  if !s.pcie.perst || speed = 0 || 5 < speed || !(([1, 2, 4, 8] : List Nat).contains width) then s
  else (((s.setFld Reg.pcieStat 2 0 speed).setFld Reg.pcieStat 7 4 width).setBit Reg.pcieStat 8)

def execPcieLinkUp (dt : Nat) (speed width : Nat) (s : State) : Host.Outcome State Fault Refusal :=
  done ((s.tick dt).pcieUp speed width)

end Sys2Proof.Machine
end

