-- ==== Sys2Proof/Machine/Scanout.lean ====
section
/-! DEFINITION. The vault's errors, spare row groups, scrub and granule moves, the BAR4 window, and scan-out's read-back
and retransmission (R178, R182-R184, R191, R192, R218). -/
namespace Sys2Proof.Machine

/-! ### Retransmission (R192) -/

/-- How many resends a packet has had in its frame; 255: it is withheld (R182). -/
def Deliv.resentOf (d : Deliv) (x : Pix) : Nat := ((d.resends.find? (·.1 = { x with resend := false })).map (·.2)).getD 0

/-- R192: where a resend joins its pixel queue: in banked mode after the resends at the head, in through mode after the
first transmissions of lines already composed. -/
def State.insertResend (s : State) (x : Pix) (q : List Queued) : List Queued :=
  let e : Queued := ⟨.pix { x with resend := true }, s.now⟩
  let early := fun (f : LFrame) => match f with
    | .pix y => y.resend || (s.bit (Reg.cvMode x.cv) 2 && ((s.cv x.cv).comp.all fun k => k.done || s.rowsComposed k y))
    | .msg _ _ _ => false
  (q.takeWhile fun y => early y.frame) ++ e :: q.dropWhile fun y => early y.frame

/-- R11, R22: the retransmission reserve of a port in a frame: wire time, in tenths of a nanosecond. -/
def State.reserveOf (s : State) (cv frame p : Nat) : Nat :=
  ((s.packetsFor cv frame p).foldl (fun n x => n + wireTime (s.rateOf p) (s.frameBytes (.pix x))) 0) * s.fld Reg.wardRetx 9 0 / 1000

/-- R68: a resend requested before the last first transmission of its frame has ended, within the reserve that its port has
left, is one that delivery waits for. -/
def State.owe (s : State) (p : Nat) (x : Pix) (d : Deliv) : Deliv :=
  let cost := wireTime (s.rateOf p) (s.frameBytes (.pix x))
  let used := mget d.used p 0 + cost
  if (List.range 64).any (fun q => !(s.firstLeft x.cv d.frame q).isEmpty) && used ≤ s.reserveOf x.cv d.frame p then
    { d with owed := d.owed ++ [{ x with resend := false }], used := mset d.used p 0 used }
  else d

/-- R192: a request to resend a packet from a port. -/
def State.resend (s : State) (p : Nat) (x : Pix) : State :=
  let c := s.cv x.cv
  let o := Reg.scnStat x.cv
  match c.deliv, s.resendLimit x.cv x.frame with
  | some d, some l =>
    let n := d.resentOf x
    if n = 255 then s
    else if s.fld (Reg.scnCtrl x.cv) 5 3 ≤ n then s.setBit o 3
    else if l * 10 ≤ s.now * 10 + wireTime (s.rateOf p) (s.frameBytes (.pix x)) then s.setBit o 2
    else
      let s1 := (s.setCv x.cv { c with deliv := some ((s.owe p x d).setResent x (n + 1)) }).setPrt p
        ((s.prt p).setQueue 0 (s.insertResend x ((s.prt p).queue 0)))
      ((s1.incr (Reg.scnRetxCnt x.cv)).setBit o 1).decide p (s1.now * 10) false
  | _, _ => s.setBit o 2

/-- R191: the read-back of the oldest packet sent from a port completes: `echo` is what the port's receiver decoded, from
the destination address through the FCS. -/
def State.readbackVerdict (s : State) (p : Nat) (echo : List Byte) : State :=
  match (s.prt p).readback with
  | [] => s
  | (x, crc) :: r =>
    let s1 := s.setPrt p { (s.prt p) with readback := r }
    let n := echo.length
    let good := 64 ≤ n && ofLe (echo.drop (n - 4)) = crc32 (echo.take (n - 4)) && crc32c ((echo.drop 38).take (n - 42)) = crc
    if good then s1
    else
      let s2 := (s1.incr (Reg.scnCrcErrCnt x.cv)).setBit (Reg.scnStat x.cv) 0
      (s2.onFault 6 p).resend p x

def execReadbackVerdict (dt : Nat) (port : Fin 64) (echo : List Byte) (s : State) : Host.Outcome State Fault Refusal :=
  done ((s.tick dt).readbackVerdict port echo)

/-- R192, R218: a tile's NACK: each entry that names a packet of its frame is a resend request. -/
def State.onNack (s : State) (p : Nat) (f : List Byte) : State :=
  let (s1, u) := s.receive p f
  match u with
  | none => s1
  | some u =>
    let s1 := if u.type = 0x40 then s1.setBit (Reg.prtStat p) 9 else s1
    let t := s1.tile u.tile
    if u.type ≠ 0x40 || beAt u.body 8 1 ≠ 1 || 4096 ≤ u.tile || !t.given || !s1.bit (Reg.scnCtrl t.cv) 2 then s1
    else
      let q := s1.servePort t
      let pk := (s1.packetsFor t.cv (beAt u.body 12 4) q).filter (·.tile = u.tile)
      (List.range (min (beAt u.body 9 1) 16)).foldl (fun s i =>
        match pk.find? fun x => x.line = beAt u.body (16 + 4 * i) 2 && x.x0 = beAt u.body (18 + 4 * i) 2 with
        | some x => s.resend q x
        | none => s) s1

def execNack (dt : Nat) (port : Fin 64) (frame : List Byte) (s : State) : Host.Outcome State Fault Refusal :=
  done ((s.tick dt).onNack port frame)

/-! ### Errors and spare row groups (R182, R183) -/

/-- Scan-out reads a vault word for a packet. -/
def State.covers (s : State) (x : Pix) (word : Nat) : Bool := (s.pixAddrs x (s.bankOf x.cv x.frame)).any (· / 8 = word)

/-- R13, R182: scan-out withholds the first packet of a port's queue that covers a word. -/
def State.withhold (s : State) (p word : Nat) : State :=
  let hit := fun (f : LFrame) => match f with
    | .pix x => s.covers x word
    | .msg _ _ _ => false
  match ((s.prt p).queue 0).find? fun q => hit q.frame with
  | some ⟨.pix x, _⟩ => s.withholdPix p x
  | _ => s

/-- R177: the offset in a bank at which a vault address lies. -/
def Bank.offset (b : Bank) (bankB : Bool) (a : Nat) : Option Nat :=
  let n := b.w * b.h * b.bpp
  ((List.range (cdiv n 65536)).find? fun i => b.addr bankB (i * 65536) ≤ a && a < b.addr bankB (i * 65536) + 65536).bind fun i =>
    let o := i * 65536 + (a - b.addr bankB (i * 65536))
    if o < n then some o else none

/-- R182: an uncorrectable word that capture reads from the bank is written to the capture buffer as a poisoned burst. -/
def State.captBad (s : State) (cv word : Nat) : State :=
  match (s.cv cv).comp with
  | some k =>
    match k.capt, (s.bank cv).offset (k.bank = 1) (8 * word) with
    | some c, some o =>
      let y := o / ((s.bank cv).w * (s.bank cv).bpp)
      if !k.captDrop && !k.dropped && k.composedLines.contains y then s.setPoison (s.captAddr cv c + o) true else s
    | _, _ => s
  | none => s

/-- R182: an error in the vault word at an address, met by the scan-out of a port where a packet of its queue covers the
word. -/
def State.vaultError (s : State) (addr : Nat) (unc : Bool) (p : Nat) : State :=
  let s1 := ((s.incr Reg.vaultErrCnt).setBit Reg.vaultStat (if unc then 1 else 0))
  let s2 := if unc then
      { s1 with vault := { s1.vault with bad := if s1.vault.bad.contains (addr / 8) then s1.vault.bad else s1.vault.bad ++ [addr / 8] } }.withhold p (addr / 8)
    else s1
  let s2 := if unc then s2.each [0, 1, 2, 3] fun cv s => s.captBad cv (addr / 8) else s2
  (s2.faultEvent 2 (sectionOf addr) unc (addr / 8)).haltLost

def execVaultError (dt : Nat) (addr : Nat) (uncorrectable : Bool) (port : Fin 64) (s : State) : Host.Outcome State Fault Refusal :=
  done ((s.tick dt).vaultError addr uncorrectable port)

/-- A bank or ring in a section of the vault is being written. -/
def State.sectionWritten (s : State) (sec : Nat) : Bool :=
  [0, 1, 2, 3].any fun cv => match (s.cv cv).comp with
    | none => false
    | some k =>
      let b := s.bank cv
      let gr := if k.bank = 1 then b.granB else b.granA
      let tl := if k.bank = 1 then b.tailB else b.tailA
      !k.done && (gr.any (fun g => sectionOf (granAddr g) = sec) || tl.any (fun t => sectionOf (tailAddr t) = sec) ||
        b.ring.any fun p => sectionOf (p * 4096) = sec)

/-- R182: a retired section is copied into its spare row group once none of it is being written. -/
def State.sectionCopy (s : State) (sec : Nat) : State :=
  if s.vault.copying.contains sec && !s.sectionWritten sec then
    { s with vault := { s.vault with copying := s.vault.copying.filter (· ≠ sec), spared := s.vault.spared ++ [sec] } }
  else s

def execSectionSpareCopy (dt : Nat) (sec : Fin 128) (s : State) : Host.Outcome State Fault Refusal :=
  done ((s.tick dt).sectionCopy sec)

/-- R182: the background scrub reads the next section: `errors` are the addresses of words it corrects and rewrites. -/
def State.vaultScrub (s : State) (errors : List Nat) : State :=
  if !s.bit Reg.vaultPart 1 || s.bgHeld 4 then s
  else
    let sec := s.vault.scrub
    let s1 := { s with vault := { s.vault with scrub := (sec + 1) % 128 } }
    let hit := fun (s : State) (unc : Bool) (a : Nat) =>
      ((s.incr Reg.vaultErrCnt).setBit Reg.vaultStat (if unc then 1 else 0)).faultEvent 2 sec unc (a / 8)
    let s2 := (errors.filter fun a => sectionOf a = sec && !s.vault.bad.contains (a / 8)).foldl (fun s a => hit s false a) s1
    ((s.vault.bad.filter fun w => sectionOf (8 * w) = sec).foldl (fun s w => hit s true (8 * w)) s2).haltLost

def execVaultScrub (dt : Nat) (errors : List Nat) (s : State) : Host.Outcome State Fault Refusal :=
  done ((s.tick dt).vaultScrub errors)

/-! ### Granule moves (R178) -/

/-- A bank of a canvas is being written. -/
def State.bankWritten (s : State) (cv bank : Nat) : Bool := (s.cv cv).comp.any fun k => !k.done && k.bank = bank

/-- R178: the bytes of a granule are copied to another, with the words that read uncorrectable. -/
def State.copyGranule (s : State) (g n : Nat) : State :=
  let bytes := (List.range 65536).map fun i => s.vb (granAddr g + i)
  let bad := (s.vault.bad.filter fun w => granAddr g ≤ 8 * w && 8 * w < granAddr g + 65536).map fun w =>
    w - granAddr g / 8 + granAddr n / 8
  let keep := s.vault.bad.filter fun w => !(granAddr n ≤ 8 * w && 8 * w < granAddr n + 65536)
  { s with vault := { s.vault with bytes := mrun s.vault.bytes (granAddr n) bytes, bad := keep ++ bad } }

/-- R178: the next granule that can move is copied to the lowest free granule below, and its map switches. -/
def State.relocate (s : State) : State :=
  if s.bgHeld 4 then s
  else match s.vault.moves.find? fun m => !s.bankWritten m.1 m.2.1 with
    | none => s
    | some (cv, bk, g) =>
      let left := s.vault.moves.filter (· ≠ (cv, bk, g))
      let s1 := { s with vault := { s.vault with moves := left } }.setBitIf left.isEmpty Reg.vaultStat 5
      match s.freeGranules.find? (· < g) with
      | none => s1
      | some n =>
        let b := s.bank cv
        let sw := fun (l : List Nat) => l.map fun x => if x = g then n else x
        (s1.setBank cv (if bk = 1 then { b with granB := sw b.granB } else { b with granA := sw b.granA })).copyGranule g n

def execGranuleRelocation (dt : Nat) (s : State) : Host.Outcome State Fault Refusal := done (s.tick dt).relocate

/-! ### BAR4 (R184) -/

/-- R184: what byte `o` of the window reads. -/
def State.bar4Byte (s : State) (o : Nat) : Nat :=
  let r := Reg.vaultBar4Base
  if !s.bit Reg.vaultPart 16 then 0
  else if !s.bit r 0 then (s.vb (o % 2 ^ 29)).toNat
  else
    let b := s.bank (s.fld r 2 1)
    let bankB := match s.fld r 4 3 with
      | 0 => b.showB
      | 1 => !b.showB
      | k => k = 3
    if !b.valid || (b.single && bankB) || b.w * b.h * b.bpp ≤ o then 0 else (s.vb (b.addr bankB o)).toNat

/-- R184: a read of the window. -/
def State.bar4Read (s : State) (off len : Nat) : State := { s with bus := (List.range len).map fun i => s.bar4Byte (off + i) }

def execBar4Read (dt : Nat) (req off len : Nat) (s : State) : Host.Outcome State Fault Refusal :=
  done (if s.peerRefused req then { s.tick dt with bus := [] } else (s.tick dt).bar4Read off len)

def execBar4Write (dt : Nat) (req _off : Nat) (_data : List Byte) (s : State) : Host.Outcome State Fault Refusal :=
  done (if s.peerRefused req then s.tick dt else (s.tick dt).setBit Reg.vaultStat 4)

end Sys2Proof.Machine
end

