-- ==== Sys2Proof/Machine/Serial.lean ====
section
/-! DEFINITION. The flash controller (R376, R377, R295), the DIMM sideband (R378, R379, R266) and the GPIO pins (R388). -/
namespace Sys2Proof.Machine

/-! ### Flash (R377) -/

/-- R377: a command or a writer holds the controller. -/
def State.flashHeld (s : State) : Bool := s.xspi.cmd.isSome || s.lamp.ckpt ≠ 0 || s.lamp.restoring || s.faults.ltSlot.isSome

/-- R377: a CMD starts, or is refused while the controller is held. -/
def State.flashCmd (s : State) (op : Nat) : State :=
  if s.flashHeld then s.setBit Reg.xspiStat 2
  else { s with xspi := { s.xspi with cmd := some (op, s.fld Reg.xspiCtrl 0 0, s.rn Reg.xspiAddr, s.fld Reg.xspiLen 23 0) } }

/-- Free bytes: what the flash gives beyond the bytes a command names. -/
def State.freeBytes (s : State) (n : Nat) : List Byte := (List.range n).map fun i => BitVec.ofNat 8 (s.freeVal / 256 ^ i)

/-- R377: READ; `data`: what the flash holds there. -/
def State.flashRead (s : State) (data : List Byte) : State :=
  if s.flashHeld then s.flashCmd 0
  else
    let s1 := s.flashCmd 0
    let n := s.fld Reg.xspiLen 23 0
    let short := n - data.length
    let l := data.take n ++ s.freeBytes short
    let s2 := { s1 with
      xspi := { s1.xspi with fifo := l.take 1024, rest := l.drop 1024 }
      tx := s1.tx ++ [.flash (s.fld Reg.xspiCtrl 0 0) 0 (s.rn Reg.xspiAddr) []] }
    if short = 0 then s2 else s2.drawn

def execXspiRead (dt : Nat) (_req : Nat) (data : List Byte) (s : State) : Host.Outcome State Fault Refusal :=
  done ((s.tick dt).flashRead data)

/-- R377: PROGRAM takes LEN bytes from the FIFO. -/
def execXspiProgram (dt : Nat) (_req : Nat) (s : State) : Host.Outcome State Fault Refusal := done ((s.tick dt).flashCmd 1)

/-- R377: ERASE of the sector or block at ADDR. -/
def State.flashErase (s : State) : State :=
  if s.flashHeld then s.flashCmd 2
  else
    let s1 := s.flashCmd 2
    { s1 with tx := s1.tx ++ [.flash (s.fld Reg.xspiCtrl 0 0) 2 (s.rn Reg.xspiAddr) []] }

def execXspiErase (dt : Nat) (_req : Nat) (s : State) : Host.Outcome State Fault Refusal := done (s.tick dt).flashErase

/-- R377: RAW sends CTRL.OP with no address. -/
def State.flashRaw (s : State) : State :=
  if s.flashHeld then s.flashCmd 3
  else
    let s1 := s.flashCmd 3
    { s1 with tx := s1.tx ++ [.flash (s.fld Reg.xspiCtrl 0 0) (256 + s.fld Reg.xspiCtrl 15 8) 0 []] }

def execXspiRaw (dt : Nat) (_req : Nat) (s : State) : Host.Outcome State Fault Refusal := done (s.tick dt).flashRaw

/-- R377: the command ends; `status`: bit 0 the flash reported a failure, bits 1 and 2 NAND ECC corrected and
uncorrectable; `timeout`: its status never became ready. -/
def State.flashDone (s : State) (status : Nat) (timeout : Bool) : State :=
  match s.xspi.cmd with
  | none => s
  | some (op, cs, a, n) =>
    if (op = 0 && !s.xspi.rest.isEmpty) || (op = 1 && s.xspi.prog.length < n && !timeout) then s
    else
      let x := { s.xspi with
        cmd := none
        prog := if op = 1 then s.xspi.prog.drop n else s.xspi.prog }
      let s1 := { s with
        xspi := x
        tx := if op = 1 then s.tx ++ [Sent.flash cs 1 a (s.xspi.prog.take n)] else s.tx }
      let s2 := (s1.setBit Reg.xspiStat 0).setBitIf (status.testBit 0 || timeout) Reg.xspiStat 1
      (s2.setBitIf (cs = 1 && status.testBit 1) Reg.xspiStat 3).setBitIf (cs = 1 && status.testBit 2) Reg.xspiStat 4

def execXspiDone (dt : Nat) (status : Nat) (timeout : Bool) (s : State) : Host.Outcome State Fault Refusal :=
  done ((s.tick dt).flashDone status timeout)

/-- R295: the write FIFO has room for 256 bytes; one that a PROGRAM empties has, until the command's bytes are in. -/
def Xspi.room (x : Xspi) : Bool :=
  match x.cmd with
  | some (1, _, _, n) => x.prog.length < n
  | _ => x.prog.length + 256 ≤ 1024

/-- R295: the level lines of the FIFO: 0 line 16 of the read FIFO, 1 line 17 of the write FIFO. -/
def State.flashLevel (s : State) (line : Nat) : State :=
  let x := s.xspi
  let up := if line = 0 then 256 ≤ x.fifo.length || (x.rest.isEmpty && !x.fifo.isEmpty)
    else x.room
  let l := 16 + line
  if up && !x.levels.contains l then { s with xspi := { x with levels := x.levels ++ [l] } } else s

def execFlashFifoLevel (dt : Nat) (line : Fin 2) (s : State) : Host.Outcome State Fault Refusal :=
  done ((s.tick dt).flashLevel line).readTurn

/-- R377: a read of DATA takes four bytes from the FIFO; bytes it does not hold are free. -/
def State.flashData (s : State) : State × Nat :=
  let l := s.xspi.fifo.take 4
  let v := ofLe (l ++ s.freeBytes (4 - l.length))
  let s1 := { s with xspi := { s.xspi with fifo := s.xspi.fifo.drop 4 }.refill }
  (if l.length = 4 then s1 else s1.drawn, v)

/-- R377: a write of DATA puts four bytes into the FIFO; a full one takes none. -/
def State.writeFlashData (s : State) (v : Word) : State :=
  let full := match s.xspi.cmd with | some (1, _, _, _) => false | _ => 1024 < s.xspi.prog.length + 4
  if full then s
  else
    let x := { s.xspi with prog := s.xspi.prog ++ leBytes 4 v.toNat }
    { s with xspi := { x with levels := x.levels.filter fun l => l ≠ 17 || x.room } }

/-! ### Sideband (R378, R379) -/

/-- R378: a transfer starts; one written while another runs is discarded. -/
def State.sbusCmd (s : State) (read : Bool) : State :=
  if s.sbus.cmd.isSome then s
  else
    let c := s.rn Reg.sbusCtrl
    let data := if read then [] else leBytes (bitsOf c 17 16 + 1) (s.rn Reg.sbusData)
    { s with
      sbus := { s.sbus with cmd := some (read, c) }
      tx := s.tx ++ [.sideband (c % 2 ^ 18 + (if read then 2 ^ 20 else 0)) data] }

def execSbusRead (dt : Nat) (_req : Nat) (s : State) : Host.Outcome State Fault Refusal := done ((s.tick dt).sbusCmd true)
def execSbusWrite (dt : Nat) (_req : Nat) (s : State) : Host.Outcome State Fault Refusal := done ((s.tick dt).sbusCmd false)

/-- R379: the transfer ends. -/
def State.sbusDone (s : State) (data : Nat) (nack : Bool) : State :=
  match s.sbus.cmd with
  | none => s
  | some (read, c) =>
    let s1 := ({ s with sbus := { s.sbus with cmd := none } }.setBit Reg.sbusStat 0).setBitIf nack Reg.sbusStat 1
    if read && !nack then s1.setRn Reg.sbusData (data % 256 ^ (bitsOf c 17 16 + 1)) else s1

def execSbusTransferDone (dt : Nat) (data : Nat) (nack : Bool) (s : State) : Host.Outcome State Fault Refusal :=
  done ((s.tick dt).sbusDone data nack)

/-- R266: the refresh interval follows the DIMM's temperature. -/
def State.dimmHot (s : State) (c : Nat) (hot : Bool) : State :=
  let on := hot && s.bit (Reg.mcRefresh c) 1
  let m := s.memChan c
  if m.hot = on then s else (s.setMemChan c { m with hot := on }).setBit (Reg.mcStat c) 8

/-- R266, R379: both sensors of the DIMM of channel `c` are read: the hotter one is shown; a DIMM that did not answer
three times counts as hot, and so does one whose DRAM devices ask for refresh at twice the rate. -/
def State.pollDimm (s : State) (c : Nat) (a b : Option Int) (fast : Bool) : State :=
  if !s.bit (Reg.mcRanks c) 31 then s
  else match [a, b].filterMap id with
  | [] =>
    let n := min 3 (mget s.sbus.fails c 0 + 1)
    let s1 := { s with sbus := { s.sbus with fails := mset s.sbus.fails c 0 n } }
    if n < 3 then s1.dimmHot c (fast || (s.memChan c).hot) else (s1.setBit Reg.sbusStat 2).dimmHot c true
  | l =>
    let t := l.foldl max (l.headD 0)
    let s1 := { s with sbus := { s.sbus with fails := mset s.sbus.fails c 0 0 } }
    let s2 := s1.setRn (Reg.sbusDimmT c) (toCode 16 t + 2 ^ 31)
    let h : Int := s.fld (Reg.mcRefresh c) 15 8 * 16
    if fast || h ≤ t then s2.dimmHot c true else if t ≤ h - 48 then s2.dimmHot c false else s2

/-- R379: the temperature poll of every DIMM. -/
def State.tempPoll (s : State) (temps : List (Option Int)) (fast : BitVec 8) : State :=
  if !s.bit Reg.sbusCtrl 19 then s
  else s.each (List.range 8) fun c s => s.pollDimm c (temps.getD (2 * c) none) (temps.getD (2 * c + 1) none) (fast.getLsbD c)

def execTempPoll (dt : Nat) (poll : DimmPoll) (s : State) : Host.Outcome State Fault Refusal :=
  done ((s.tick dt).tempPoll poll.temps poll.fast)

/-- R379: a PMIC's in-band interrupt. -/
def State.pmicAlert (s : State) (_dimm : Nat) : State := s.setBit Reg.sbusStat 3

def execPmicAlert (dt : Nat) (dimm : Fin 8) (s : State) : Host.Outcome State Fault Refusal := done ((s.tick dt).pmicAlert dimm)

/-! ### GPIO (R388) -/

/-- R388: the level a pin drives; none: an input, its level comes from outside. -/
def State.pinLevel (s : State) (p : Nat) : Option Bool :=
  match s.gpioFunc p with
  | 0 => if s.bit Reg.gpioDir p then some (s.bit Reg.gpioOut p) else none
  | 1 => none
  | 6 => some (!s.faultLow)
  | 7 => some (!s.outputs.mspiIrq)
  | _ => some (mget s.pulses p none).isSome

/-- R388: GPIO.IN; the levels of inputs are free. -/
def State.gpioIn (s : State) : Nat :=
  (List.range 16).foldl (fun m p => if (s.pinLevel p).getD (s.freeVal.testBit p) then m + 2 ^ p else m) 0

/-- R388: a rising edge on a pin that is a GPIO input. -/
def State.gpioEdge (s : State) (p : Nat) : State :=
  if s.gpioFunc p = 0 && !s.bit Reg.gpioDir p then s.setBit Reg.gpioIrq p else s

def execGpioEdge (dt : Nat) (pin : Fin 16) (s : State) : Host.Outcome State Fault Refusal := done ((s.tick dt).gpioEdge pin)

/-- R388: a pulse of a frame output (1 µs) or of PPS (100 µs) ends. -/
def State.pulseEnd (s : State) (p : Nat) : State :=
  match mget s.pulses p none with
  | none => s
  | some t =>
    if s.now < t + (if s.gpioFunc p = 8 then 100000 else 1000) then s
    else { s with pulses := mset s.pulses p none none, tx := s.tx ++ [.pulse p false] }

def execGpioPulseEnd (dt : Nat) (pin : Fin 16) (s : State) : Host.Outcome State Fault Refusal := done ((s.tick dt).pulseEnd pin)

end Sys2Proof.Machine
end

