-- ==== Sys2Proof/Machine/Tables.lean ====
section
/-! DEFINITION. The indirect windows of the coefficient, tone and encode LUT tables (R119-R122, R130, R150, R153-R157). -/
namespace Sys2Proof.Machine

/-- R122: a register as the frame of a canvas uses it. -/
def State.frameReg (s : State) (k : Comp) (off : Nat) : Nat :=
  (match k.slOld.find? fun (e : SlOld) => e.off = off && e.upTo = 2 ^ 20 with
    | some e => e.old
    | none => s.reg off).toNat

/-- Some lane of the frame a canvas composes, or composed last, satisfies `p`. -/
def State.anyLane (s : State) (p : Comp → Lane → Bool) : Bool :=
  [0, 1, 2, 3].any fun cv => match (s.cv cv).comp with
    | some k => k.lanes.any (p k)
    | none => false

/-- R46, R121: ENTRY of an index register advances under AUTOINC. -/
def State.advance (s : State) (idx : Nat) : State := if s.bit idx 16 then s.setFld idx 10 0 (s.fld idx 10 0 + 1) else s

/-- A window returns a value and its index advances. -/
def State.windowRead (s : State) (idx v : Nat) : State := { s with bus := [v] }.advance idx

/-- R121: whether a window may store: the bank is neither active nor pending nor in use, and the entry exists. -/
def mayStore (entry limit bank : Nat) (active pending : Nat) (inUse : Bool) : Bool :=
  entry ≤ limit && bank ≠ active && bank ≠ pending && !inUse

/-! ### Coefficient sets -/

/-- R122, R423: a bank of a coefficient set is in use by some lane; a SOLID lane uses none. -/
def State.coefInUse (s : State) (set bank : Nat) : Bool :=
  s.anyLane fun k l => l.set.fmt ≠ 0x1F && bitsOf (s.frameReg k (Reg.layScale l.layer)) 6 4 = set && bit01 k.coefBanks set = bank

/-- R121: a write to COEFn.DATA. -/
def State.writeCoef (s : State) (set : Nat) (v : Word) : State :=
  let i := Reg.coefIdx set
  let e := s.fld i 10 0
  let b := s.fld i 11 11
  let c := Reg.coefCtrl set
  if mayStore e 1791 b (s.fld c 0 0) ((s.sh c).toNat % 2) (s.coefInUse set b) then
    { s with coef := mset s.coef ((set * 2 + b) * 1792 + e) (coefDefault e) (v.toNat % 4096) }.advance i
  else s.violate (Reg.coefData set) 3

/-- R121: what COEFn.DATA reads. -/
def State.coefData (s : State) (set : Nat) : Nat :=
  let e := s.fld (Reg.coefIdx set) 10 0
  if 1791 < e then 0 else toCode 32 (s.coefAt set (s.fld (Reg.coefIdx set) 11 11) e)

/-- R119: some phase of a bank does not sum to 1,024. -/
def State.sumBad (s : State) (set bank : Nat) : Bool :=
  [(0, 8), (512, 8), (1024, 6), (1408, 4), (1664, 2)].any fun (base, taps) => (List.range 64).any fun p =>
    ((List.range taps).map fun k => s.coefAt set bank (base + p * taps + k)).foldl (· + ·) 0 ≠ 1024

/-- A flag as a bit. -/
def flag (b : Bool) (i : Nat) : Nat := if b then 2 ^ i else 0

/-- R130: COEFn.STAT. -/
def State.coefStatWord (s : State) (set : Nat) : Nat :=
  flag (s.sumBad set 0) 0 + flag (s.sumBad set 1) 1 + flag (s.coefInUse set 0) 2 + flag (s.coefInUse set 1) 3
    + flag (s.isPending (Reg.coefCtrl set)) 4

def execCoefDataWrite (dt : Nat) (_req : Nat) (set : Fin 8) (v : Word) (s : State) : Host.Outcome State Fault Refusal :=
  done ((s.tick dt).writeCoef set v)

def execCoefDataRead (dt : Nat) (_req : Nat) (set : Fin 8) (s : State) : Host.Outcome State Fault Refusal :=
  done ((s.tick dt).windowRead (Reg.coefIdx set) ((s.tick dt).coefData set))

/-! ### Tone sets and custom matrices -/

/-- R154: a bank of an object is in use: a tone set by a layer with TONE.MODE on, a matrix by MATRIX = 3 or by
GAMUT.SRC = 2. -/
def State.toneInUse (s : State) (obj bank : Nat) : Bool :=
  s.anyLane fun k l =>
    let g := fun off => s.frameReg k off
    let n := l.layer
    bit01 k.toneBanks obj = bank &&
      ((bitsOf (g (Reg.layTone n)) 1 0 ≠ 0 && bitsOf (g (Reg.layTone n)) 7 4 = obj) ||
       (bitsOf (g (Reg.layColour n)) 3 1 = 3 && 16 + bitsOf (g (Reg.layColour n)) 6 4 = obj) ||
       (bitsOf (g (Reg.layGamut n)) 1 0 = 2 && 16 + bitsOf (g (Reg.layGamut n)) 6 4 = obj))

/-- R154: the last entry of an object. -/
def toneLimit (obj : Nat) : Nat := if obj < 16 then 1024 else 11

/-- R121, R154: a write to TONE.DATA. -/
def State.writeTone (s : State) (v : Word) : State :=
  let j := s.fld Reg.toneSel 4 0
  let e := s.fld Reg.toneIdx 10 0
  let b := s.fld Reg.toneIdx 11 11
  if mayStore e (toneLimit j) b (s.fld Reg.toneBank j j) (bitsOf (s.sh Reg.toneBank).toNat j j) (s.toneInUse j b) then
    { s with tone := mset s.tone ((j * 2 + b) * 2048 + e) (toneDefault j e) (v.toNat % 2 ^ 20) }.advance Reg.toneIdx
  else s.violate Reg.toneData 3

/-- R156: what TONE.DATA reads. -/
def State.toneDataWord (s : State) : Nat :=
  let j := s.fld Reg.toneSel 4 0
  let e := s.fld Reg.toneIdx 10 0
  let x := s.toneAt j (s.fld Reg.toneIdx 11 11) e
  if toneLimit j < e then 0 else if j < 16 then x else toCode 32 (signedOf 20 x)

/-- R156: TONE.STAT. -/
def State.toneStatWord (s : State) : Nat :=
  let j := s.fld Reg.toneSel 4 0
  flag (s.toneInUse j 0) 0 + flag (s.toneInUse j 1) 1 + flag (s.isPending Reg.toneBank) 2
    + flag (j < 16 && s.knotsFall j (s.fld Reg.toneIdx 11 11)) 3

def execToneDataWrite (dt : Nat) (_req : Nat) (v : Word) (s : State) : Host.Outcome State Fault Refusal :=
  done ((s.tick dt).writeTone v)

def execToneDataRead (dt : Nat) (_req : Nat) (s : State) : Host.Outcome State Fault Refusal :=
  done ((s.tick dt).windowRead Reg.toneIdx (s.tick dt).toneDataWord)

/-! ### Encode LUTs -/

/-- R153: a bank of a canvas's encode LUT is in use. -/
def State.lutInUse (s : State) (cv bank : Nat) : Bool :=
  s.liveCv cv && (s.fld (Reg.cvcLutSel cv) 0 0 = bank || (s.cv cv).lutBusy.any (·.1 = bank))

/-- R153: a write to CVCn.LUT_DATA. -/
def State.writeLut (s : State) (cv : Nat) (v : Word) : State :=
  let i := Reg.cvcLutIdx cv
  let e := s.fld i 10 0
  let b := s.fld i 11 11
  let c := Reg.cvcLutSel cv
  if mayStore e 1024 b (s.fld c 0 0) ((s.sh c).toNat % 2) (s.lutInUse cv b) then
    { s with lut := mset s.lut ((cv * 2 + b) * 2048 + e) (lutRamp e) (v.toNat % 65536) }.advance i
  else s.violate (Reg.cvcLutData cv) 3

/-- R157: what CVCn.LUT_DATA reads. -/
def State.lutDataWord (s : State) (cv : Nat) : Nat :=
  let e := s.fld (Reg.cvcLutIdx cv) 10 0
  if 1024 < e then 0 else s.lutAt cv (s.fld (Reg.cvcLutIdx cv) 11 11) e

/-- R157: the status bits of CVCn.LUT_SEL. -/
def State.lutSelStat (s : State) (cv : Nat) : Nat :=
  flag (s.isPending (Reg.cvcLutSel cv)) 1 + flag (s.lutInUse cv 0) 2 + flag (s.lutInUse cv 1) 3

def execLutDataWrite (dt : Nat) (_req : Nat) (cv : Fin 4) (v : Word) (s : State) : Host.Outcome State Fault Refusal :=
  done ((s.tick dt).writeLut cv v)

def execLutDataRead (dt : Nat) (_req : Nat) (cv : Fin 4) (s : State) : Host.Outcome State Fault Refusal :=
  done ((s.tick dt).windowRead (Reg.cvcLutIdx cv) ((s.tick dt).lutDataWord cv))

end Sys2Proof.Machine
end

