-- ==== Sys2Proof/Machine/Bus.lean ====
section
/-! DEFINITION. Register accesses by offset, whoever the requester is: writes and reads of every page, LO and HI halves,
narrow accesses (R41-R51, R60, R62 and the field maps of every page). -/
namespace Sys2Proof.Machine

/-! ### Writes (R43, R46) -/

/-- R31, R46: a shadowed register of a held page. -/
def State.heldWrite (s : State) (off : Nat) (d : RegDef) : Bool := classOf d ≠ .im && s.pageHeld (off / 4096)

/-- R31, R46: a write to a held register is refused. -/
def State.refuseHeld (s : State) (off : Nat) : State := (s.violate off 2).setBit Reg.wardStat 4

/-- R46, R50: a write that is judged field by field. -/
def State.plainWrite (s : State) (off : Nat) (d : RegDef) (v : Word) (extra : Nat → Nat → Bool) : State :=
  if s.heldWrite off d then s.refuseHeld off else (s.land off d v extra).1

/-- No check beyond the field map. -/
def noExtra (_ _ : Nat) : Bool := false

/-- R43: a LO half is held until HI is written, and then both land. -/
def State.writeLo (s : State) (off : Nat) (d : RegDef) (v : Word) : State :=
  if s.heldWrite off d then s.refuseHeld off else { s with loHeld := mset s.loHeld off none (some v) }

def State.writeHi (s : State) (off : Nat) (d : RegDef) (v : Word) : State :=
  if s.heldWrite off d then s.refuseHeld off
  else
    let s1 := match mget s.loHeld (off - 4) none with
      | some lo => ({ s with loHeld := mdrop s.loHeld (off - 4) }.landAt (off - 4) lo).1
      | none => s
    (s1.land off d v noExtra).1

/-- R43: the register is the writable LO or HI half of a 64-bit quantity, or neither. -/
def State.writePair (s : State) (k : PageKind) (off : Nat) (d : RegDef) (v : Word) : State :=
  let o := off % 4096
  if pairLo k o then s.writeLo off d v
  else if pairLo k (o - 4) && 4 ≤ o then s.writeHi off d v
  else s.plainWrite off d v noExtra

/-- R43, R301: the value a LO half will have: what is held, or what it holds. -/
def State.loValue (s : State) (off : Nat) : Word := (mget s.loHeld off none).getD (s.reg off)

/-- R46, R172-R175: a write to LAMP.CKPT_CTRL: its plain fields are judged, NOW and RESTORE act; one whose RESTORE cannot
be carried out is discarded whole (R174). -/
def State.ckptWrite (s : State) (v : Word) : State :=
  let o := Reg.lampCkptCtrl
  if v.getLsbD 2 && s.restoreBlocked then s.violate o 3
  else
    let t := (s.landAt o (wput v 2 1 (s.fld o 2 1))).1
    (t.setReg o (s.reg o)).writeCkptCtrl (wput (t.reg o) 2 1 (bitsOf v.toNat 2 1))

/-- R345: a write to FAULT.CTRL: LT_NOW acts on a 1; LT_RESTORE is refused while a canvas is live, and otherwise asks for
the restore (LT_RESTORE), which clears it. -/
def State.faultCtrlWrite (s : State) (v : Word) : State :=
  let o := Reg.faultCtrl
  let ask := v.getLsbD 13 && !s.bit o 13
  if ask && s.anyLive then s.violate o 3
  else
    let s1 := ((s.landAt o (wput v 13 12 (s.fld o 13 12))).1).setBitIf ask o 13
    if v.getLsbD 12 && !s.bit o 12 then s1.ltNow else s1

/-- R345: a write to RES_BUDGET or RES_LEAK of the selected class; 0 is discarded. -/
def State.resWrite (s : State) (leak : Bool) (v : Word) : State :=
  let c := s.fld Reg.faultResSel 2 0
  let x := if leak then v.toNat % 2 ^ 20 else v.toNat % 2 ^ 16
  let off := if leak then Reg.faultResLeak else Reg.faultResBudget
  if x = (if leak then s.resLeak c else s.resBudget c) then s
  else if s.locked 0x004 then (s.violate off 1).lockViolation
  else if x = 0 then s.violate off 3
  else if leak then { s with faults := { s.faults with leaks := mset s.faults.leaks c ([86400, 60, 3600, 600, 86400, 3600, 10].getD c 0) x } }
  else { s with faults := { s.faults with budgets := mset s.faults.budgets c ([3, 256, 16, 8, 4, 4, 64].getD c 0) x } }

/-- R405: a doorbell: refused with OVERRUN while a request is served; it ends a wait for the host (R401), and a command the
Turnkey does not know is answered with UNKNOWN. -/
def State.doorbell (s : State) : State :=
  if s.bit Reg.mboxStat 31 then s.setBit Reg.mboxStat 2
  else
    let s0 := if s.fld Reg.mboxStat 23 16 = 6 then { s with turnkey := { s.turnkey with rung := true } } else s
    let s1 := s0.setBit Reg.mboxStat 31
    if [0x01, 0x02, 0x10, 0x11, 0x20, 0x21, 0x30].contains (s1.fld (Reg.mboxReq 0) 15 0) then s1 else s1.answer s1.mboxId 1 []

/-- R220, R226: a write to PRTn.LOOP; EN is discarded while the partner carries a canvas or has EN = 1; a write ends a split
service (R222); without a loop POS_T reads 255 (R229). -/
def State.loopWrite (s : State) (p : Nat) (d : RegDef) (v : Word) : State :=
  let q := v.toNat % 64
  let bad := (s.cvOfPort q).isSome || s.bit (Reg.prtLoop q) 8
  let s0 := s.plainWrite (Reg.prtLoop p) d v fun lo x => lo = 8 && x = 1 && bad
  let far := s0.tileList.filter fun x => x.2.given && x.2.port = p && x.2.posT ≠ 255
  let s1 := if s0.bit (Reg.prtLoop p) 8 then s0
    else s0.each (far.map (·.1)) fun n t => t.setTileHw n { (t.tile n) with posT := 255 }
  if s.bit (Reg.prtLoop p) 10 then s1
  else
    let mine := s1.tileList.filter fun x => x.2.given && x.2.port = p && x.2.serve
    let s2 := s1.each (mine.map (·.1)) fun n t => t.setTile n { (t.tile n) with serve := false }
    if (s2.prt p).broken.isSome then s2.setPrt p { (s2.prt p) with broken := none, wholeFrom := none } else s2

/-- R226: a write to PRTn.CTRL; a port that EN turns off loses its link. -/
def State.portCtrl (s : State) (p : Nat) (d : RegDef) (v : Word) : State :=
  let s1 := s.plainWrite (Reg.prtCtrl p) d v noExtra
  if s.bit (Reg.prtCtrl p) 0 && !s1.bit (Reg.prtCtrl p) 0 then s1.linkDown p else s1

/-- R233, R253: a write to LQq_CFG: LQ0 and LQ7 keep CLASS, LIMIT, SHAPED and PORT_SHAPED; on LQ1 to LQ6 CLASS is 1 or 2,
and their buffers together hold at most 48 KiB. -/
def State.lqWrite (s : State) (p q : Nat) (d : RegDef) (v : Word) : State :=
  let off := Reg.prtLqCfg p q
  let now := s.sh off
  if q = 0 || q = 7 then s.plainWrite off d (wput (wput now 15 8 (bitsOf v.toNat 15 8)) 7 2 0) fun lo x => lo = 8 && x = 0
  else
    let sum := [1, 2, 3, 4, 5, 6].foldl (fun n i => n + if i = q then bitsOf v.toNat 23 16 else bitsOf (s.sh (Reg.prtLqCfg p i)).toNat 23 16) 0
    if s.heldWrite off d then s.refuseHeld off
    else if 48 < sum then s.violate off 3
    else s.plainWrite off d v fun lo x => (lo = 0 && (x = 0 || x = 3)) || (lo = 8 && x = 0)

/-- R386: TUN_CMD sends one TUN_REQ; while one is in flight it is discarded. -/
def State.tunSend (s : State) (port : Nat) (read : Bool) : State :=
  if s.hasp.tunnel.isSome then s.setBit (Reg.haspStat port) 6
  else
    let id := s.hasp.tunId % 65536
    let a := s.rn (Reg.haspTunAddr 0)
    let body := beBytes 1 (bitsOf a 27 24) ++ beBytes 2 id ++ beBytes 1 (if read then 1 else 2) ++ beBytes 4 (bitsOf a 20 2 * 4)
      ++ beBytes 4 (if read then 0 else s.rn (Reg.haspTunData 0))
    { s with hasp := { s.hasp with
      tunnel := some ⟨port, id, read, s.now⟩
      tunId := (id + 1) % 65536 } }.haspSend 0x06 body

/-- R389: the registers common to both Hasp pages land on both. -/
def State.haspBoth (s : State) (off : Nat) (d : RegDef) (v : Word) : State :=
  let a := 0x18C000 + off % 4096
  let s1 := (s.land off d v noExtra).1
  (s1.setReg a (s1.reg off)).setReg (a + 4096) (s1.reg off)

/-- R388: a write to FUNC_LO or FUNC_HI: a second pin with code 1 or 6 is discarded. -/
def State.funcWrite (s : State) (hi : Bool) (off : Nat) (d : RegDef) (v : Word) : State :=
  let w := s.rn Reg.gpioFuncLo + s.rn Reg.gpioFuncHi * 2 ^ 32
  let base := if hi then 32 else 0
  let taken := fun (lo x : Nat) => (List.range 16).any fun p => 4 * p ≠ base + lo &&
    (if 4 * p / 32 = base / 32 then bitsOf v.toNat (4 * p % 32 + 3) (4 * p % 32) = x && 4 * p % 32 < lo ||
        (bitsOf w (4 * p + 3) (4 * p) = x && bitsOf v.toNat (4 * p % 32 + 3) (4 * p % 32) = x)
      else bitsOf w (4 * p + 3) (4 * p) = x)
  s.plainWrite off d v fun lo x => (x = 1 || x = 6) && taken lo x

/-- R361, R406 and the like: registers whose writes act beyond their field map, on the pages 0x000 to 0x008. -/
def State.writeLow (s : State) (k : PageKind) (off : Nat) (d : RegDef) (i : Nat) (v : Word) : State :=
  match k, d.off with
  | .dev, 0x04C => if v.getLsbD 0 then s.softReset else s
  | .latch, 0x040 => s.fireWrite v []
  | .latch, 0x060 => if s.heldMask.testBit i then s.violate off 2 else s.plainWrite off d v noExtra
  | .latch, 0x0A0 => if s.trigBlocked (Reg.latchTtCtrl i) 0 then s.violate off 2 else s.writeLo off d v
  | .latch, 0x0A4 => if s.trigBlocked (Reg.latchTtCtrl i) 0 then s.violate off 2 else s.writeHi off d v
  | .latch, 0x0A8 => s.writeTtCtrl i v
  | .latch, 0x0E0 => s.writeLt i v
  | .ward, 0x044 | .ward, 0x048 | .ward, 0x04C => s.writeReadmit off v
  | .keep, 0x040 => s.writeKeepCtrl v
  | .keep, 0x044 => s.writeVcommit v
  | .keep, 0x058 => s.writePlimit v
  | .keep, 0x084 => s.writeSchedData v
  | .fault, 0x040 => s.faultCtrlWrite v
  | .fault, 0x05C => s.resWrite false v
  | .fault, 0x060 => s.resWrite true v
  | .fault, 0x068 => s.faultRelease v
  | .time, 0x048 => s.writeLo off d v
  | .time, 0x04C => s.writeSet v
  | .time, 0x05C => s.writeZone v
  | .time, 0x068 => (s.landAt off v).1.elect
  | .pll, 0x040 => s.writePllCtrl i v
  | .pll, 0x044 => s.writePllProf i v
  | .pll, 0x048 => s.writePllDiv i v
  | .pll, 0x050 => s.writePllBand i v
  | .pll, 0x054 => s.writePllSpread i v
  | .mbox, 0x040 => if v.getLsbD 0 then s.doorbell else s
  | .mbox, 0x080 => if s.bit Reg.mboxStat 31 then s.setBit Reg.mboxStat 2 else s.plainWrite off d v noExtra
  | _, _ => s.writePair k off d v

/-- The same on the display and chain port pages. -/
def State.writeMid (s : State) (k : PageKind) (n : Nat) (off : Nat) (d : RegDef) (i : Nat) (v : Word) : State :=
  match k, d.off with
  | .cv, 0x05C => s.hingeStart n v
  | .cvc, 0x074 => s.writeLut n v
  | .coef, 0x048 => s.writeCoef n v
  | .tone, 0x048 => s.writeTone v
  | .tmb, 0x044 => if n = 8 then s.plainWrite off d v noExtra else s.violate off 3
  | .lamp, 0x05C => s.ckptWrite v
  | .prt, 0x040 => s.portCtrl n d v
  | .prt, 0x044 => s.plainWrite off d v fun lo x => lo = 3 && x = 1 && bitsOf v.toNat 1 0 ≠ 0
  | .prt, 0x050 => s.loopWrite n d v
  | .prt, 0x058 => s.writeGateData n v
  | .prt, 0x068 => if v.getLsbD 0 then s.gateLoad n else s
  | .prt, 0x070 => s.lqWrite n i d v
  | .prt, 0x094 => (s.setPrt n { (s.prt n) with police := some (s.policeBucket n) }).plainWrite off d v noExtra
  | .sched, 0x050 =>
    (s.each (List.range 64) fun p t => t.setPrt p { (t.prt p) with disc := some (t.discBucket p) }).plainWrite
      off d v noExtra
  | .sched, 0x058 => s.writeShaperData v
  | .sched, 0x05C => s.writeQsel v
  | .ttbl, 0x084 => s.ttblCmd v
  | _, _ => s.writePair k off d v

/-- R255, R282: a write to MCn.CTRL: WM_LOW stays below WM_HIGH; a channel without a supported DIMM stays disabled; the
refreshes of one that is enabled fall due from then on. -/
def State.mcCtrlWrite (s : State) (c off : Nat) (d : RegDef) (v : Word) : State :=
  let bad := bitsOf v.toNat 25 20 ≤ bitsOf v.toNat 31 26
  let v1 := if s.bit (Reg.mcRanks c) 31 then v else wput v 0 0 0
  let s1 := s.plainWrite off d v1 fun lo _ => (lo = 20 || lo = 26) && bad
  if s1.bit (Reg.mcCtrl c) 0 && !s.bit (Reg.mcCtrl c) 0 then s1.refreshAnew c else s1

/-- R302, R304: a write to a DMA channel's page; a withheld channel's discards it. -/
def State.dmaWrite (s : State) (c off : Nat) (d : RegDef) (v : Word) : State :=
  let run := s.dmaState c = 1 || s.dmaState c = 2
  if s.dmaState c = 3 then s.violate off 3
  else match d.off with
  | 0x040 =>
    let s1 := s.plainWrite off d v noExtra
    if s.bit off 0 && !s1.bit off 0 then s1.abort c else s1
  | 0x048 => if run then s.setBit (Reg.dmaStat c) 9 else s.writeLo off d v
  | 0x04C => if run then s.setBit (Reg.dmaStat c) 9 else s.writeHi off d v
  | 0x050 => if s.bit (Reg.dmaNextValid c) 0 then s.setBit (Reg.dmaStat c) 9 else s.writeLo off d v
  | 0x054 => { s with loHeld := mdrop s.loHeld (off - 4) }.writeNext c (s.loValue (off - 4)) v
  | 0x058 => s.writeNextValid c v
  | 0x064 => if v.getLsbD 0 then s.start c else s
  | 0x068 => if v.getLsbD 0 then s.abort c else s
  | 0x06C => s.plainWrite off d v fun lo x => lo = 0 && x = 3 && c < 56
  | _ => s.plainWrite off d v noExtra

/-- The same on the memory, DMA and port pages. -/
def State.writeHigh (s : State) (k : PageKind) (n : Nat) (off : Nat) (d : RegDef) (i : Nat) (v : Word) : State :=
  match k, d.off with
  | .mc, 0x040 => s.mcCtrlWrite n off d v
  | .mc, 0x048 => s.writeSpare n v
  | .mc, 0x04C => s.plainWrite off d v fun lo x => lo = 2 && (if v.getLsbD 0 then 8 else 4) < x
  | .mc, 0x050 => s.writeSrCtrl n v
  | .mem, 0x040 | .mem, 0x044 => s.writeMap off v
  | .mem, 0x048 => s.writeIlv i v
  | .mem, 0x058 => s.writeFspCtrl v
  | .mtrn, 0x040 => s.writeMtrnCtrl v
  | .mtrn, 0x054 => s.writeDly v
  | .mtrn, 0x058 => s.writeTrained v
  | .dmag, 0x040 => s.writeDmagCtrl v
  | .dmag, 0x04C => s.writeRsv v
  | .dma, _ => s.dmaWrite n off d v
  | .flow, 0x084 =>
    let s1 := if v.getLsbD 1 then s.flowWrite else s
    if v.getLsbD 0 then s1.flowRead else s1
  | .ptp, 0x040 =>
    let s1 := s.plainWrite off d v noExtra
    if s.bit off 0 && !s1.bit off 0 then s1.ptpStop else s1
  | .xspi, 0x044 => s.plainWrite off d v fun lo x => lo = 4 && 2 < x && bitsOf v.toNat 1 0 = 0
  | .xspi, 0x050 =>
    let act := fun (b : Nat) (f : State → State) (s : State) => if v.toNat.testBit b then f s else s
    act 3 State.flashRaw (act 2 State.flashErase (act 1 (fun t => t.flashCmd 1) (act 0 (fun t => t.flashRead []) s)))
  | .xspi, 0x058 => s.writeFlashData v
  | .sbus, 0x048 => if v.getLsbD 0 then s.sbusCmd true else if v.getLsbD 1 then s.sbusCmd false else s
  | .hasp, 0x054 | .hasp, 0x058 => s.haspBoth off d v
  | .hasp, 0x05C => if v.getLsbD 0 then s.tunSend n true else if v.getLsbD 1 then s.tunSend n false else s
  | .gpio, 0x04C => s.funcWrite false off d v
  | .gpio, 0x050 => s.funcWrite true off d v
  | _, _ => s.writePair k off d v

/-- R46: some field of the register takes a write. -/
def writable (d : RegDef) : Bool := d.fields.any fun f => f.acc ≠ .ro && f.acc ≠ .rc

/-- R46: the register is no RO register: a narrow write to it is refused. -/
def notReadOnly (d : RegDef) : Bool := d.fields.any fun f => f.acc ≠ .ro

/-- R363: an offset of the MSI-X table: its word. -/
def msixIndex (off : Nat) : Option Nat := if 0x188800 ≤ off && off < 0x189000 then some ((off - 0x188800) / 4) else none

/-- R41, R44-R46: a write of a whole word by a requester, at an offset aligned to 4. -/
def State.writeWord (s : State) (off : Nat) (v : Word) : State :=
  match pageKind (off / 4096) with
  | none => s.setBit Reg.devStat 1
  | some (k, n) =>
    let o := off % 4096
    if o < 0x020 then
      (if o = 0x00C then s.writePgLock (off / 4096) v else if o = 0x018 then s.writePgLatch (off / 4096) v else s)
    else if o < 0x040 then { s with testCtl := mset s.testCtl off 0 v }
    else match msixIndex off with
      | some j => { s with pcie := { s.pcie with table := mset s.pcie.table j (if j % 4 = 3 then 1 else 0) v } }
      | none =>
        match findReg (regDefs k) o with
        | none => if off / 16 = 0x18860 then s else s.setBit Reg.devStat 1
        | some (d, i) =>
          if !writable d then s
          else if off / 4096 < 0x010 then s.writeLow k off d i v
          else if off / 4096 < 0x100 then s.writeMid k n off d i v
          else s.writeHigh k n off d i v

/-- R42, R46: whether a narrow write at an offset is refused: it is to a register that is not read-only. -/
def narrowRefused (off : Nat) : Bool :=
  match pageKind (off / 4096) with
  | none => false
  | some (k, _) =>
    let o := off % 4096
    if o < 0x020 then [0x00C, 0x010, 0x014, 0x018].contains (o / 4 * 4)
    else if o < 0x040 then true
    else if (msixIndex off).isSome then true
    else match findReg (regDefs k) (o / 4 * 4) with
      | none => false
      | some (d, _) => notReadOnly d

/-- R42: a write of `size` bytes at an offset; one of 8 bytes is carried out as two, lower address first. -/
def State.busWrite (s : State) (off size : Nat) (d : BitVec 64) : State :=
  let a := wordOf off
  let v : Word := d.setWidth 32
  if size = 4 then s.writeWord a v
  else if size = 8 then (s.writeWord a v).writeWord (a + 4) ((d >>> 32).setWidth 32)
  else if narrowRefused a then s.violate a 4
  else s.writeWord a v

/-! ### Reads (R41-R43, R47) -/

/-- Flags in a word. -/
def orBit (w b : Nat) (c : Bool) : Nat := if c then w ||| 2 ^ b else w

/-- R47, R60: what a read of a register returns, and the state after what the read moves on. -/
def State.readLow (s : State) (k : PageKind) (d : RegDef) (i : Nat) (w req : Nat) : State × Nat :=
  match k, d.off with
  | .dev, 0x054 => (s, s.irqStat)
  | .latch, 0x050 => (s, s.heldMask % 65536)
  | .latch, 0x054 => (s, s.pendMask % 65536)
  | .ward, 0x0C8 => (s, s.portUtil (s.fld Reg.wardPortSel 5 0) % 1024)
  | .keep, 0x084 => (s, s.schedData)
  | .fault, 0x050 => (s, s.jrnlData)
  | .fault, 0x058 => (s, s.resCntWord)
  | .fault, 0x05C => (s, s.resBudget (s.fld Reg.faultResSel 2 0))
  | .fault, 0x060 => (s, s.resLeak (s.fld Reg.faultResSel 2 0))
  | .fault, 0x064 => (s, s.faultSpareMap)
  | .fault, 0x068 => (s, orBit w 31 s.faultLow)
  | .time, 0x040 => (s, s.now % 2 ^ 32)
  | .time, 0x044 => (s, s.now / 2 ^ 32)
  | .time, 0x060 => ({ s with tbase := { s.tbase with snaps := mset s.tbase.snaps req none (some s.calTime) } }, s.calDate)
  | .time, 0x064 =>
    match mget s.tbase.snaps req none with
    | some t => ({ s with tbase := { s.tbase with snaps := mdrop s.tbase.snaps req } }, t)
    | none => (s, s.calTime)
  | .pll, 0x044 => (s, s.profWord i (s.fld (Reg.pllCtrl i) 1 0))
  | .pll, 0x048 => (s, s.divWord i)
  | .pll, 0x050 => (s, s.bandWordOf i (s.fld (Reg.pllCtrl i) 1 0))
  | .sens, 0x048 => (s, s.tjVal)
  | _, _ => (s, w)

def State.readMid (s : State) (k : PageKind) (n : Nat) (d : RegDef) (w : Nat) : State × Nat :=
  match k, d.off with
  | .cv, 0x06C =>
    let g := (s.cv n).gen
    (s, orBit (orBit (orBit w 29 (g = .run || g = .priming)) 30 (g = .reconfig || g = .priming)) 31 (s.cv n).locked)
  | .cvc, 0x074 => (s.advance (Reg.cvcLutIdx n), s.lutDataWord n)
  | .cvc, 0x078 => (s, w ||| s.lutSelStat n)
  | .coef, 0x048 => (s.advance (Reg.coefIdx n), s.coefData n)
  | .coef, 0x04C => (s, s.coefStatWord n)
  | .tone, 0x048 => (s.advance Reg.toneIdx, s.toneDataWord)
  | .tone, 0x050 => (s, s.toneStatWord)
  | .lay, 0x0B0 => (s, orBit w 31 (if n < 32 then s.bit Reg.wardShedLo n else s.bit Reg.wardShedHi (n - 32)))
  | .tmb, 0x040 => (s, orBit w 4 (n = 8 && s.sparing))
  | .tmb, 0x050 => (s, if n = 8 then w else 0)
  | .vault, 0x054 => (s, s.vaultSpareMap)
  | .vault, 0x060 => (s, orBit w 30 (!s.vault.moves.isEmpty))
  | .prt, 0x04C => (s, s.linkWord n)
  | .prt, 0x058 => (s.gateAdvance n, s.gateData n)
  | .prt, 0x068 => (s, if (s.prt n).takeover.isSome then 2 ^ 31 else 0)
  | .sched, 0x058 => (s, s.shaperData)
  | .sched, 0x060 => (s, s.qsample)
  | .ttbl, 0x088 => (s, orBit w 31 s.ttblBusy)
  | .ttbl, 0x08C => (s, s.conflictWord)
  | _, _ => (s, w)

def State.readHigh (s : State) (k : PageKind) (d : RegDef) (w : Nat) : State × Nat :=
  match k, d.off with
  | .mtrn, 0x054 => (s, mget s.mem.dly s.dlyKey 0)
  | .xspi, 0x054 => (s, orBit w 31 s.flashHeld)
  | .xspi, 0x058 => s.flashData
  | .sbus, 0x044 => (s, orBit w 31 s.sbus.cmd.isSome)
  | .gpio, 0x048 => (s.drawn, s.gpioIn)
  | _, _ => (s, w)

/-- R47, R50: what a read of the register at an offset returns, before any RC bit clears. -/
def State.readValue (s : State) (k : PageKind) (n off : Nat) (d : RegDef) (i req : Nat) : State × Nat :=
  let w := s.storedWord off d
  if k = .vault && d.off = 0x044 then (s, s.bankWord i)
  else if off / 4096 < 0x010 then s.readLow k d i w req
  else if off / 4096 < 0x100 then s.readMid k n d w
  else s.readHigh k d w

/-- R44, R47: a read of a header register; the test controls read as anything (R45). -/
def State.readHeader (s : State) (off : Nat) : State × Nat :=
  let o := off % 4096
  if o < 0x020 then
    let w := s.rn off
    (if headerRc o = 0 then s else s.setRn off (w &&& (0xFFFFFFFF ^^^ headerRc o)), w)
  else (s.drawn, s.freeVal % 2 ^ 32)

/-- The key of a requester's snapshot of a HI half. -/
def snapKey (req off : Nat) : Nat := req * 2 ^ 24 + off

/-- R41-R43, R47: a read of a whole word by a requester, at an offset aligned to 4. -/
def State.readWord (s : State) (req off : Nat) : State × Nat :=
  match pageKind (off / 4096) with
  | none => (s.setBit Reg.devStat 1, 0)
  | some (k, n) =>
    let o := off % 4096
    if o < 0x040 then s.readHeader off
    else match msixIndex off with
      | some j => (s, s.msixWord j)
      | none =>
        match findReg (regDefs k) o with
        | none => if off / 16 = 0x18860 then (s, (s.pcie.pba >>> (8 * (off % 16))) % 2 ^ 32) else (s.setBit Reg.devStat 1, 0)
        | some (d, i) =>
          match mget s.hiSnap (snapKey req off) none with
          | some w => ({ s with hiSnap := mdrop s.hiSnap (snapKey req off) }, w.toNat)
          | none =>
            let (s1, v) := s.readValue k n off d i req
            let s2 := if pairLo k o then
                match findReg (regDefs k) (o + 4) with
                | some (e, j) =>
                  let hi := (s1.readValue k n (off + 4) e j req).2
                  { s1 with hiSnap := mset s1.hiSnap (snapKey req (off + 4)) none (some (BitVec.ofNat 32 hi)) }
                | none => s1
              else s1
            (s2.clearRc off d, v)

/-- R42: a read of `size` bytes: the addressed byte lanes, with the full effect of the read; one of 8 bytes is carried out
as two, lower address first. -/
def State.busRead (s : State) (req off size : Nat) : State × Nat :=
  let (t, w) := s.readWord req (wordOf off)
  if size = 8 then
    let (t2, hi) := t.readWord req (wordOf off + 4)
    (t2, w + hi * 2 ^ 32)
  else (t, lanes w off size)

/-! ### The commands -/

/-- R41-R50: a register write by a requester. -/
def State.request (s : State) (req off size : Nat) (v : BitVec 64) : State :=
  if s.peerRefused req then { s with bus := [] } else s.busWrite off size v

def execRegisterWrite (dt : Nat) (req off size : Nat) (v : BitVec 64) (s : State) : Host.Outcome State Fault Refusal :=
  done ((s.tick dt).request req off size v)

/-- R41-R43, R47: a register read by a requester; the value goes back on the bus. -/
def State.query (s : State) (req off size : Nat) : State :=
  if s.peerRefused req then { s with bus := [] }
  else
    let (t, w) := s.busRead req off size
    { t with bus := [w] }

def execReadClear (dt : Nat) (req off size : Nat) (s : State) : Host.Outcome State Fault Refusal :=
  done ((s.tick dt).query req off size)

/-- R44: a write to the PG_LOCK of a page. -/
def execPgLockWrite (dt : Nat) (_req page : Nat) (v : Word) (s : State) : Host.Outcome State Fault Refusal :=
  done ((s.tick dt).writeWord (pgLock page) v)

/-- R51: a write to the PG_LATCH of a page. -/
def execPgLatchWrite (dt : Nat) (_req page : Nat) (v : Word) (s : State) : Host.Outcome State Fault Refusal :=
  done ((s.tick dt).writeWord (pgLatch page) v)

/-- R386: HASP TUN_CMD.READ and TUN_CMD.WRITE. -/
def execTunRead (dt : Nat) (_req : Nat) (port : Fin 2) (s : State) : Host.Outcome State Fault Refusal :=
  done ((s.tick dt).tunSend port true)

def execTunWrite (dt : Nat) (_req : Nat) (port : Fin 2) (s : State) : Host.Outcome State Fault Refusal :=
  done ((s.tick dt).tunSend port false)

end Sys2Proof.Machine
end

