-- ==== Sys2Proof/Machine/Host.lean ====
section
/-! DEFINITION. What reaches the block from its hosts beside register accesses of one word: PCIe configuration requests, the
BAR2 window, the management SPI commands and Hasp tunnels (R363-R366, R386, R394). Requesters are numbered 0 the host
through PCIe, 1 the management SPI, 2 the Turnkey, 16 + p the tunnels of ring position p, 256 + b a PCIe bus b other than
0. -/
namespace Sys2Proof.Machine

/-! ### PCIe configuration space (R363, R394; notes/assumptions/96) -/

/-- R364: the size that the host has selected for BAR2, as 1 GiB × 2^value. -/
def State.bar2Sel (s : State) : Nat := s.fld Reg.pcieStat 15 12

/-- R364: the bits of a BAR register that hold an address, and its read-only low bits. -/
def State.barBits (s : State) (off : Nat) : Nat × Nat :=
  match off with
  | 0x10 => (0xFFE00000, 0x4)
  | 0x18 => (0x100000000 - min (2 ^ (30 + s.bar2Sel)) 0x100000000, 0xC)
  | 0x1C => (0x100000000 - max 1 (2 ^ (30 + s.bar2Sel) / 2 ^ 32), 0)
  | 0x20 => (0xE0000000, 0xC)
  | 0x14 | 0x24 => (0xFFFFFFFF, 0)
  | _ => (0, 0)

/-- A configuration register that has been written. -/
def State.cfgWord (s : State) (off : Nat) : Nat := (mget s.pcie.cfg off 0).toNat
def State.setCfg (s : State) (off v : Nat) : State := { s with pcie := { s.pcie with cfg := mset s.pcie.cfg off 0 (BitVec.ofNat 32 v) } }

/-- R363, R364: a read of a configuration register; what the spec does not place reads free. -/
def State.cfgRead (s : State) (off : Nat) : State × Nat :=
  if off = 0x00 then (s, 0x82401F3C)
  else if off = 0x04 then (s, 0x00100000 ||| s.cfgWord 4)
  else if off = 0x08 then (s, 0x048000B0)
  else if 0x10 ≤ off && off < 0x28 then
    let (m, low) := s.barBits off
    (s, (s.cfgWord off &&& m) ||| low)
  else if off = Config.capAt 0 then
    (s.drawn, 0x007F0011 + s.freeVal % 256 * 256 + (if s.pcie.msixMask then 2 ^ 30 else 0) + (if s.pcie.msixOn then 2 ^ 31 else 0))
  else if off = Config.capAt 1 then (s, 0x22 + (10 + s.bar2Sel) * 256)
  else (s.drawn, s.freeVal % 2 ^ 32)

/-- R363, R364: a write of a configuration register: memory space and bus master enables, the BARs, MSI-X, the size of
BAR2, which is one that BAR2_SIZE.MAX offers. -/
def State.cfgWrite (s : State) (off : Nat) (v : Word) : State :=
  if off = 0x04 then (s.setCfg off (v.toNat % 8 / 2 * 2)).setFld Reg.pcieStat 16 16 (bitsOf v.toNat 2 2)
  else if 0x10 ≤ off && off < 0x28 then s.setCfg off (v.toNat &&& (s.barBits off).1)
  else if off = Config.capAt 0 then { s with pcie := { s.pcie with msixMask := v.getLsbD 30, msixOn := v.getLsbD 31 } }
  else if off = Config.capAt 1 then
    let n := bitsOf v.toNat 13 8
    if 10 ≤ n && n ≤ 10 + s.fld Reg.pcieBar2Size 3 0 then s.setFld Reg.pcieStat 15 12 (n - 10) else s
  else s

/-- R394: a configuration request; until READY it gets retry status, and the bus carries no data. -/
def State.cfgRequest (s : State) (off : Nat) (data : Option Word) : State :=
  if !s.bit Reg.pcieStat 9 then { s with bus := [] }
  else match data with
  | some v => { s.cfgWrite (off / 4 * 4) v with bus := [] }
  | none =>
    let (t, w) := s.cfgRead (off / 4 * 4)
    { t with bus := [w] }

def execConfigurationRequest (dt : Nat) (off : Nat) (data : Option Word) (s : State) : Host.Outcome State Fault Refusal :=
  done ((s.tick dt).cfgRequest off data)

/-! ### DRAM through a host port -/

/-- R273, R364: bytes of memory as a host reads them: 0 where unmapped, free where the burst is poisoned. -/
def State.hostRead (s : State) (a n : Nat) : State × List Byte :=
  let bad := s.anyPoison a n
  let l := (List.range n).map fun i =>
    if s.burstPoisoned (a + i) then BitVec.ofNat 8 (s.freeVal / 256 ^ i) else s.rdByte0 (a + i)
  (if bad then (s.reportRead a n).drawn else s.reportRead a n, l)

/-- R364: the memory address that an offset of the BAR2 window reaches. -/
def State.bar2Addr (s : State) (off : Nat) : Nat :=
  (s.fld Reg.pcieBar2Size 18 8 * 2 ^ 30 / 2 ^ (30 + s.bar2Sel) * 2 ^ (30 + s.bar2Sel) + off) % 2 ^ 41

/-- R272, R353: while memory stands still the requests of a host wait at their channels; what a read returns comes with its
command slot. -/
def State.hostWaits (s : State) (a len : Nat) (data : Option (List Byte)) : State :=
  (burstSplit (len / 64 + 2) a len).foldl (fun s x => s.memRequest 7 x.1 (data.map fun l => sliceB l (x.1 - a) x.2)) { s with bus := [] }

/-- R364: a request to the BAR2 window: on the bus, a flag that is 1 with the EP bit, and the bytes read. -/
def State.bar2 (s : State) (req off : Nat) (data : Option (List Byte)) (len : Nat) : State :=
  if s.peerRefused req || 2 ^ (30 + s.bar2Sel) ≤ off then { s with bus := [] }
  else
    let a := s.bar2Addr off
    if s.memStill then s.hostWaits a ((data.map List.length).getD len) data
    else match data with
    | some l => { s.wrBytes a l with bus := [] }
    | none =>
      let (t, l) := s.hostRead a len
      let bad := s.anyPoison a len
      let t1 := if bad then t.incr Reg.pcieAerCnt else t
      { t1 with bus := (if bad then 1 else 0) :: l.map BitVec.toNat }

def execBar2Access (dt : Nat) (req off : Nat) (data : Option (List Byte)) (len : Nat) (s : State) : Host.Outcome State Fault Refusal :=
  done ((s.tick dt).bar2 req off data len)

/-! ### Management SPI (R366) -/

/-- R366: the whole 4-byte words of what the host sends, most significant byte first. -/
def spiWords (l : List Byte) : List Word := (List.range (l.length / 4)).map fun i => BitVec.ofNat 32 (beAt l (4 * i) 4)

/-- R366: WRITE_REG: the words go to successive register offsets. -/
def State.spiWrite (s : State) (addr : Nat) (l : List Byte) : State :=
  ((spiWords l).zipIdx).foldl (fun s x => s.busWrite ((addr / 4 * 4 + 4 * x.2) % 2 ^ 24) 4 (x.1.setWidth 64)) s

def execWriteReg (dt : Nat) (addr : Nat) (data : List Byte) (_clkMHz : Nat) (s : State) : Host.Outcome State Fault Refusal :=
  done ((s.tick dt).spiWrite addr data)

/-- R366: READ_REG: the words of successive register offsets. -/
def State.spiRead (s : State) (addr words : Nat) : State :=
  (List.range words).foldl (fun s i =>
    let (t, w) := s.busRead mspiReq ((addr / 4 * 4 + 4 * i) % 2 ^ 24) 4
    { t with bus := s.bus ++ [w] }) { s with bus := [] }

def execReadReg (dt : Nat) (addr words : Nat) (s : State) : Host.Outcome State Fault Refusal := done ((s.tick dt).spiRead addr words)

/-- R366: WRITE_MEM and READ_MEM, which MEM_EN = 0 turns away with BAD_CMD. -/
def State.spiWriteMem (s : State) (addr : Nat) (l : List Byte) : State :=
  if !s.bit Reg.mspiCtrl 0 then s.setBit Reg.mspiStat 1
  else if s.memStill then s.hostWaits (addr / 4 * 4 % 2 ^ 41) (l.length / 4 * 4) (some ((spiWords l).flatMap fun w => leBytes 4 w.toNat))
  else ((spiWords l).zipIdx).foldl (fun s x => s.wrBytes ((addr / 4 * 4 + 4 * x.2) % 2 ^ 41) (leBytes 4 x.1.toNat)) s

def execWriteMem (dt : Nat) (addr : Nat) (data : List Byte) (s : State) : Host.Outcome State Fault Refusal :=
  done ((s.tick dt).spiWriteMem addr data)

def State.spiReadMem (s : State) (addr words : Nat) : State :=
  if !s.bit Reg.mspiCtrl 0 then { s with bus := [] }.setBit Reg.mspiStat 1
  else if s.memStill then s.hostWaits (addr / 4 * 4 % 2 ^ 41) (4 * words) none
  else (List.range words).foldl (fun s i =>
    let (t, l) := s.hostRead ((addr / 4 * 4 + 4 * i) % 2 ^ 41) 4
    { t with bus := s.bus ++ [ofLe l] }) { s with bus := [] }

def execReadMem (dt : Nat) (addr words : Nat) (s : State) : Host.Outcome State Fault Refusal := done ((s.tick dt).spiReadMem addr words)

/-- R366: READ_STAT: READY, an interrupt routed to the management SPI, an error in MSPI.STAT. -/
def State.spiStat (s : State) : Nat :=
  (if s.bit Reg.pcieStat 9 then 1 else 0) + (if s.outputs.mspiIrq then 2 else 0) + (if s.anyBit Reg.mspiStat 3 then 4 else 0)

def execReadStat (dt : Nat) (s : State) : Host.Outcome State Fault Refusal :=
  done { s.tick dt with bus := [(s.tick dt).spiStat] }

/-- R366: CS rises after `bits` bits of data; a word cut short is discarded. -/
def State.csHigh (s : State) (bits : Nat) : State := s.setBitIf (bits % 32 ≠ 0) Reg.mspiStat 0

def execMspiCsHigh (dt : Nat) (bits : Nat) (s : State) : Host.Outcome State Fault Refusal := done ((s.tick dt).csHigh bits)

/-! ### Tunnels (R386) -/

/-- R386: whether the page of an offset has a refused write to report. -/
def State.violated (s : State) (off : Nat) : Bool := s.bit (pgViol (off / 4096)) 31

/-- R386: serve a tunnelled access: the state, STATUS and the data read. A write that is refused answers STATUS 2. -/
def State.tunServe (s : State) (src op off : Nat) (v : Word) : State × Nat × Nat :=
  let a := off % 2 ^ 21
  if op = 1 then
    let (t, w) := s.busRead (tunnelReq src) a 4
    (t, 0, w)
  else
    let p := pgViol (a / 4096)
    let refused := ((s.clrBit p 31).busWrite a 4 (v.setWidth 64)).violated a
    (s.busWrite a 4 (v.setWidth 64), if refused then 2 else 0, 0)

/-- R386: a TUN_REQ arrives on a port. -/
def State.onTunReq (s : State) (p : Nat) (f : List Byte) : State :=
  match s.haspReceive p f 0 with
  | (s1, some h) =>
    if h.type = 6 && beAt h.body 0 1 = s1.ringPos then
      let (s2, st, w) := if s1.bit (Reg.haspCtrl p) 1 then
          s1.tunServe h.src (beAt h.body 3 1) (beAt h.body 4 4) (BitVec.ofNat 32 (beAt h.body 8 4))
        else (s1, 1, 0)
      s2.haspSend 0x07 (beBytes 1 h.src ++ beBytes 2 (beAt h.body 1 2) ++ beBytes 1 st ++ beBytes 4 w)
    else s1
  | (s1, none) => s1

def execTunReq (dt : Nat) (port : Fin 2) (frame : List Byte) (s : State) : Host.Outcome State Fault Refusal :=
  done ((s.tick dt).onTunReq port frame)

/-- R386: a TUN_RSP arrives; the one in flight ends in TDONE, and a read leaves its data. -/
def State.onTunRsp (s : State) (p : Nat) (f : List Byte) : State :=
  match s.haspReceive p f 0 with
  | (s1, some h) =>
    match s1.hasp.tunnel with
    | some t =>
      if h.type = 7 && beAt h.body 0 1 = s1.ringPos && beAt h.body 1 2 = t.id then
        let s2 := { s1 with hasp := { s1.hasp with tunnel := none } }.setBit (Reg.haspStat t.page) 4
        if t.read && beAt h.body 3 1 = 0 then
          (s2.setRn (Reg.haspTunData 0) (beAt h.body 4 4)).setRn (Reg.haspTunData 1) (beAt h.body 4 4)
        else s2
      else s1
    | none => s1
  | (s1, none) => s1

def execTunRsp (dt : Nat) (port : Fin 2) (frame : List Byte) (s : State) : Host.Outcome State Fault Refusal :=
  done ((s.tick dt).onTunRsp port frame)

/-- R386: no reply has come within 100 µs. -/
def State.tunTimeout (s : State) (p : Nat) : State :=
  match s.hasp.tunnel with
  | some t =>
    if t.page = p && t.sentAt + 100000 ≤ s.now then
      { s with hasp := { s.hasp with tunnel := none } }.setBit (Reg.haspStat p) 5
    else s
  | none => s

def execTunnelTimeout (dt : Nat) (port : Fin 2) (s : State) : Host.Outcome State Fault Refusal :=
  done ((s.tick dt).tunTimeout port)

end Sys2Proof.Machine
end

