-- ==== Sys2Proof/Machine/Standalone.lean ====
section
/-! DEFINITION. What the Turnkey puts on the wall by itself: register scripts, the auto-map, the default canvas with its
content, the follow-up of the wear restore, and the commands that start, change and end it (R396, R401-R405). -/
namespace Sys2Proof.Machine

/-! ### The Turnkey's register writes (R393, R396) -/

/-- R396: a register write of the Turnkey; it passes through every lock, hold and Ward rule. -/
def State.tk (s : State) (off v : Nat) : State := s.busWrite off 4 (BitVec.ofNat 64 (v % 2 ^ 32))

/-- R43: a 64-bit quantity: LO, then HI. -/
def State.tk64 (s : State) (lo v : Nat) : State := (s.tk lo (v % 2 ^ 32)).tk (lo + 4) (v / 2 ^ 32)

/-- Writes in order. -/
def State.tkAll (s : State) (l : List (Nat × Nat)) : State := l.foldl (fun s x => s.tk x.1 x.2) s

/-- R396: the entries of a script, run in order up to an END. -/
def runScript : List (Nat × Nat) → State → State
  | [], s => s
  | (w, v) :: r, s =>
    match w / 2 ^ 28 with
    | 0 => runScript r (s.tk (w % 2 ^ 21) v)
    | 2 => runScript r (s.busRead turnkeyReq (w % 2 ^ 21) 4).1
    | 3 => s
    | _ => runScript r s

/-- R396: the entries of a SCRIPT section. -/
def scriptOf (b : List Byte) : List (Nat × Nat) := (List.range (b.length / 8)).map fun i => (leAt b (8 * i) 4, leAt b (8 * i + 4) 4)

/-- R396: the scripts with a value of FLAGS[0], in table order. -/
def State.runScripts (s : State) (early : Nat) : State :=
  ((s.sectionsOf 1).filter fun x => x.flags % 2 = early).foldl (fun s x => runScript (scriptOf x.bytes) s) s

/-! ### The auto-map (R402) -/

/-- R402: the rows: the tiles of each enumerated head port in POS order. -/
def State.mapRows (s : State) : List (List (Nat × Tile)) :=
  let ports := (List.range 64).filter s.turnkey.taken.contains
  let row := fun p =>
    let l := s.tileList.filter fun x => x.2.given && x.2.port = p
    (List.range 256).flatMap fun pos => l.filter fun x => x.2.pos = pos
  (ports.map row).filter fun r => !r.isEmpty

/-- R402: a row's width and height. -/
def rowWidth (r : List (Nat × Tile)) : Nat := r.foldl (fun n x => n + x.2.w) 0
def rowHeight (r : List (Nat × Tile)) : Nat := r.foldl (fun n x => max n x.2.h) 0

/-- R402: the canvas that some rows give. -/
def mapSize (l : List (List (Nat × Tile))) : Nat × Nat := (l.foldl (fun n r => max n (rowWidth r)) 0, l.foldl (fun n r => n + rowHeight r) 0)

/-- R5, R402: the rows that fit the size limits and the vault, from the top. -/
def State.fitRows (s : State) (l : List (List (Nat × Tile))) : List (List (Nat × Tile)) :=
  let fits := fun n => let z := mapSize (l.take n); z.1 ≤ 32768 && z.2 ≤ 16384 && 8 * z.1 * z.2 + s.lostBank ≤ 503316480
  l.take (((List.range (l.length + 1)).reverse.find? fits).getD 0)

/-- R402: where a row puts its tiles, from the left; a COMMISSION record overrides X, Y and ORIENT. -/
def State.rowPlaces (s : State) (y : Nat) : Nat → List (Nat × Tile) → List (Nat × Placement)
  | _, [] => []
  | x, t :: r =>
    let pl : Placement := match s.commission t.2.id with
      | some c => ⟨0, true, leAt c 8 2, leAt c 10 2, leAt c 12 1 % 8⟩
      | none => ⟨0, true, x, y, 0⟩
    (t.1, pl) :: s.rowPlaces y (x + t.2.w) r

def State.mapPlaces (s : State) : Nat → List (List (Nat × Tile)) → List (Nat × Placement)
  | _, [] => []
  | y, r :: l => s.rowPlaces y 0 r ++ s.mapPlaces (y + rowHeight r) l

/-- R159, R402: PIX_BASE in ascending order of tile numbers, each tile after the one before. -/
def pixBases : Nat → List (Nat × Tile) → List (Nat × Nat)
  | _, [] => []
  | b, t :: r => (t.1, b) :: pixBases (b + t.2.w * t.2.h) r

/-- R402: rounded up to 64 KiB. -/
def align64k (n : Nat) : Nat := cdiv n 65536 * 65536

/-- R402: the bytes of the calibration table, the wear table's address and that of the content library. -/
def State.calBytes (s : State) : List Byte := (s.sectionsOf 4).flatMap (·.bytes)
def State.wearAt (s : State) : Nat := align64k s.calBytes.length
def State.libraryAt (s : State) : Nat := align64k (s.wearAt + 8 * s.nTab)

/-- R159: the wear region of a number that another tile has taken is cleared. -/
def State.clearReplaced (s : State) (n : Nat) : State :=
  let t := s.tile n
  let s1 := if t.wornBy = 0 || t.wornBy = t.id then s
    else s.wrBytes (s.wearAt + 8 * t.pixBase) (List.replicate (8 * t.w * t.h) 0)
  s1.setTile n { t with wornBy := t.id }

/-- R402: the auto-map: placements, PIX_BASE, and event 4 where rows are dropped. -/
def State.autoMap (s : State) : State :=
  let all := s.mapRows
  let rows := s.fitRows all
  let s1 := (pixBases 0 (s.tileList.filter (·.2.given))).foldl (fun t x => t.setTile x.1 { (t.tile x.1) with pixBase := x.2 }) s
  let s2 := (s.mapPlaces 0 rows).foldl (fun t x => t.setTile x.1 (t.placeTile (t.tile x.1) x.2)) s1
  let s3 := ((all.drop rows.length).flatten.map (·.1)).foldl (fun s n =>
    let t := s.tile n
    s.setTile n (s.placeTile t ⟨t.cv, false, t.x, t.y, t.orient⟩)) s2
  let given := (s.tileList.filter fun x => x.2.given).map fun x => x.1
  let s4 := State.each { s3 with ttblAt := some s3.now } given fun n s => s.clearReplaced n
  if rows.length < all.length then s4.notify 4 else s4

/-- R402, R403: the canvas of the auto-map. -/
def State.mapCanvas (s : State) : Nat × Nat := mapSize (s.fitRows s.mapRows)

/-! ### Tables and content in DRAM (R402, R403) -/

/-- R396: a content item: format, size, pitch, DURATION and its planes. -/
structure Content where
  fmt   : Nat
  w     : Nat
  h     : Nat
  pitch : Nat
  ms    : Nat
  data  : List Byte

/-- R396: the items of the image. -/
def State.contents (s : State) : List Content :=
  (s.sectionsOf 5).map fun x => ⟨leAt x.bytes 0 1, leAt x.bytes 4 2, leAt x.bytes 6 2, leAt x.bytes 8 4, leAt x.bytes 12 4, x.bytes.drop 32⟩

/-- R402: the library: each item with its start. -/
def library : Nat → List Content → List (Nat × Content)
  | _, [] => []
  | a, c :: r => (a, c) :: library (align64k (a + c.data.length)) r

/-- R403: the colour of bar `k` of the test card. -/
def barColour (k : Nat) : List Byte :=
  let m := [7, 6, 3, 2, 5, 4, 1, 0].getD k 0
  [if m.testBit 2 then 191 else 0, if m.testBit 1 then 191 else 0, if m.testBit 0 then 191 else 0, 255]

/-- R403: whether a canvas pixel is on the border of a placed tile. -/
def onBorder (l : List (Nat × Placement × Tile)) (x y : Nat) : Bool :=
  l.any fun e =>
    let pl := e.2.1
    let turned := pl.orient % 2 = 1
    let w := if turned then e.2.2.h else e.2.2.w
    let h := if turned then e.2.2.w else e.2.2.h
    pl.x ≤ x && x < pl.x + w && pl.y ≤ y && y < pl.y + h &&
      (x = pl.x || x + 1 = pl.x + w || y = pl.y || y + 1 = pl.y + h)

/-- R403: the test card of a canvas, in lines of `pitch` bytes. -/
def testCard (l : List (Nat × Placement × Tile)) (w h pitch : Nat) : List Byte :=
  (List.range h).flatMap fun y =>
    ((List.range w).flatMap fun x => if onBorder l x y then [255, 255, 255, 255] else barColour (8 * x / w)) ++
      List.replicate (pitch - 4 * w) 0

/-- R403: the test card as a content item. -/
def State.cardItem (s : State) (w h : Nat) : Content :=
  let pitch := cdiv (4 * w) 64 * 64
  let l := (s.mapPlaces 0 (s.fitRows s.mapRows)).map fun x => (x.1, x.2, s.tile x.1)
  ⟨1, w, h, pitch, 0, testCard l w h pitch⟩

/-- R403: what layer 0 shows: the content items, or the test card. -/
def State.shown (s : State) (w h : Nat) : List Content := if s.contents.isEmpty then [s.cardItem w h] else s.contents

/-- R402, R403: the library is copied to DRAM, and its places are kept. -/
def State.copyLibrary (s : State) (items : List Content) : State :=
  let lib := library s.libraryAt items
  let s1 := lib.foldl (fun s x => s.wrBytes x.1 x.2.data) s
  let turn := if s.contents.isEmpty then [] else lib.map fun x => (x.1, x.1 + x.2.pitch * x.2.h, x.2.ms)
  { s1 with turnkey := { s1.turnkey with content := turn, item := 0, itemAt := s1.now } }

/-! ### The default canvas (R403) -/

/-- R403: the pages of the default canvas. -/
def defaultPages : List Nat := [0x10, 0x18, 0x20, 0x21, 0x80, 0x90]

/-- R403: CV0, CVC0 and `SCN0`. -/
def State.writeCanvas (s : State) (w h : Nat) : State :=
  let ports := s.turnkey.taken.filter fun p => s.tileList.any fun x => x.2.given && x.2.port = p
  let mask := ports.foldl (fun m p => m ||| 2 ^ p) 0
  s.tkAll ([(Reg.latchGcfg 15, 0), (Reg.cvMode 0, 3), (Reg.cvSize 0, w + h * 65536), (Reg.cvTmin 0, 16666667), (Reg.cvTmax 0, 16666667),
    (Reg.cvLead 0, 250000), (Reg.cvGenlock 0, 0)] ++
    ((List.range 9).map fun k => (Reg.cvcMtx 0 k, if k % 4 = 0 then 5289369 else 0)) ++
    [(Reg.cvcCtrl 0, s.rn (Reg.cvcCtrl 0) / 2 * 2), (Reg.cvcDither 0, putBits (s.rn (Reg.cvcDither 0)) 1 0 1),
     (Reg.scnPortsLo 0, mask % 2 ^ 32), (Reg.scnPortsHi 0, mask / 2 ^ 32)])

/-- R403: a layer that fills the canvas from a surface. -/
def State.writeLayer (s : State) (n fmt sw sh w h : Nat) : State :=
  s.tkAll [(Reg.layCtrl n, 1 + n * 16 + fmt * 256), (Reg.layNotReady n, 1), (Reg.laySrcSize n, sw + sh * 65536), (Reg.layCropPos n, 0),
    (Reg.layCropSize n, sw + sh * 65536), (Reg.layDstPos n, 0), (Reg.layDstSize n, w + h * 65536), (Reg.layStepH n, 0),
    (Reg.layStepV n, 0), (Reg.layAlpha n, 65535)]

/-- R403: layer 0 with its first item. -/
def State.writeLayer0 (s : State) (c : Content) (w h : Nat) : State :=
  let a := s.libraryAt
  let s1 := s.writeLayer 0 c.fmt c.w c.h w h
  let s2 := (s1.tk64 (Reg.layAddr0Lo 0) a).tk64 (Reg.layAddr1Lo 0) (if fmtPlanes c.fmt = 2 then a + c.pitch * c.h else 0)
  s2.tkAll [(Reg.layPitch0 0, c.pitch), (Reg.layPitch1 0, if fmtPlanes c.fmt = 2 then c.pitch else 0),
    (Reg.layColour 0, if fmtYcc c.fmt then 0 else 1), (Reg.layFlow 0, 0)]

/-- R396: an object of FLOW written from bytes of the image. -/
def State.writeFlow (s : State) (obj : Nat) (b : List Byte) (n : Nat) : State :=
  let s1 := s.tk Reg.flowIdx obj
  let s2 := s1.each (List.range n) fun k s => s.tk (Reg.flowData k) (leAt b (4 * k) 4)
  s2.tk Reg.flowCmd 2

/-- R403: layer 1 follows the FLOW section's flow, whose media port is enabled. -/
def State.writeLayer1 (s : State) (w h : Nat) : State :=
  match s.sectionsOf 6 with
  | [] => s
  | x :: _ =>
    let m := if (leAt x.bytes 0 4).testBit 1 then 0 else 1
    let s1 := (s.writeFlow (16 + m) (x.bytes.drop 64) 4).tk (Reg.medCtrl m) (s.rn (Reg.medCtrl m) ||| 1)
    let s2 := s1.writeFlow 0 x.bytes 16
    let f := (s2.flw 0).fetchSet
    (s2.writeLayer 1 f.fmt f.w f.h w h).tk (Reg.layFlow 1) 16

/-- R403: the lamp tables; RESTORE_WEAR asks for the restore of R174. -/
def State.writeLamp (s : State) : State :=
  let s1 := ((s.tk64 Reg.lampCalLo 0).tk64 Reg.lampWearLo s.wearAt).tk Reg.lampCtrl
    (putBits (s.rn Reg.lampCtrl) 24 24 (if s.calBytes.isEmpty then 0 else 1))
  if s.imgFlags.testBit 3 then
    { s1 with turnkey := { s1.turnkey with wear := true } }.tk Reg.lampCkptCtrl (s1.rn Reg.lampCkptCtrl ||| 4)
  else s1

/-- R402, R403: the auto-map and the default canvas, committed with LG15. -/
def State.defaultCommit (s : State) : State :=
  let z := s.mapCanvas
  let s1 := s.autoMap
  if z.1 = 0 || z.2 = 0 then s1
  else
    let items := s1.shown z.1 z.2
    let s2 := s1.copyLibrary items
    let s3 := defaultPages.foldl (fun s p => s.tk (pgLatch p) 0x000F000F) s2
    let s4 := s3.writeCanvas z.1 z.2
    let s5 := match items with | c :: _ => s4.writeLayer0 c z.1 z.2 | [] => s4
    let s6 := ((s5.writeLayer1 z.1 z.2).writeLamp).runScripts 0
    let hinges := [Reg.cvMode 0, Reg.cvSize 0, Reg.scnPortsLo 0, Reg.scnPortsHi 0].any fun o => s6.sh o ≠ s6.reg o
    let s7 := s6.tk Reg.latchFire 0x8000
    if s.liveCv 0 && !hinges && !(s7.stagedOn 0).isEmpty then s7.tk (Reg.cvHinge 0) 1 else s7

/-- R401, R403: default behaviour starts. -/
def State.defaultStart (s : State) : State :=
  (s.defaultCommit.setBit Reg.mboxStat 30).notify 1

/-- R401: DEFAULT_WAIT has passed in phase 6 with no doorbell. -/
def State.defaultWait (s : State) : State :=
  let due := match s.turnkey.waitFrom with
    | some t => Decidable.decide (t + s.imgWait * 1000000000 ≤ s.now)
    | none => false
  if s.fld Reg.mboxStat 23 16 = 6 && s.imgFlags.testBit 1 && s.fld Reg.gpioStraps 1 0 ≠ 2 && !s.turnkey.rung && due then
    (s.setFld Reg.mboxStat 23 16 7).defaultStart
  else s

def execDefaultWaitExpiry (dt : Nat) (s : State) : Host.Outcome State Fault Refusal := done (s.tick dt).defaultWait

/-! ### While it runs (R403, R404) -/

/-- R403: a content item's DURATION has passed: the addresses of the next one are committed by a line trigger on CV0. -/
def State.nextContent (s : State) : State :=
  let t := s.turnkey
  match t.content[t.item]? with
  | none => s
  | some (_, _, ms) =>
    if !s.bit Reg.mboxStat 30 || s.now < t.itemAt + ms * 1000000 || s.bit (Reg.latchLt 3) 31 || s.heldMask.testBit 15 then s
    else
      let k := (t.item + 1) % t.content.length
      let a := t.content.getD k (0, 0, 0)
      let two := fmtPlanes (s.fld (Reg.layCtrl 0) 13 8) = 2
      let s1 := { s with turnkey := { t with item := k, itemAt := s.now } }.tk64 (Reg.layAddr0Lo 0) a.1
      let s2 := if two then s1.tk64 (Reg.layAddr1Lo 0) a.2.1 else s1
      s2.tk (Reg.latchLt 3) (0x8000 + 2 ^ 31)

def execContentChange (dt : Nat) (s : State) : Host.Outcome State Fault Refusal := done (s.tick dt).nextContent

/-- R174, R403: the wear restore has ended: compensation, sweep and checkpoints come on. -/
def State.wearRestored (s : State) : State :=
  if !s.turnkey.wear || s.bit Reg.lampCkptCtrl 2 then s
  else
    let s1 := { s with turnkey := { s.turnkey with wear := false } }
    let s2 := s1.tk Reg.lampCtrl ((s1.sh Reg.lampCtrl).toNat ||| 0x0A000000)
    (s2.tk Reg.lampCkptCtrl (s2.rn Reg.lampCkptCtrl ||| 1)).tk Reg.latchFire 0x8000

/-- R174: what the two checkpoint slots hold has been read. -/
def execCkptRestoreDone (dt : Nat) (slotA slotB : List Byte) (s : State) : Host.Outcome State Fault Refusal :=
  done (((s.tick dt).restoreDone slotA slotB).wearRestored)

/-! ### Its mailbox commands (R404, R405) -/

/-- R405: AUTOMAP: the Ward's verdict on the commit answers it; a commit that needs none is answered at once. -/
def State.mapRequest (s : State) : State :=
  if !s.mboxCmd 0x11 then s
  else
    let id := s.mboxId
    let seq := s.nextSeq
    let s1 := { s with turnkey := { s.turnkey with await := some (seq, id) } }.defaultCommit
    if s1.turnkey.await = some (seq, id) && !s1.latch.armed.any (·.seq = seq) then
      { s1 with turnkey := { s1.turnkey with await := none } }.answer id 0 [0]
    else s1

def execAutomap (dt : Nat) (s : State) : Host.Outcome State Fault Refusal := done (s.tick dt).mapRequest

/-- R404: STOP_DEFAULT takes effect once the commit under way has ended; every register stays as it stands. -/
def State.stopRequest (s : State) : State :=
  if !s.mboxCmd 0x20 || s.busyMask.testBit 15 then s
  else
    let id := s.mboxId
    let s1 := { s.clrBit Reg.mboxStat 30 with turnkey := { s.turnkey with content := [], wear := false } }
    (if s.bit Reg.mboxStat 30 then s1.notify 2 else s1).answer id 0 []

def execStopDefault (dt : Nat) (s : State) : Host.Outcome State Fault Refusal := done (s.tick dt).stopRequest

/-- R401, R405: START_DEFAULT starts default behaviour at once; before phase 6 the Turnkey is busy. -/
def State.startRequest (s : State) : State :=
  if !s.mboxCmd 0x21 then s
  else
    let id := s.mboxId
    if s.fld Reg.mboxStat 23 16 < 6 then s.answer id 3 []
    else if s.bit Reg.mboxStat 30 then s.answer id 0 []
    else ((s.setFld Reg.mboxStat 23 16 7).defaultStart).answer id 0 []

def execStartDefault (dt : Nat) (s : State) : Host.Outcome State Fault Refusal := done (s.tick dt).startRequest

end Sys2Proof.Machine
end

