-- ==== Sys2Proof/Machine/Turnkey.lean ====
section
/-! DEFINITION. The Turnkey's bring-up phases, enumeration of the chains and the remaining mailbox commands
(R255, R391-R400, R405). -/
namespace Sys2Proof.Machine

/-- R393: the phase that runs. -/
def State.phase (s : State) : Nat := s.fld Reg.mboxStat 23 16

/-- R393: phase `p` has completed, and the next one runs. -/
def State.phaseEnd (s : State) (p : Nat) : State :=
  { s with turnkey := { s.turnkey with phases := s.turnkey.phases ||| 2 ^ p } }.setFld Reg.mboxStat 23 16 (p + 1)

/-! ### Phases 1 to 3 -/

/-- R393: phase 1: PLL3 and D39 come on when HOST selects PCIe. -/
def State.phase1 (s : State) : State :=
  let host := s.fld Reg.gpioStraps 1 0
  if host = 0 || host = 3 then (s.needDomain 39).needDomain 52 else s

/-- R377, R394-R396: phase 2: SFDP and ONFI sizes, the image, EARLY scripts, READY. -/
def State.phase2 (s : State) (copies : List (List Byte)) (sizes : Nat) : State :=
  let s1 := s.setFld Reg.xspiMode 28 16 (sizes % 2 ^ 13)
  let s2 := { s1 with turnkey := { s1.turnkey with image := imgNewer (copies.getD 0 []) (copies.getD 1 []) } }
  let s3 := (s2.readSections 1).runScripts 1
  s3.setBitIf s3.pcie.perst Reg.pcieStat 9

/-- R342, R391, R392: phase 3: after a cold start the lifetime record is restored, and the reset is counted. -/
def State.phase3 (s : State) (life : List (List Byte)) (dimms : List Dimm) : State :=
  let s1 := { s with faults := { s.faults with dimms := dimms.foldl (fun m (d : Dimm) => mset m d.channel 0 d.serial) s.faults.dimms } }
  let cold := s.turnkey.cause ≠ 0
  let s2 := if cold && s1.imgFlags.testBit 4 then s1.ltRestore (life.getD 0 []) (life.getD 1 []) else s1
  let s3 := if cold then s2.lifeUp s.turnkey.cause else s2
  if s.turnkey.cause = 2 then s3.journal 12 0 0 0 0 else s3

/-! ### Phase 4: DRAM (R255, R392, R397) -/

/-- R270, R397: a DIMM's delay banks and trained set points, as training or the cache leaves them. -/
def State.loadBanks (s : State) (d : Dimm) : State :=
  let dly := d.banks.foldl (fun m x => mset m (x.1 % 2 ^ 16) 0 (x.2 % 1024)) s.mem.dly
  let s1 := { s with mem := { s.mem with dly := dly } }
  s1.setRn Reg.mtrnTrained (s1.rn Reg.mtrnTrained ||| d.trained % 16 * 2 ^ (4 * d.channel))

/-- R254: the organisations that a channel supports, as MCn.RANKS spells them: 1, 2 or 4 physical ranks of one logical rank,
or 3DS stacks with up to 8 logical ranks, and at most 256 GiB. -/
def ranksSupported (w : Nat) : Bool :=
  let ph := bitsOf w 3 0
  let lg := bitsOf w 7 4
  let gib := bitsOf w 19 8
  [1, 2, 4].contains ph && (if w.testBit 20 then lg ≤ 8 && ph ≤ lg && lg % ph = 0 else lg = ph) && 1 ≤ gib && lg * gib ≤ 256

/-- R254, R255, R397: bring-up of a channel from what is found of its DIMM. -/
def State.bringUpChan (s : State) (d : Dimm) : State :=
  let c := d.channel
  if !d.supported || !ranksSupported d.ranks then s.setBit (Reg.mcStat c) 10
  else
    let s1 := (s.setRn (Reg.mcRanks c) (d.ranks ||| 2 ^ 31)).loadBanks d
    if (d.trained % 16).testBit (s.fld Reg.memFspStat 1 0) then (s1.tk (Reg.mcCtrl c) (s1.rn (Reg.mcCtrl c) ||| 1)).refreshAnew c
    else { s1 with turnkey := { s1.turnkey with badChan := s1.turnkey.badChan ||| 2 ^ c } }

/-- R392: a channel whose enabled set points are all trained needs no training on a warm start. -/
def State.warmChan (s : State) (c : Nat) : Bool :=
  s.turnkey.cause = 0 && s.bit (Reg.mcRanks c) 31 && s.srState c = 2 &&
    (bitList (s.fld Reg.memFspCtrl 11 8) 4).all fun f => s.bit Reg.mtrnTrained (4 * c + f)

/-- R392: it comes out of self-refresh with the banks in force. -/
def State.wakeChan (s : State) (c : Nat) : State :=
  ((s.setFld (Reg.mcSrStat c) 2 0 0).tk (Reg.mcCtrl c) (s.rn (Reg.mcCtrl c) ||| 1)).refreshAnew c

/-- R257: interleave sets for enabled channels of (channel, GiB), all of one capacity at a time and by powers of two. -/
def ilvWords : Nat → Nat → List (Nat × Nat) → List Nat
  | 0, _, _ => []
  | _, _, [] => []
  | fuel + 1, base, (c, g) :: r =>
    let like := ((c, g) :: r).filter fun x => x.2 = g
    let n := ([8, 4, 2, 1].find? fun n => n ≤ like.length && n * g ≤ 1024).getD 1
    let set := like.take n
    let mask := set.foldl (fun m x => m ||| 2 ^ x.1) 0
    (mask + base * 256 + n * g * 2 ^ 19 + 2 ^ 31) ::
      ilvWords fuel (base + n * g) (((c, g) :: r).filter fun x => !mask.testBit x.1)

/-- R392, R393: the interleave sets are enabled: after a soft reset the kept words, else those that scripts have set up, else
one set of each capacity. -/
def State.enableIlv (s : State) : State :=
  let words := [0, 1, 2, 3].map fun k => s.rn (Reg.memIlv k)
  if s.turnkey.cause = 0 then s.tkAll (s.turnkey.ilvKept.zipIdx.map fun x => (Reg.memIlv x.2, x.1.toNat))
  else if words.any fun w => w % 256 ≠ 0 then
    s.tkAll ((words.zipIdx.filter fun x => x.1 % 256 ≠ 0).map fun x => (Reg.memIlv x.2, x.1 ||| 2 ^ 31))
  else
    let chans := ((List.range 8).filter fun c => s.bit (Reg.mcCtrl c) 0).map fun c => (c, s.mappedBytes c / 2 ^ 30)
    s.tkAll ((ilvWords 4 0 chans).zipIdx.map fun x => (Reg.memIlv x.2, x.1))

/-- R231, R396: curve objects in index order. -/
def State.loadCurves (s : State) : State :=
  let b := (s.sectionsOf 3).flatMap (·.bytes)
  { s with curves := (List.range (b.length / 64)).foldl (fun m i => (List.range 24).foldl (fun m j =>
    mset m ((i / 8 % 32 * 3 + j / 8) * 64 + 8 * (i % 8) + j % 8) 65535 (leAt b (64 * i + 4 * (j / 2) + 2 * (j % 2)) 2)) m) s.curves }

/-- R397: the training cache is written to the slot that does not hold the newer record. -/
def State.cacheWrite (s : State) : State :=
  let k := 1 - s.turnkey.cacheSlot
  let a := if k = 0 then 0x03F00000 else 0x03F80000
  { s with tx := s.tx ++ [.flash 0 2 a [], .flash 0 1 a []], turnkey := { s.turnkey with cacheSlot := k } }

/-- R255, R392, R393, R396, R397: phase 4, and what phase 5 starts with. -/
def State.phase4 (s : State) (dimms : List Dimm) : State :=
  let warm := (List.range 8).filter s.warmChan
  let swept := dimms.filter fun d => d.channel < 8 && !warm.contains d.channel
  let s1 := swept.foldl State.bringUpChan (warm.foldl State.wakeChan s)
  let s2 := s1.enableIlv
  let s3 := ((s2.readSections 3).loadCurves).readSections 4
  let s4 := if s3.calBytes.isEmpty then s3 else (s3.wrBytes 0 s3.calBytes).tk64 Reg.lampCalLo 0
  let s5 := ([2, 5, 6].foldl (fun s t => s.readSections t) s4)
  let s6 := if swept.any (·.swept) then s5.cacheWrite else s5
  s6.setBit (pgLock 0x109) 0

/-! ### Phase 5: enumeration (R398, R400) -/

/-- R398, R405: the next port of an enumeration comes on; after the last, event 3 is raised and a mailbox request answered. -/
def State.enumNext (s : State) : State :=
  match s.turnkey.ports with
  | p :: r =>
    { s with turnkey := { s.turnkey with enum := some (p, s.now), ports := r } }.tk (Reg.prtCtrl p) (s.rn (Reg.prtCtrl p) ||| 7)
  | [] =>
    let s1 := { s with turnkey := { s.turnkey with enum := none, enumReq := none } }.notify 3
    match s.turnkey.enumReq with
    | none => s1
    | some id =>
      let mask := s.rn (Reg.mboxReq 1) + s.rn (Reg.mboxReq 2) * 2 ^ 32
      s1.answer id 0 [(s.tileList.filter fun x => x.2.given && mask.testBit x.2.port).length]

/-- R398: an enumeration of the ports of a mask begins. -/
def State.enumBegin (s : State) (mask : Nat) : State :=
  { s with turnkey := { s.turnkey with ports := (List.range 64).filter mask.testBit } }.enumNext

/-- R398: a port's turn ends: its link is not up after 50 ms, or nothing new came for 150 ms, or 3 s have passed. -/
def State.enumStep (s : State) (p : Nat) (loopOf : Option Nat) : State :=
  match s.turnkey.enum with
  | none => s
  | some (q, since) =>
    let port := s.prt p
    if q ≠ p then s
    else if !port.up then
      if s.now < since + 50000000 then s
      else (s.tk (Reg.prtCtrl p) (s.rn (Reg.prtCtrl p) / 2 * 2)).enumNext
    else if s.now < port.quiet + 150000000 && s.now < since + 3000000000 then s
    else
      let s1 := match loopOf with
        | some h => if s.turnkey.taken.contains h then s.tk (Reg.prtLoop h) (p + 0x700) else s
        | none => s
      { s1 with turnkey := { s1.turnkey with taken := (s1.turnkey.taken.filter (· ≠ p)) ++ [p] } }.enumNext

def execEnumeratePortStep (dt : Nat) (port : Fin 64) (loopOf : Option (Fin 64)) (s : State) : Host.Outcome State Fault Refusal :=
  done ((s.tick dt).enumStep port (loopOf.map (·.val)))

/-- R398, R400: phase 5 starts: Hasp ports with the WALL flag, enumeration with AUTO_ENUM. -/
def State.phase5Start (s : State) : State :=
  let s1 := if s.imgFlags.testBit 2 then
      [0, 1].foldl (fun s h => s.tk (Reg.haspCtrl h) (s.rn (Reg.haspCtrl h) ||| 1)) s
    else s
  if s.imgFlags.testBit 0 then s1.enumBegin s.imgPorts else s1

/-- R391, R393, R401: phase 5 ends: FAULT_N is released; without a host default behaviour starts. -/
def State.phase5End (s : State) : State :=
  let s1 := ({ s with
    faults := { s.faults with bringUp := false }
    turnkey := { s.turnkey with waitFrom := some s.now } }).phaseEnd 5
  if s1.imgFlags.testBit 1 && s1.fld Reg.gpioStraps 1 0 = 2 then (s1.phaseEnd 6).defaultStart else s1

/-! ### The phases (R393) -/

/-- R393: the phase that runs has completed. Before phase 4 the DIMMs found have their domains and PLL1 on. -/
def State.bringUp (s : State) (copies : List (List Byte)) (sizes : Nat) (life : List (List Byte)) (dimms : List Dimm) : State :=
  match s.phase with
  | 1 => s.phase1.phaseEnd 1
  | 2 => (s.phase2 copies sizes).phaseEnd 2
  | 3 =>
    let fit := dimms.filter fun d => d.supported && d.channel < 8
    let s1 := (s.phase3 life dimms).each (fit.map fun d => 9 + d.channel) fun d s => s.wakeDomain d
    (if fit.isEmpty then s1 else s1.needDomain 50).phaseEnd 3
  | 4 => ((s.phase4 dimms).phaseEnd 4).phase5Start
  | 5 => if s.turnkey.enum.isSome then s else s.phase5End
  | 6 => if s.turnkey.rung || !s.imgFlags.testBit 1 then s.phaseEnd 6 else s
  | _ => s

def execBringUpPhase (dt : Nat) (copies : List (List Byte)) (sizes : Nat) (life : List (List Byte)) (dimms : List Dimm) (s : State) :
    Host.Outcome State Fault Refusal :=
  done ((s.tick dt).bringUp copies sizes life dimms)

/-! ### Mailbox commands (R405) -/

/-- R405: VERSION. -/
def State.versionRequest (s : State) : State :=
  if s.mboxCmd 1 then s.answer s.mboxId 0 [Config.romVersion.toNat, leAt s.turnkey.image 8 4] else s

def execVersion (dt : Nat) (s : State) : Host.Outcome State Fault Refusal := done (s.tick dt).versionRequest

/-- R405: BOOT_STATUS. -/
def State.bootRequest (s : State) : State :=
  if s.mboxCmd 2 then s.answer s.mboxId 0 [s.turnkey.phases, s.turnkey.failed, s.turnkey.badChan] else s

def execBootStatus (dt : Nat) (s : State) : Host.Outcome State Fault Refusal := done (s.tick dt).bootRequest

/-- R398, R405: ENUMERATE; while the Turnkey enumerates already it is busy. -/
def State.enumRequest (s : State) : State :=
  if !s.mboxCmd 0x10 || s.turnkey.enumReq.isSome then s
  else if s.turnkey.enum.isSome then s.answer s.mboxId 3 []
  else
    { s with turnkey := { s.turnkey with enumReq := some s.mboxId } }.enumBegin
      (s.rn (Reg.mboxReq 1) + s.rn (Reg.mboxReq 2) * 2 ^ 32)

def execEnumerate (dt : Nat) (s : State) : Host.Outcome State Fault Refusal := done (s.tick dt).enumRequest

/-- R397, R405: RETRAIN: a full sweep of the channels of a mask and a new cache; refused while any channel carries an
admitted stream. -/
def State.retrainRequest (s : State) (dimms : List Dimm) : State :=
  if !s.mboxCmd 0x30 then s
  else
    let mask := s.rn (Reg.mboxReq 1)
    if 256 ≤ mask then s.answer s.mboxId 2 []
    else if s.anyAdmitted then s.answer s.mboxId 3 []
    else
      let l := dimms.filter fun d => d.channel < 8 && mask.testBit d.channel && s.bit (Reg.mcRanks d.channel) 31
      ((l.foldl State.loadBanks s).cacheWrite).answer s.mboxId 0 []

def execRetrain (dt : Nat) (dimms : List Dimm) (s : State) : Host.Outcome State Fault Refusal := done ((s.tick dt).retrainRequest dimms)

end Sys2Proof.Machine
end

