-- ==== Sys2Proof/Machine/Dispatch.lean ====
section
/-! DEFINITION. Which meaning each command has: one arm per constructor. -/
namespace Sys2Proof.Machine

/-- The effect of a command on everything but the queue. -/
def exec (i : Instr) (s : State) : Host.Outcome State Fault Refusal :=
  match i with
  | .registerWrite dt req off size v => Sys2Proof.Machine.execRegisterWrite dt req off size v s
  | .readClear dt req off size => Sys2Proof.Machine.execReadClear dt req off size s
  | .pgLockWrite dt req page v => Sys2Proof.Machine.execPgLockWrite dt req page v s
  | .pgLatchWrite dt req page v => Sys2Proof.Machine.execPgLatchWrite dt req page v s
  | .powerOnReset dt straps vbat => Sys2Proof.Machine.execPowerOnReset dt straps vbat s
  | .resetN dt straps => Sys2Proof.Machine.execResetN dt straps s
  | .softReset dt req => Sys2Proof.Machine.execSoftReset dt req s
  | .pcieReset dt kind => Sys2Proof.Machine.execPcieReset dt kind s
  | .fire dt req v begun => Sys2Proof.Machine.execFire dt req v begun s
  | .timeTriggerArm dt req t v => Sys2Proof.Machine.execTimeTriggerArm dt req t v s
  | .lineTriggerArm dt req t v => Sys2Proof.Machine.execLineTriggerArm dt req t v s
  | .wardVerdict dt begun => Sys2Proof.Machine.execWardVerdict dt begun s
  | .timeTriggerFire dt t begun => Sys2Proof.Machine.execTimeTriggerFire dt t begun s
  | .tumblerLatchLine dt cv tmb => Sys2Proof.Machine.execTumblerLatchLine dt cv tmb s
  | .ceilWrite dt req v => Sys2Proof.Machine.execCeilWrite dt req v s
  | .retxWrite dt req v => Sys2Proof.Machine.execRetxWrite dt req v s
  | .marginWrite dt req v => Sys2Proof.Machine.execMarginWrite dt req v s
  | .readmissionVerdict dt begun => Sys2Proof.Machine.execReadmissionVerdict dt begun s
  | .restoration dt => Sys2Proof.Machine.execRestoration dt s
  | .compositionStart dt cv tie begun => Sys2Proof.Machine.execCompositionStart dt cv tie begun s
  | .latchInstant dt cv => Sys2Proof.Machine.execLatchInstant dt cv s
  | .waitLimit dt cv begun => Sys2Proof.Machine.execWaitLimit dt cv begun s
  | .deliveryComplete dt cv => Sys2Proof.Machine.execDeliveryComplete dt cv s
  | .latchRepeat dt cv => Sys2Proof.Machine.execLatchRepeat dt cv s
  | .frameDeadline dt cv => Sys2Proof.Machine.execFrameDeadline dt cv s
  | .voidLatch dt cv => Sys2Proof.Machine.execVoidLatch dt cv s
  | .underrun dt cv => Sys2Proof.Machine.execUnderrun dt cv s
  | .vote dt port frame => Sys2Proof.Machine.execVote dt port frame s
  | .voteTimeout dt cv => Sys2Proof.Machine.execVoteTimeout dt cv s
  | .framePulse dt => Sys2Proof.Machine.execFramePulse dt s
  | .hingeStart dt req cv v => Sys2Proof.Machine.execHingeStart dt req cv v s
  | .hingeReconfigDone dt cv => Sys2Proof.Machine.execHingeReconfigDone dt cv s
  | .hingeDeadline dt cv => Sys2Proof.Machine.execHingeDeadline dt cv s
  | .holdRepeat dt cv => Sys2Proof.Machine.execHoldRepeat dt cv s
  | .bindCutoff dt cv layer line x => Sys2Proof.Machine.execBindCutoff dt cv layer line x s
  | .coefDataWrite dt req set v => Sys2Proof.Machine.execCoefDataWrite dt req set v s
  | .coefDataRead dt req set => Sys2Proof.Machine.execCoefDataRead dt req set s
  | .toneDataWrite dt req v => Sys2Proof.Machine.execToneDataWrite dt req v s
  | .toneDataRead dt req => Sys2Proof.Machine.execToneDataRead dt req s
  | .lutDataWrite dt req cv v => Sys2Proof.Machine.execLutDataWrite dt req cv v s
  | .lutDataRead dt req cv => Sys2Proof.Machine.execLutDataRead dt req cv s
  | .sweepPassStart dt => Sys2Proof.Machine.execSweepPassStart dt s
  | .wearVisit dt newest other => Sys2Proof.Machine.execWearVisit dt newest other s
  | .sweepPassEnd dt => Sys2Proof.Machine.execSweepPassEnd dt s
  | .checkpointDue dt => Sys2Proof.Machine.execCheckpointDue dt s
  | .ckptNow dt req => Sys2Proof.Machine.execCkptNow dt req s
  | .ckptEraseDone dt => Sys2Proof.Machine.execCkptEraseDone dt s
  | .ckptBlockFail dt block => Sys2Proof.Machine.execCkptBlockFail dt block s
  | .ckptBodyDone dt => Sys2Proof.Machine.execCkptBodyDone dt s
  | .ckptRecordReadback dt valid => Sys2Proof.Machine.execCkptRecordReadback dt valid s
  | .ckptRestore dt req => Sys2Proof.Machine.execCkptRestore dt req s
  | .ckptRestoreDone dt slotA slotB => Sys2Proof.Machine.execCkptRestoreDone dt slotA slotB s
  | .granuleRelocation dt => Sys2Proof.Machine.execGranuleRelocation dt s
  | .vaultError dt addr uncorrectable port => Sys2Proof.Machine.execVaultError dt addr uncorrectable port s
  | .sectionSpareCopy dt sec => Sys2Proof.Machine.execSectionSpareCopy dt sec s
  | .vaultScrub dt errors => Sys2Proof.Machine.execVaultScrub dt errors s
  | .bar4Read dt req off len => Sys2Proof.Machine.execBar4Read dt req off len s
  | .bar4Write dt req off data => Sys2Proof.Machine.execBar4Write dt req off data s
  | .throughLineStart dt cv line => Sys2Proof.Machine.execThroughLineStart dt cv line s
  | .throughDeliveryStart dt cv => Sys2Proof.Machine.execThroughDeliveryStart dt cv s
  | .readbackVerdict dt port echo => Sys2Proof.Machine.execReadbackVerdict dt port echo s
  | .linkUp dt port grid => Sys2Proof.Machine.execLinkUp dt port grid s
  | .linkDown dt port => Sys2Proof.Machine.execLinkDown dt port s
  | .discoverTimer dt port => Sys2Proof.Machine.execDiscoverTimer dt port s
  | .announce dt port frame => Sys2Proof.Machine.execAnnounce dt port frame s
  | .assignTimeout dt tile => Sys2Proof.Machine.execAssignTimeout dt tile s
  | .conflictSettle dt tile => Sys2Proof.Machine.execConflictSettle dt tile s
  | .timePeriod dt port => Sys2Proof.Machine.execTimePeriod dt port s
  | .echoRound dt => Sys2Proof.Machine.execEchoRound dt s
  | .echo dt port frame t4 => Sys2Proof.Machine.execEcho dt port frame t4 s
  | .configReply dt port frame => Sys2Proof.Machine.execConfigReply dt port frame s
  | .configRetry dt cv => Sys2Proof.Machine.execConfigRetry dt cv s
  | .status dt port frame => Sys2Proof.Machine.execStatus dt port frame s
  | .event dt port frame => Sys2Proof.Machine.execEvent dt port frame s
  | .nack dt port frame => Sys2Proof.Machine.execNack dt port frame s
  | .tileLost dt tile => Sys2Proof.Machine.execTileLost dt tile s
  | .loopTimeMiss dt port => Sys2Proof.Machine.execLoopTimeMiss dt port s
  | .failoverSweepDone dt port => Sys2Proof.Machine.execFailoverSweepDone dt port s
  | .failoverSwitch dt port => Sys2Proof.Machine.execFailoverSwitch dt port s
  | .revert dt port => Sys2Proof.Machine.execRevert dt port s
  | .ttblRead dt req => Sys2Proof.Machine.execTtblRead dt req s
  | .ttblWrite dt req => Sys2Proof.Machine.execTtblWrite dt req s
  | .release dt req => Sys2Proof.Machine.execRelease dt req s
  | .discover dt req => Sys2Proof.Machine.execDiscover dt req s
  | .twrite dt req => Sys2Proof.Machine.execTwrite dt req s
  | .tread dt req => Sys2Proof.Machine.execTread dt req s
  | .clrAnn dt req => Sys2Proof.Machine.execClrAnn dt req s
  | .ttblEcho dt req => Sys2Proof.Machine.execTtblEcho dt req s
  | .tileAccessTimeout dt => Sys2Proof.Machine.execTileAccessTimeout dt s
  | .frameEnqueue dt port queue frame => Sys2Proof.Machine.execFrameEnqueue dt port queue frame s
  | .frameTxEnd dt port => Sys2Proof.Machine.execFrameTxEnd dt port s
  | .gateChange dt port => Sys2Proof.Machine.execGateChange dt port s
  | .shaperRefill dt port => Sys2Proof.Machine.execShaperRefill dt port s
  | .gateDataWrite dt req port v => Sys2Proof.Machine.execGateDataWrite dt req port v s
  | .gateDataRead dt req port => Sys2Proof.Machine.execGateDataRead dt req port s
  | .takeover dt port => Sys2Proof.Machine.execTakeover dt port s
  | .load dt req port => Sys2Proof.Machine.execLoad dt req port s
  | .restart dt req v => Sys2Proof.Machine.execRestart dt req v s
  | .shaperDataWrite dt req v => Sys2Proof.Machine.execShaperDataWrite dt req v s
  | .memoryRequest dt port addr data => Sys2Proof.Machine.execMemoryRequest dt port addr data s
  | .commandSlot dt mc sub errors => Sys2Proof.Machine.execCommandSlot dt mc sub errors s
  | .refreshDue dt mc rank => Sys2Proof.Machine.execRefreshDue dt mc rank s
  | .fspStart dt req v => Sys2Proof.Machine.execFspStart dt req v s
  | .fspChangeDone dt begun => Sys2Proof.Machine.execFspChangeDone dt begun s
  | .writeRead dt req v => Sys2Proof.Machine.execWriteRead dt req v s
  | .trainRead dt req v => Sys2Proof.Machine.execTrainRead dt req v s
  | .caLoop dt req v => Sys2Proof.Machine.execCaLoop dt req v s
  | .mrw dt req v => Sys2Proof.Machine.execMrw dt req v s
  | .mrr dt req v => Sys2Proof.Machine.execMrr dt req v s
  | .trainingDone dt fails errors => Sys2Proof.Machine.execTrainingDone dt fails errors s
  | .dlyDataWrite dt req v => Sys2Proof.Machine.execDlyDataWrite dt req v s
  | .trainedWrite dt req v => Sys2Proof.Machine.execTrainedWrite dt req v s
  | .ilvWrite dt req k v => Sys2Proof.Machine.execIlvWrite dt req k v s
  | .spareWrite dt req mc v => Sys2Proof.Machine.execSpareWrite dt req mc v s
  | .migrationUnit dt mc errors => Sys2Proof.Machine.execMigrationUnit dt mc errors s
  | .patrolScrub dt errors => Sys2Proof.Machine.execPatrolScrub dt errors s
  | .srRequest dt req mc v => Sys2Proof.Machine.execSrRequest dt req mc v s
  | .srEntry dt mc => Sys2Proof.Machine.execSrEntry dt mc s
  | .srExitDone dt mc => Sys2Proof.Machine.execSrExitDone dt mc s
  | .srIdle dt mc => Sys2Proof.Machine.execSrIdle dt mc s
  | .zeroingDone dt mc rank => Sys2Proof.Machine.execZeroingDone dt mc rank s
  | .start dt req ch => Sys2Proof.Machine.execStart dt req ch s
  | .abort dt req ch => Sys2Proof.Machine.execAbort dt req ch s
  | .eventTimer dt timer => Sys2Proof.Machine.execEventTimer dt timer s
  | .requestLine dt line => Sys2Proof.Machine.execRequestLine dt line s
  | .unitAccepted dt ch data => Sys2Proof.Machine.execUnitAccepted dt ch data s
  | .unitFailure dt ch code => Sys2Proof.Machine.execUnitFailure dt ch code s
  | .descriptorEnd dt ch => Sys2Proof.Machine.execDescriptorEnd dt ch s
  | .nextWrite dt req ch lo hi => Sys2Proof.Machine.execNextWrite dt req ch lo hi s
  | .nextValidWrite dt req ch v => Sys2Proof.Machine.execNextValidWrite dt req ch v s
  | .reserve dt req v => Sys2Proof.Machine.execReserve dt req v s
  | .reservationVerdict dt => Sys2Proof.Machine.execReservationVerdict dt s
  | .rsvRelease dt req v => Sys2Proof.Machine.execRsvRelease dt req v s
  | .sparesWrite dt req v => Sys2Proof.Machine.execSparesWrite dt req v s
  | .vinLow dt mv => Sys2Proof.Machine.execVinLow dt mv s
  | .vinNormal dt mv => Sys2Proof.Machine.execVinNormal dt mv s
  | .vinOver dt mv => Sys2Proof.Machine.execVinOver dt mv s
  | .domainNeed dt dom => Sys2Proof.Machine.execDomainNeed dt dom s
  | .domainIdle dt dom => Sys2Proof.Machine.execDomainIdle dt dom s
  | .domainDrained dt dom => Sys2Proof.Machine.execDomainDrained dt dom s
  | .domainWakeDone dt dom => Sys2Proof.Machine.execDomainWakeDone dt dom s
  | .sensorSample dt temps vin iin pin => Sys2Proof.Machine.execSensorSample dt temps vin iin pin s
  | .thermalCut dt => Sys2Proof.Machine.execThermalCut dt s
  | .thermalBudgetRise dt => Sys2Proof.Machine.execThermalBudgetRise dt s
  | .emergencyEnd dt => Sys2Proof.Machine.execEmergencyEnd dt s
  | .decisionTimer dt begun => Sys2Proof.Machine.execDecisionTimer dt begun s
  | .vcoreReached dt begun => Sys2Proof.Machine.execVcoreReached dt begun s
  | .bgForced dt cls => Sys2Proof.Machine.execBgForced dt cls s
  | .energyPace dt => Sys2Proof.Machine.execEnergyPace dt s
  | .dayRoll dt => Sys2Proof.Machine.execDayRoll dt s
  | .scheduleMinute dt => Sys2Proof.Machine.execScheduleMinute dt s
  | .vcommitWrite dt req v => Sys2Proof.Machine.execVcommitWrite dt req v s
  | .schedDataWrite dt req v => Sys2Proof.Machine.execSchedDataWrite dt req v s
  | .faultEvent dt cls index => Sys2Proof.Machine.execFaultEvent dt cls index s
  | .leakTick dt cls => Sys2Proof.Machine.execLeakTick dt cls s
  | .shadowCheck dt cv line live spare again => Sys2Proof.Machine.execShadowCheck dt cv line live spare again s
  | .phaseSpareOn dt grp => Sys2Proof.Machine.execPhaseSpareOn dt grp s
  | .lifetimeWrite dt => Sys2Proof.Machine.execLifetimeWrite dt s
  | .ltNow dt req => Sys2Proof.Machine.execLtNow dt req s
  | .lifetimeWriteDone dt ok => Sys2Proof.Machine.execLifetimeWriteDone dt ok s
  | .ltRestore dt req slotA slotB => Sys2Proof.Machine.execLtRestore dt req slotA slotB s
  | .faultNRelease dt req v => Sys2Proof.Machine.execFaultNRelease dt req v s
  | .hop dt req pll v => Sys2Proof.Machine.execHop dt req pll v s
  | .pllLock dt pll band => Sys2Proof.Machine.execPllLock dt pll band s
  | .bandMiss dt pll => Sys2Proof.Machine.execBandMiss dt pll s
  | .lossOfLock dt pll => Sys2Proof.Machine.execLossOfLock dt pll s
  | .relockTimeout dt pll => Sys2Proof.Machine.execRelockTimeout dt pll s
  | .divWrite dt req pll v => Sys2Proof.Machine.execDivWrite dt req pll v s
  | .bandWrite dt req pll v => Sys2Proof.Machine.execBandWrite dt req pll v s
  | .refLost dt => Sys2Proof.Machine.execRefLost dt s
  | .servoOffset dt hasp offset => Sys2Proof.Machine.execServoOffset dt hasp offset s
  | .set dt req v => Sys2Proof.Machine.execSet dt req v s
  | .leapSecond dt => Sys2Proof.Machine.execLeapSecond dt s
  | .backupCopy dt => Sys2Proof.Machine.execBackupCopy dt s
  | .configurationRequest dt off data => Sys2Proof.Machine.execConfigurationRequest dt off data s
  | .bar2Access dt req off data len => Sys2Proof.Machine.execBar2Access dt req off data len s
  | .writeReg dt addr data clkMHz => Sys2Proof.Machine.execWriteReg dt addr data clkMHz s
  | .readReg dt addr words => Sys2Proof.Machine.execReadReg dt addr words s
  | .writeMem dt addr data => Sys2Proof.Machine.execWriteMem dt addr data s
  | .readMem dt addr words => Sys2Proof.Machine.execReadMem dt addr words s
  | .readStat dt => Sys2Proof.Machine.execReadStat dt s
  | .mediaFrame dt port frame => Sys2Proof.Machine.execMediaFrame dt port frame s
  | .pathLost dt flow path => Sys2Proof.Machine.execPathLost dt flow path s
  | .flowRead dt req => Sys2Proof.Machine.execFlowRead dt req s
  | .flowWrite dt req => Sys2Proof.Machine.execFlowWrite dt req s
  | .arpRequest dt port frame => Sys2Proof.Machine.execArpRequest dt port frame s
  | .ptpAnnounce dt port frame => Sys2Proof.Machine.execPtpAnnounce dt port frame s
  | .ptpSync dt port frame rx => Sys2Proof.Machine.execPtpSync dt port frame rx s
  | .delayReq dt port => Sys2Proof.Machine.execDelayReq dt port s
  | .delayResp dt port frame => Sys2Proof.Machine.execDelayResp dt port frame s
  | .announceTimeout dt => Sys2Proof.Machine.execAnnounceTimeout dt s
  | .xspiRead dt req data => Sys2Proof.Machine.execXspiRead dt req data s
  | .xspiProgram dt req => Sys2Proof.Machine.execXspiProgram dt req s
  | .xspiErase dt req => Sys2Proof.Machine.execXspiErase dt req s
  | .xspiRaw dt req => Sys2Proof.Machine.execXspiRaw dt req s
  | .xspiDone dt status timeout => Sys2Proof.Machine.execXspiDone dt status timeout s
  | .sbusRead dt req => Sys2Proof.Machine.execSbusRead dt req s
  | .sbusWrite dt req => Sys2Proof.Machine.execSbusWrite dt req s
  | .tempPoll dt poll => Sys2Proof.Machine.execTempPoll dt poll s
  | .pmicAlert dt dimm => Sys2Proof.Machine.execPmicAlert dt dimm s
  | .hello dt port frame => Sys2Proof.Machine.execHello dt port frame s
  | .helloTimer dt => Sys2Proof.Machine.execHelloTimer dt s
  | .memberTimeout dt pos => Sys2Proof.Machine.execMemberTimeout dt pos s
  | .haspTime dt port frame rx => Sys2Proof.Machine.execHaspTime dt port frame rx s
  | .haspTimeTimer dt => Sys2Proof.Machine.execHaspTimeTimer dt s
  | .commit dt port frame => Sys2Proof.Machine.execCommit dt port frame s
  | .verdict dt port frame => Sys2Proof.Machine.execVerdict dt port frame s
  | .commitVerdictDeadline dt => Sys2Proof.Machine.execCommitVerdictDeadline dt s
  | .commitFire dt begun => Sys2Proof.Machine.execCommitFire dt begun s
  | .tunRead dt req port => Sys2Proof.Machine.execTunRead dt req port s
  | .tunWrite dt req port => Sys2Proof.Machine.execTunWrite dt req port s
  | .tunReq dt port frame => Sys2Proof.Machine.execTunReq dt port frame s
  | .tunRsp dt port frame => Sys2Proof.Machine.execTunRsp dt port frame s
  | .tunnelTimeout dt port => Sys2Proof.Machine.execTunnelTimeout dt port s
  | .haspLinkDown dt port => Sys2Proof.Machine.execHaspLinkDown dt port s
  | .gpioEdge dt pin => Sys2Proof.Machine.execGpioEdge dt pin s
  | .bringUpPhase dt copies sizes life dimms => Sys2Proof.Machine.execBringUpPhase dt copies sizes life dimms s
  | .enumeratePortStep dt port loopOf => Sys2Proof.Machine.execEnumeratePortStep dt port loopOf s
  | .defaultWaitExpiry dt => Sys2Proof.Machine.execDefaultWaitExpiry dt s
  | .contentChange dt => Sys2Proof.Machine.execContentChange dt s
  | .version dt => Sys2Proof.Machine.execVersion dt s
  | .bootStatus dt => Sys2Proof.Machine.execBootStatus dt s
  | .enumerate dt => Sys2Proof.Machine.execEnumerate dt s
  | .automap dt => Sys2Proof.Machine.execAutomap dt s
  | .stopDefault dt => Sys2Proof.Machine.execStopDefault dt s
  | .startDefault dt => Sys2Proof.Machine.execStartDefault dt s
  | .retrain dt dimms => Sys2Proof.Machine.execRetrain dt dimms s
  | .compositionEnd dt cv => Sys2Proof.Machine.execCompositionEnd dt cv s
  | .headTimeAtPartner dt port frame => Sys2Proof.Machine.execHeadTimeAtPartner dt port frame s
  | .mediaLinkUp dt port => Sys2Proof.Machine.execMediaLinkUp dt port s
  | .mediaLinkDown dt port => Sys2Proof.Machine.execMediaLinkDown dt port s
  | .haspLinkUp dt port => Sys2Proof.Machine.execHaspLinkUp dt port s
  | .perstDeassert dt => Sys2Proof.Machine.execPerstDeassert dt s
  | .pcieLinkUp dt speed width => Sys2Proof.Machine.execPcieLinkUp dt speed width s
  | .mspiCsHigh dt bits => Sys2Proof.Machine.execMspiCsHigh dt bits s
  | .sbusTransferDone dt data nack => Sys2Proof.Machine.execSbusTransferDone dt data nack s
  | .flashFifoLevel dt line => Sys2Proof.Machine.execFlashFifoLevel dt line s
  | .frefReturn dt => Sys2Proof.Machine.execFrefReturn dt s
  | .gpioPulseEnd dt pin => Sys2Proof.Machine.execGpioPulseEnd dt pin s

end Sys2Proof.Machine
end

