-- ==== Sys2Proof/Safety.lean ====
section
/-! DEFINITION. What counts as a safe state and a safe step, in the terms that claims use. -/
namespace Sys2Proof.Machine

/-- R63, R344: what the block drives at its pins and towards the host agrees with its registers. -/
def State.Settled (s : State) : Prop := s.out = s.outputs

/-- DRAM and the frame vault are in the one canonical form. -/
def State.MemoryWf (s : State) : Prop := Memory.wf s.dram ∧ Memory.wf s.vault.bytes

/-- The outcome is a next state, neither a fault nor a refusal. -/
def Completes (o : Host.Outcome State Fault Refusal) : Prop := ∃ t, o = .next t

/-- Everything but the active registers, what the bus carries, what goes out at pins and to the host, wall time and the
free values drawn: shadow copies, memory, every unit's state. -/
def State.rest (s : State) : State :=
  { s with pending := [], now := 0, free := 0, bus := [], regs := [], pulses := [], tx := [], out := {},
           pcie := { s.pcie with pba := 0 } }

/-- The frame of a command that writes registers alone: no active register but those listed has changed, and nothing of
`State.rest`, memory included. -/
def OnlyRegs (s t : State) (offs : List Nat) : Prop := (∀ off, off ∉ offs → t.reg off = s.reg off) ∧ t.rest = s.rest

/-- Every byte of DRAM and of the frame vault reads as before, poisoned or sound as before. -/
def SameMemory (s t : State) : Prop :=
  (∀ k, mget t.dram k 0 = mget s.dram k 0) ∧ (∀ a, t.vb a = s.vb a) ∧ t.poison = s.poison

/-- No active register but those listed has changed. -/
def SameRegs (s t : State) (offs : List Nat) : Prop := ∀ off, off ∉ offs → t.reg off = s.reg off

/-- R279: the registers of a channel that a request to it may change: it ends a self-refresh or an entry into one. -/
def touchRegs (c : Nat) : List Nat := [Reg.mcSrStat c, Reg.mcSrAbortCnt c, Reg.mcStat c]

/-- R234: the wire of a port carries a frame that has begun by a time: the port takes no decision before its end. -/
def State.wireBusy (s : State) (p now : Nat) : Bool := (s.prt p).wire.any fun w => w.start ≤ now * 10

/-- R19-R21: nothing runs that the Ward charges: no canvas and no layer is enabled, no flow and no reservation stands, no Tumblers
are in force, and the set point in force is enabled and trained. -/
def State.Unloaded (s : State) : Prop :=
  (∀ cv : Fin 4, s.bit (Reg.cvMode cv) 0 = false) ∧ (∀ n : Fin 64, s.bit (Reg.layCtrl n) 0 = false) ∧ s.flows = [] ∧
    s.rsv = [] ∧ s.runCount = 0 ∧ s.bit Reg.memFspCtrl (8 + s.fld Reg.memFspStat 1 0) = true ∧
    s.fspTrained (s.fld Reg.memFspStat 1 0) = true

/-- One shadowed register alone is pending, with a value, on a page that takes part in the applies of a group of a mask; no
canvas is live, and nothing is armed or still applies. -/
def State.OneWaits (s : State) (off : Nat) (v : Word) (mask : Nat) : Prop :=
  s.shadow = [(off, some v)] ∧ s.schedSh = [] ∧ s.shaperSh = [] ∧ s.pgEn (off / 4096) = true ∧
    mask.testBit (s.groupOf (off / 4096)) = true ∧ s.canvases = [] ∧ s.latch.armed = [] ∧ s.latch.applying = []

end Sys2Proof.Machine
end

