-- ==== Sys2Proof/Certificates/Slice0/Obligations.lean ====
section
/-! DEFINITION. The statements for the provers. -/
open Sys2Proof Sys2Proof.Machine

/-! ### Steps and the whole block -/

/-- A step runs the command at the front of the queue on the state with the queue's rest; an empty queue idles (the model's
choice, notes/assumptions/1). -/
def Obligations.StepRunsTheFrontCommand : Prop :=
  (∀ (c : Instr) (r : List Instr) (s : State), s.pending = c :: r → step s = exec c { s with pending := r }) ∧
  (∀ s : State, s.pending = [] → step s = .next s)

/-- Every command, with any operands, in every state ends in a next state: none stops with a fault or a refusal. -/
def Obligations.NoCommandStopsTheBlock : Prop :=
  ∀ (c : Instr) (s : State), Completes (exec c s)

/-- R63, R344: every step leaves interrupt sources, MSI-X vectors, the management SPI interrupt and FAULT_N as the registers
say, whatever command ran. -/
def Obligations.OutputsFollowRegisters : Prop :=
  ∀ s t : State, s.Settled → step s = .next t → t.Settled

/-- R48, R390, R393: what reset leaves: the Turnkey in phase 1, FAULT_N low, PLL0 locked, no canvas live, no page locked, every
tile entry FREE, no interrupt source enabled, frame counters at 0, no command waiting (the empty queue is the model's own, notes/assumptions/1; PLL0 LOCKED is its reading, notes/assumptions/11). The invariants hold there: outputs follow the registers,
and memory is canonical. -/
def Obligations.ResetLeaves : Prop :=
  State.reset.Settled ∧ State.reset.MemoryWf ∧
  State.reset.fld Reg.mboxStat 23 16 = 1 ∧ State.reset.out.faultN = true ∧ State.reset.bit (Reg.pllStat 0) 28 = true ∧
  State.reset.anyLive = false ∧ (∀ page : Fin 512, State.reset.locked page = false) ∧
  (∀ n, (State.reset.tile n).state = .free) ∧ State.reset.rn Reg.devIrqEn = 0 ∧
  (∀ cv : Fin 4, State.reset.rn (Reg.cvFrameCnt cv) = 0) ∧ State.reset.pending = []

/-- R8, R354: `dt` ns that pass before a command move wall time on by as much, modulo 2^64; time alone changes no register, no
unit and no command that waits. -/
def Obligations.TimePassesAlone : Prop :=
  ∀ (s : State) (dt : Nat), (s.tick dt).now = (s.now + dt) % 2 ^ 64 ∧ OnlyRegs s (s.tick dt) [] ∧
    (s.tick dt).pending = s.pending

/-! ### Registers (R41-R51) -/

/-- R46, R48: REGISTER_WRITE of a whole word to a register without conditions (MCn.LAT_TGT) lands as written and changes
nothing else; a narrow one is refused with KIND 4; one to a page that is not implemented sets DEV.STAT.RSVD_ACCESS alone. -/
def Obligations.RegisterWriteLandsOrIsRefused : Prop :=
  (∀ (s : State) (dt req : Nat) (n : Fin 8) (v : Word), s.peerRefused req = false →
    ∃ t, exec (.registerWrite dt req (Reg.mcLatTgt n) 4 (v.setWidth 64)) s = .next t ∧ t.reg (Reg.mcLatTgt n) = v ∧
      OnlyRegs s t [Reg.mcLatTgt n]) ∧
  (∀ (s : State) (dt req size : Nat) (n : Fin 8) (v : BitVec 64), s.peerRefused req = false → size = 1 ∨ size = 2 →
    ∃ t, exec (.registerWrite dt req (Reg.mcLatTgt n) size v) s = .next t ∧ t.bit (pgViol (0x100 + n)) 31 = true ∧
      t.fld (pgViol (0x100 + n)) 14 12 = 4 ∧ t.fld (pgViol (0x100 + n)) 11 0 = 0x068 ∧ t.bit (pgStat (0x100 + n)) 0 = true ∧
      OnlyRegs s t [pgViol (0x100 + n), pgStat (0x100 + n)]) ∧
  (∀ (s : State) (dt req off : Nat) (v : BitVec 64), s.peerRefused req = false → pageKind (off / 4096) = none →
    ∃ t, exec (.registerWrite dt req off 4 v) s = .next t ∧ t.bit Reg.devStat 1 = true ∧ OnlyRegs s t [Reg.devStat])

/-- R46, R49, R253: a write of a new value to the lockable field SCHED.ETYPE: refused with KIND 1 while the page is locked, and the
refusal is counted in FAULT.LOCK_VIOL_COUNT and shown in DEV.STAT.LOCK_VIOL; on an unlocked page refused with KIND 3 for a value
below 0x0600, 0x8100 and 0x88A8, and landed for any other. A value that the field holds already is not checked. -/
def Obligations.LockedFieldKeepsItsValue : Prop :=
  (∀ (s : State) (dt req : Nat) (v : Word), s.peerRefused req = false → s.locked 0x0E0 = true →
    v.toNat % 65536 ≠ s.fld Reg.schedEtype 15 0 →
    ∃ t, exec (.registerWrite dt req Reg.schedEtype 4 (v.setWidth 64)) s = .next t ∧ t.reg Reg.schedEtype = s.reg Reg.schedEtype ∧
      t.fld (pgViol 0x0E0) 14 12 = 1 ∧ t.bit Reg.devStat 0 = true ∧
      t.rn Reg.faultLockViolCount = min (s.rn Reg.faultLockViolCount + 1) 0xFFFFFFFF ∧ SameMemory s t) ∧
  (∀ (s : State) (dt req : Nat) (v : Word), s.peerRefused req = false → s.locked 0x0E0 = false →
    v.toNat % 65536 ≠ s.fld Reg.schedEtype 15 0 →
    v.toNat % 65536 < 0x0600 ∨ v.toNat % 65536 = 0x8100 ∨ v.toNat % 65536 = 0x88A8 →
    ∃ t, exec (.registerWrite dt req Reg.schedEtype 4 (v.setWidth 64)) s = .next t ∧ t.reg Reg.schedEtype = s.reg Reg.schedEtype ∧
      t.fld (pgViol 0x0E0) 14 12 = 3 ∧ OnlyRegs s t [pgViol 0x0E0, pgStat 0x0E0]) ∧
  (∀ (s : State) (dt req : Nat) (v : Word), s.peerRefused req = false → s.locked 0x0E0 = false →
    0x0600 ≤ v.toNat % 65536 → v.toNat % 65536 ≠ 0x8100 → v.toNat % 65536 ≠ 0x88A8 →
    ∃ t, exec (.registerWrite dt req Reg.schedEtype 4 (v.setWidth 64)) s = .next t ∧ t.fld Reg.schedEtype 15 0 = v.toNat % 65536 ∧
      OnlyRegs s t [Reg.schedEtype]) ∧
  (∀ (s : State) (dt req : Nat) (v : Word), s.peerRefused req = false → v.toNat % 65536 = s.fld Reg.schedEtype 15 0 →
    ∃ t, exec (.registerWrite dt req Reg.schedEtype 4 (v.setWidth 64)) s = .next t ∧ OnlyRegs s t [])

/-- R46, R50: a write to a shadowed register (SCNn.PORTS_LO) goes to its shadow copy, which makes it pending, and leaves every
active register; while its page is held the write is refused with KIND 2 and WARD.STAT shows it. -/
def Obligations.ShadowedWriteWaits : Prop :=
  (∀ (s : State) (dt req : Nat) (n : Fin 4) (v : Word), s.peerRefused req = false → s.pageHeld (0x90 + n) = false →
    ∃ t, exec (.registerWrite dt req (Reg.scnPortsLo n) 4 (v.setWidth 64)) s = .next t ∧ t.sh (Reg.scnPortsLo n) = v ∧
      t.isPending (Reg.scnPortsLo n) = true ∧ SameRegs s t [] ∧
      (∀ off, off ≠ Reg.scnPortsLo n → t.sh off = s.sh off) ∧ SameMemory s t) ∧
  (∀ (s : State) (dt req : Nat) (n : Fin 4) (v : Word), s.peerRefused req = false → s.pageHeld (0x90 + n) = true →
    ∃ t, exec (.registerWrite dt req (Reg.scnPortsLo n) 4 (v.setWidth 64)) s = .next t ∧ t.fld (pgViol (0x90 + n)) 14 12 = 2 ∧
      t.bit Reg.wardStat 4 = true ∧ OnlyRegs s t [pgViol (0x90 + n), pgStat (0x90 + n), Reg.wardStat])

/-- R47: a read of an RC register returns its value and clears its RC bits together: DEV.STAT, whose two bits are all RC, and
GPIO.IRQ; a read of a register without RC bits returns it and changes nothing. -/
def Obligations.ReadClears : Prop :=
  ∀ (s : State) (dt req : Nat), s.peerRefused req = false → (∀ key, mget s.hiSnap key none = none) →
    (∃ t, exec (.readClear dt req Reg.devStat 4) s = .next t ∧ t.bus = [s.rn Reg.devStat % 4] ∧
      t.rn Reg.devStat % 4 = 0 ∧ OnlyRegs s t [Reg.devStat]) ∧
    (∃ t, exec (.readClear dt req Reg.gpioIrq 4) s = .next t ∧ t.bus = [s.rn Reg.gpioIrq % 65536] ∧
      t.rn Reg.gpioIrq % 65536 = 0 ∧ OnlyRegs s t [Reg.gpioIrq]) ∧
    (∃ t, exec (.readClear dt req (Reg.mcLatTgt 0) 4) s = .next t ∧ t.bus = [s.rn (Reg.mcLatTgt 0)] ∧ OnlyRegs s t [])

/-- R44, R51: PG_LOCK_WRITE locks an implemented page, and writing 0 has no effect; PG_LATCH_WRITE gives the page another group and EN
under its write mask; on a page with shadowed registers it is refused with KIND 2 while the old or the new group is held, and the
page stays. -/
def Obligations.PageHeadersTakeWrites : Prop :=
  (∀ (s : State) (dt req page : Nat) (v : Word), (pageKind page).isSome →
    ∃ t, exec (.pgLockWrite dt req page v) s = .next t ∧ t.locked page = (s.locked page || v.getLsbD 0) ∧
      OnlyRegs s t [pgLock page]) ∧
  (∀ (s : State) (dt req page g : Nat) (en : Bool), (pageKind page).isSome → g < 16 →
    shadowedPage page = false ∨ (s.heldMask.testBit (s.groupOf page) = false ∧ s.heldMask.testBit g = false) →
    ∃ t, exec (.pgLatchWrite dt req page (BitVec.ofNat 32 (g + (if en then 16 else 0) + 0x001F0000))) s = .next t ∧
      t.groupOf page = g ∧ t.pgEn page = en ∧ OnlyRegs s t [pgLatch page]) ∧
  (∀ (s : State) (dt req page g : Nat), shadowedPage page = true → g < 16 →
    s.heldMask.testBit (s.groupOf page) = true ∨ s.heldMask.testBit g = true →
    ∃ t, exec (.pgLatchWrite dt req page (BitVec.ofNat 32 (g + 0x000F0000))) s = .next t ∧ t.groupOf page = s.groupOf page ∧
      t.fld (pgViol page) 14 12 = 2 ∧ OnlyRegs s t [pgViol page, pgStat page])

/-! ### Resets (R390-R394) -/

/-- R390, R391: POWER_ON_RESET and RESET_N lose DRAM, vault, tile table, locks, canvases and chain ports, sample the straps, start
the Turnkey in phase 1 and hold FAULT_N low. -/
def Obligations.ColdResets : Prop :=
  ∀ (s : State) (dt straps : Nat) (vbat : Bool) (c : Instr), c = .resetN dt straps ∨ c = .powerOnReset dt straps vbat →
    ∃ t, exec c s = .next t ∧ t.dram = [] ∧ t.vault.bytes = [] ∧ t.tiles = [] ∧ t.canvases = [] ∧ t.ports = [] ∧
      (∀ page : Fin 512, t.locked page = false) ∧ t.fld Reg.mboxStat 23 16 = 1 ∧ t.out.faultN = true ∧
      t.fld Reg.gpioStraps 7 0 = straps % 256 ∧ t.fld (Reg.haspRing 0) 3 0 = straps / 8 % 16 ∧
      t.rn Reg.devIrqEn = 0 ∧ t.pending = s.pending

/-- R390, R392: SOFT_RESET keeps DRAM with its poison, wall time, every page lock, the registers of the pages FAULT, TIME, MTRN and
PCIE and what the fault manager knows; it empties the frame vault, the tile table, the canvases, the Latch and every shadow copy. -/
def Obligations.SoftResetKeeps : Prop :=
  ∀ (s : State) (dt req : Nat), ∃ t, exec (.softReset dt req) s = .next t ∧ t.dram = s.dram ∧ t.poison = s.poison ∧
    t.now = (s.now + dt) % 2 ^ 64 ∧ t.faults = s.faults ∧ (∀ page, t.locked page = s.locked page) ∧
    (∀ off, off / 4096 ∈ [0x004, 0x005, 0x109, 0x188] → t.reg off = s.reg off) ∧ t.vault.bytes = [] ∧ t.tiles = [] ∧ t.canvases = [] ∧
    t.latch = {} ∧ t.shadow = [] ∧ t.pending = s.pending

/-! ### The PCIe endpoint and the management SPI (R363-R366) -/

/-- R363, R390, R394: a PCIe reset clears the endpoint and its page, but for the page lock and BAR2_SIZE, and leaves the wall; PERST# deasserted after phase 2
makes the endpoint ready; a link that trains shows its speed and width; a configuration request before READY gets no data, and
afterwards a read of the identification returns vendor and device. -/
def Obligations.PcieEndpoint : Prop :=
  (∀ (s : State) (dt : Nat) (kind : Fin 3), ∃ t, exec (.pcieReset dt kind) s = .next t ∧
    (∀ off, off / 4096 ≠ 0x188 → t.reg off = s.reg off) ∧ t.locked 0x188 = s.locked 0x188 ∧
    (∀ off, off / 4096 = 0x188 → off ∉ [pgLock 0x188, Reg.pcieBar2Size, Reg.pcieStat] → t.reg off = resetWord off) ∧
    t.reg Reg.pcieBar2Size = s.reg Reg.pcieBar2Size ∧ t.pcie.cfg = [] ∧ t.pcie.table = [] ∧ t.pcie.msixOn = false ∧ SameMemory s t ∧
    t.canvases = s.canvases ∧ t.ports = s.ports ∧ t.tiles = s.tiles ∧ t.turnkey = s.turnkey) ∧
  (∀ (s : State) (dt : Nat), s.turnkey.phases.testBit 2 = true → ∃ t, exec (.perstDeassert dt) s = .next t ∧
    t.pcie.perst = true ∧ t.bit Reg.pcieStat 9 = true ∧ SameRegs s t [Reg.pcieStat] ∧ SameMemory s t) ∧
  (∀ (s : State) (dt speed width : Nat), s.pcie.perst = true → 1 ≤ speed → speed ≤ 5 → width ∈ [1, 2, 4, 8] →
    ∃ t, exec (.pcieLinkUp dt speed width) s = .next t ∧ t.fld Reg.pcieStat 2 0 = speed ∧ t.fld Reg.pcieStat 7 4 = width ∧
      t.bit Reg.pcieStat 8 = true ∧ OnlyRegs s t [Reg.pcieStat]) ∧
  (∀ (s : State) (dt : Nat), s.bit Reg.pcieStat 9 = true →
    ∃ t, exec (.configurationRequest dt 0 none) s = .next t ∧ t.bus = [0x82401F3C] ∧ OnlyRegs s t []) ∧
  (∀ (s : State) (dt off : Nat) (data : Option Word), s.bit Reg.pcieStat 9 = false →
    ∃ t, exec (.configurationRequest dt off data) s = .next t ∧ t.bus = [] ∧ OnlyRegs s t [])

/-- R364: while memory does not stand still, the BAR2 window writes and reads DRAM at BASE + offset: a byte written there stands at
that place, and every other byte stays; a read returns the bytes with the EP flag 0 where no burst is poisoned, and changes no
memory. Either may end a self-refresh of a channel it reaches (R279), and a read shows an unmapped burst in MEM.STAT. -/
def Obligations.Bar2ReachesMemory : Prop :=
  (∀ (s : State) (dt req off : Nat) (b : Byte) (c r k : Nat), s.peerRefused req = false → off < 2 ^ (30 + s.bar2Sel) →
    s.memStill = false → s.place (s.bar2Addr off) = some (c, r, k) → s.rankLost c r = false →
    ∃ t, exec (.bar2Access dt req off (some [b]) 1) s = .next t ∧ mget t.dram k 0 = b ∧
      (∀ j, j ≠ k → mget t.dram j 0 = mget s.dram j 0) ∧ SameRegs s t (touchRegs c) ∧
      t.vault = s.vault) ∧
  (∀ (s : State) (dt req off len : Nat), s.peerRefused req = false → off < 2 ^ (30 + s.bar2Sel) →
    s.memStill = false → s.anyPoison (s.bar2Addr off) len = false →
    ∃ t, exec (.bar2Access dt req off none len) s = .next t ∧
      t.bus = 0 :: (List.range len).map (fun i => (s.rdByte0
        ((s.fld Reg.pcieBar2Size 18 8 * 2 ^ 30 / 2 ^ (30 + s.bar2Sel) * 2 ^ (30 + s.bar2Sel) + off) % 2 ^ 41 + i)).toNat) ∧
      SameRegs s t (Reg.memStat :: (List.range 8).flatMap touchRegs) ∧ SameMemory s t)

/-! ### The Keeper: supply, budgets, domains (R305-R326) -/

/-- R305, R319: supply states: below 18.0 V for 1 ms the envelope of a device without losses falls to 110 W, PBUDGET follows and the
Ward re-admits; at 18.5 V for 1 s the envelope comes back to 185 W; above 60 V SENS.STAT shows it and nothing else changes. PBUDGET is the smaller of envelope and Keeper's budget. -/
def Obligations.SupplyStatesSetTheEnvelope : Prop :=
  (∀ (s : State) (dt mv : Nat), s.keep.vinLow = false → mv < 18000 →
    ∃ t, exec (.vinLow dt mv) s = .next t ∧ t.keep.vinLow = true ∧ t.bit Reg.keepStat 8 = true ∧ t.bit Reg.sensStat 2 = true ∧
      t.rn Reg.wardPbudget = min t.envelope t.keepBudget ∧ (s.faults.lost = [] → t.envelope = 11000) ∧
      (t.envelope < s.envelope → t.ward.readmit.isSome) ∧ SameMemory s t) ∧
  (∀ (s : State) (dt mv : Nat), s.keep.vinLow = true → 18500 ≤ mv →
    ∃ t, exec (.vinNormal dt mv) s = .next t ∧ t.keep.vinLow = false ∧ t.bit Reg.keepStat 9 = true ∧
      t.rn Reg.wardPbudget = min t.envelope t.keepBudget ∧ (s.faults.lost = [] → t.envelope = 18500) ∧
      (s.envelope < t.envelope → t.ward.readmit.isSome) ∧ SameMemory s t) ∧
  (∀ (s : State) (dt mv : Nat), 60000 < mv →
    ∃ t, exec (.vinOver dt mv) s = .next t ∧ t.bit Reg.sensStat 3 = true ∧
      t.fld Reg.sensVin 15 0 = min 65535 (mv / 10) ∧ OnlyRegs s t [Reg.sensVin, Reg.sensStat])

/-- R255, R308, R309: a power domain that a user needs starts to wake, but for that of a memory channel that is not enabled; it is on when its wake time has elapsed; idle, it drains, and
goes off once no running DMA channel uses it. -/
def Obligations.DomainsWakeAndDrain : Prop :=
  (∀ (s : State) (dt : Nat) (d : Fin 53), s.keep.emerg = false → s.domOn d = false → s.keep.waking.contains d.val = false →
    (9 ≤ d.val → d.val < 17 → s.bit (Reg.mcCtrl (d.val - 9)) 0 = true) →
    ∃ t, exec (.domainNeed dt d) s = .next t ∧ t.keep.waking = s.keep.waking ++ [d.val] ∧ t.domOn d = false ∧ SameMemory s t) ∧
  (∀ (s : State) (dt : Nat) (c : Fin 8) (d : Fin 53), d.val = 9 + c.val → s.bit (Reg.mcCtrl c) 0 = false →
    ∃ t, exec (.domainNeed dt d) s = .next t ∧ OnlyRegs s t []) ∧
  (∀ (s : State) (dt : Nat) (d : Fin 53), s.keep.waking.contains d.val = true → 9 ≤ d.val ∨ s.keep.move = none →
    ∃ t, exec (.domainWakeDone dt d) s = .next t ∧ t.domOn d = true ∧ t.keep.waking = s.keep.waking.filter (· ≠ d.val) ∧
      SameMemory s t) ∧
  (∀ (s : State) (dt : Nat) (d : Fin 53), s.domOn d = true → s.keep.draining.contains d.val = false →
    s.bit Reg.keepCtrl 2 = false → (s.tick dt).mayOff d = true →
    ∃ t, exec (.domainIdle dt d) s = .next t ∧ t.keep.draining = s.keep.draining ++ [d.val] ∧ t.domOn d = true ∧
      SameMemory s t) ∧
  (∀ (s : State) (dt : Nat) (d : Fin 53), s.keep.draining.contains d.val = true →
    (∀ c, c < 64 → ((s.tick dt).usesDomain c d && (s.tick dt).dmaState c = 1) = false) →
    ∃ t, exec (.domainDrained dt d) s = .next t ∧ t.domOn d = false ∧
      t.keep.draining = s.keep.draining.filter (· ≠ d.val) ∧ SameMemory s t)

/-- R315-R318, R325: VCORE shows the raised voltage once reached, while Tumblers of the new plan are still off; VCOMMIT is
discarded with KIND 3 while a canvas is live, and lands otherwise; at a decision over budget or heat the Keeper holds the lowest
class of background work; a class of priority 1 to 3 held for 60 s runs for 10 s. -/
def Obligations.KeeperDecides : Prop :=
  (∀ (s : State) (dt : Nat) (begun : List Nat) (m : Move), s.keep.move = some m → m.wait = none →
    let u := (s.tick dt).setFld Reg.keepVcore 6 0 (s.fld Reg.keepVcore 14 8)
    (u.planTumblers m.count m.volt).all u.domOn = false →
    ∃ t, exec (.vcoreReached dt begun) s = .next t ∧ t.fld Reg.keepVcore 6 0 = s.fld Reg.keepVcore 14 8 ∧
      t.fld Reg.keepTmbRun 22 16 = s.fld Reg.keepTmbRun 22 16 ∧ OnlyRegs s t [Reg.keepVcore]) ∧
  (∀ (s : State) (dt req : Nat) (v : Word), s.anyLive = true →
    ∃ t, exec (.vcommitWrite dt req v) s = .next t ∧ t.reg Reg.keepVcommit = s.reg Reg.keepVcommit ∧
      t.fld (pgViol 0x003) 14 12 = 3 ∧ OnlyRegs s t [pgViol 0x003, pgStat 0x003]) ∧
  (∀ (s : State) (dt req : Nat) (v : Word), s.anyLive = false → s.locked 0x003 = false →
    ∃ t, exec (.vcommitWrite dt req v) s = .next t ∧ t.fld Reg.keepVcommit 6 0 = v.toNat % 128 ∧ SameMemory s t) ∧
  (∀ (s : State) (dt : Nat) (begun : List Nat), s.anyLive = false → (s.now + dt) % 2 ^ 64 % 10000000 = 0 →
    s.keep.move = none → s.keep.emerg = false → s.wantedPoint = none → s.runCount = 0 → s.bit Reg.keepCtrl 1 = true →
    s.bit Reg.keepCtrl 4 = false → s.keep.held = [] → s.keep.forced = [] →
    (s.validTemps.any (s.tlimit < ·) = true ∨ s.bgBudget < s.fld Reg.sensPin 15 0) →
    ∃ t, exec (.decisionTimer dt begun) s = .next t ∧ t.keep.held = [5] ∧ t.bit Reg.keepStat 2 = true ∧ SameMemory s t) ∧
  (∀ (s : State) (dt t0 : Nat) (c : Fin 4), mget s.keep.heldFrom c none = some t0 → c ≠ 0 →
    s.keep.held.contains c.val = true → s.keep.emerg = false → t0 + 60000000000 ≤ (s.now + dt) % 2 ^ 64 →
    ∃ t, exec (.bgForced dt c) s = .next t ∧ t.bit Reg.keepStat 3 = true ∧ t.keep.held = s.keep.held ∧
      mget t.keep.forced c none = some ((s.now + dt) % 2 ^ 64 + 10000000000) ∧ SameRegs s t [Reg.keepStat] ∧ SameMemory s t)

/-- R311, R326: SENSOR_SAMPLE shows supply voltage, current and power and keeps the readings in -55 to +150 °C; one outside is a
failure, shown in SENS.STAT. -/
def Obligations.SensorsAreShown : Prop :=
  ∀ (s : State) (dt : Nat) (temps : List Int) (vin iin pin : Nat), s.keep.hot127 = false →
    ∃ t, exec (.sensorSample dt temps vin iin pin) s = .next t ∧ t.fld Reg.sensVin 15 0 = min 65535 vin ∧
      t.fld Reg.sensIin 15 0 = min 65535 iin ∧ t.fld Reg.sensPin 15 0 = min 65535 pin ∧
      t.keep.temps = (List.range 40).map (fun i => sensorOk (temps.getD i (-1000))) ∧
      ((∃ i, i < 40 ∧ sensorOk (temps.getD i (-1000)) = none) → t.bit Reg.sensStat 4 = true) ∧
      t.keep.emerg = s.keep.emerg ∧ SameMemory s t

/-- R312, R313: a sensor over the limit for a second cuts the thermal budget to 95 % of PDEMAND and asks for a re-admission; ten
cool seconds raise it by 5 % of PLIMIT; two samples in a row at 127 °C or more begin an emergency, which turns Tumblers off and
ends every composition; ten seconds at T - 10 °C or below end it. -/
def Obligations.HeatCutsTheBudget : Prop :=
  (∀ (s : State) (dt t0 : Nat), s.keep.hotFrom = some t0 → s.keep.emerg = false → t0 + 1000000000 ≤ (s.now + dt) % 2 ^ 64 →
    ∃ t, exec (.thermalCut dt) s = .next t ∧ t.keep.thermal = some (95 * s.fld Reg.wardPdemand 15 0 / 100) ∧
      t.bit Reg.keepStat 5 = true ∧ t.rn Reg.wardPbudget = min t.envelope t.keepBudget ∧ t.ward.readmit.isSome ∧
      SameMemory s t) ∧
  (∀ (s : State) (dt t0 b : Nat), s.keep.coolFrom = some t0 → s.keep.thermal = some b → s.keep.emerg = false →
    t0 + 10000000000 ≤ (s.now + dt) % 2 ^ 64 →
    ∃ t, exec (.thermalBudgetRise dt) s = .next t ∧
      t.keep.thermal = (if s.fld Reg.keepPlimit 15 0 ≤ b + 5 * s.fld Reg.keepPlimit 15 0 / 100 then none
        else some (b + 5 * s.fld Reg.keepPlimit 15 0 / 100)) ∧
      t.rn Reg.wardPbudget = min t.envelope t.keepBudget ∧ SameMemory s t) ∧
  (∀ (s : State) (dt i : Nat) (temps : List Int) (vin iin pin : Nat), s.keep.hot127 = true → s.keep.emerg = false → i < 40 →
    2032 ≤ temps.getD i (-1000) → temps.getD i (-1000) ≤ 2400 →
    ∃ t, exec (.sensorSample dt temps vin iin pin) s = .next t ∧ t.keep.emerg = true ∧ t.bit Reg.keepStat 6 = true ∧
      t.keep.thermal = some 273 ∧ (∀ d, d < 9 → t.domOn d = false) ∧
      (∀ cv, cv < 4 → (t.cv cv).comp.all (·.done) = true)) ∧
  (∀ (s : State) (dt t0 : Nat), s.keep.endFrom = some t0 → s.keep.emerg = true → t0 + 10000000000 ≤ (s.now + dt) % 2 ^ 64 →
    ∃ t, exec (.emergencyEnd dt) s = .next t ∧ t.keep.emerg = false ∧ t.keep.thermal = none ∧ t.bit Reg.keepStat 7 = true ∧
      SameMemory s t)

/-- R323-R325: energy counts up to each whole second; at the end of the energy day it starts again at 0 with the energy term at
65535; without a valid calendar a schedule minute only reports it; with one, an entry of the minute that has not fired today acts; a
write to SCHED_DATA waits in the addressed word's shadow. -/
def Obligations.EnergyAndSchedule : Prop :=
  (∀ (s : State) (dt : Nat), (s.now + dt) % 2 ^ 64 % 1000000000 = 0 →
    ∃ t, exec (.energyPace dt) s = .next t ∧ t.keep.energyAt = (s.now + dt) % 2 ^ 64 ∧ t.keep.paceAt = (s.now + dt) % 2 ^ 64 ∧
      t.keep.paceEnergy = 0 ∧
      t.keep.energy = s.keep.energy + (if s.bit Reg.keepCtrl 6 then s.scopePower * ((s.now + dt) % 2 ^ 64 - s.keep.energyAt) else 0) ∧
      SameMemory s t) ∧
  (∀ (s : State) (dt : Nat), s.bit Reg.keepCtrl 6 = true →
    (if (s.tick dt).calValid then (s.tick dt).localSec % 86400 = 0
      else (s.keep.dayFrom.any fun t => t + 86400000000000 ≤ (s.now + dt) % 2 ^ 64) = true) →
    ∃ t, exec (.dayRoll dt) s = .next t ∧ t.keep.energy = 0 ∧ t.keep.ke = 65535 ∧ t.rn Reg.keepEnergyUsed = 0 ∧
      t.keep.dayFrom = some ((s.now + dt) % 2 ^ 64) ∧ t.bit Reg.keepStat 13 = true ∧ SameMemory s t) ∧
  (∀ (s : State) (dt : Nat), s.bit Reg.keepCtrl 5 = true → s.calValid = false →
    ∃ t, exec (.scheduleMinute dt) s = .next t ∧ t.bit Reg.keepStat 15 = true ∧ OnlyRegs s t [Reg.keepStat]) ∧
  (∀ (s : State) (dt : Nat), s.bit Reg.keepCtrl 5 = true → s.calValid = true → (s.tick dt).localSec % 60 = 0 →
    (∀ e < 64, 1 ≤ e → (s.schedWord e 0).testBit 31 = false) → (s.schedWord 0 0).testBit 31 = true →
    bitsOf (s.schedWord 0 0) 10 0 = ((s.tick dt).localMin % 1440).toNat →
    dayMatches (s.schedWord 0 0) (s.tick dt).localDay = true → bitsOf (s.schedWord 0 0) 23 21 = 3 →
    mget s.keep.firedOn 0 none ≠ some (s.tick dt).localDay →
    ∃ t, exec (.scheduleMinute dt) s = .next t ∧ t.keep.schedEnergy = some (bitsOf (s.schedWord 0 1) 15 0) ∧
      mget t.keep.firedOn 0 none = some (s.tick dt).localDay ∧ t.bit Reg.keepStat 14 = true ∧ SameMemory s t) ∧
  (∀ (s : State) (dt req : Nat) (v : Word), s.pageHeld 0x003 = false → s.fld Reg.keepSchedIdx 6 0 < 64 →
    bitsOf v.toNat 23 21 ≤ 4 →
    ∃ t, exec (.schedDataWrite dt req v) s = .next t ∧
      mget t.schedSh (s.fld Reg.keepSchedIdx 6 0 * 2 + s.fld Reg.keepSchedIdx 7 7) none = some v ∧ t.sched = s.sched ∧
      SameRegs s t [] ∧ SameMemory s t)

/-! ### Faults (R327-R344) -/

/-- R327, R328: an error event counts one for its resource and retires it when the count passes the budget; a leak tick takes one
from every count of its class and no other. -/
def Obligations.ErrorEventsAreCounted : Prop :=
  (∀ (s : State) (dt i : Nat) (cls : Fin 7), i < resInstances cls → s.isLost (resKey cls i) = false →
    s.isRetired (resKey cls i) = false → s.resCount (resKey cls i) + 1 ≤ min 65535 (s.resBudget cls) → s.faults.lost = [] →
    ∃ t, exec (.faultEvent dt cls i) s = .next t ∧ t.resCount (resKey cls i) = s.resCount (resKey cls i) + 1 ∧
      t.bit Reg.faultStat 0 = true ∧ t.faults.retired = s.faults.retired ∧ t.faults.lost = s.faults.lost ∧ SameMemory s t) ∧
  (∀ (s : State) (dt i : Nat) (cls : Fin 7), i < resInstances cls → s.isLost (resKey cls i) = false →
    s.isRetired (resKey cls i) = false → s.resBudget cls < min 65535 (s.resCount (resKey cls i) + 1) →
    ∃ t, exec (.faultEvent dt cls i) s = .next t ∧ t.isRetired (resKey cls i) = true ∧ t.bit Reg.faultStat 1 = true) ∧
  (∀ (s : State) (dt : Nat) (cls : Fin 7), Sparse.wf (fun _ => 0) s.faults.counts → 0 < s.resLeak cls →
    (s.now + dt) % 2 ^ 64 % (s.resLeak cls * 1000000000) = 0 →
    ∃ t, exec (.leakTick dt cls) s = .next t ∧
      (∀ k, t.resCount k = if k / 128 = cls.val then s.resCount k - 1 else s.resCount k) ∧ SameRegs s t [] ∧ SameMemory s t)

/-- R333, R337: a spare phase comes on for its group; a line that the spare Tumbler finds equal is counted as passed, one where a
second try of the spare confirms it is held against the Tumbler checked. -/
def Obligations.SparesCheckAndServe : Prop :=
  (∀ (s : State) (dt g : Nat), g < 4 →
    ∃ t, exec (.phaseSpareOn dt g) s = .next t ∧ t.faults.phases = s.faults.phases.filter (· ≠ [16, 26, 31, 36].getD g 64) ∧
      SameRegs s t [] ∧ SameMemory s t) ∧
  (∀ (s : State) (dt line crc again tmb : Nat) (cv : Fin 4), s.sparing = true → s.paceCanvas = some cv.val →
    s.bit (Reg.cvMode cv) 2 = false → s.checkedLine cv line = true → s.checkedTumbler cv = some tmb →
    ∃ t, exec (.shadowCheck dt cv line crc crc again) s = .next t ∧ t.bit (Reg.tmbCheck 8) 0 = true ∧
      t.fld (Reg.tmbCheck 8) 11 8 = tmb % 16 ∧ OnlyRegs s t [Reg.tmbCheck 8]) ∧
  (∀ (s : State) (dt line live spare tmb : Nat) (cv : Fin 4), s.sparing = true → s.paceCanvas = some cv.val →
    s.bit (Reg.cvMode cv) 2 = false → s.checkedLine cv line = true → s.checkedTumbler cv = some tmb → live ≠ spare →
    s.isLost tmb = false → s.isRetired tmb = false → s.resCount tmb + 1 ≤ min 65535 (s.resBudget 0) →
    ∃ t, exec (.shadowCheck dt cv line live spare spare) s = .next t ∧ t.bit (Reg.tmbCheck 8) 1 = true ∧
      t.resCount tmb = s.resCount tmb + 1 ∧ t.bit Reg.faultStat 0 = true ∧ SameMemory s t)

/-- R341, R342, R344: a lifetime record goes to the first good block of the slot that does not hold the newest one, at an hour or by LT_NOW, unless the
checkpoint writer is at work, for which it waits; its end names the newest slot and FAULT.STAT reports it, and a failed write has
used no sequence number; LT_RESTORE takes the newer valid record of this device, refuses another device's and
ignores invalid ones; FAULT_N's hold is released while no masked status bit is set. -/
def Obligations.LifetimeRecord : Prop :=
  (∀ (s : State) (dt req slot b : Nat) (c : Instr), s.bit Reg.faultCtrl 11 = true → s.faults.ltSlot = none → s.lamp.ckpt = 0 →
    s.lamp.restoring = false → slot = (match s.faults.ltNewest with | some n => 1 - n | none => 0) →
    (s.ltBlocks slot).head? = some b →
    (c = .lifetimeWrite dt ∧ (s.faults.ltFrom.isSome ∨ (s.now + dt) % 2 ^ 64 % 3600000000000 = 0)) ∨ c = .ltNow dt req →
    ∃ t, exec c s = .next t ∧
      t.faults.ltSlot = some slot ∧ t.faults.ltFrom = none ∧ Sent.flash 1 2 (b * s.nandBlock) [] ∈ t.tx ∧
      t.lifeWord 20 = (s.lifeWord 20 + 1) % 2 ^ 32 ∧ SameRegs s t [Reg.faultCtrl] ∧ SameMemory s t) ∧
  (∀ (s : State) (dt req : Nat), s.bit Reg.faultCtrl 11 = true →
    s.faults.ltSlot.isSome = true ∨ s.lamp.ckpt ≠ 0 ∨ s.lamp.restoring = true →
    ∃ t, exec (.ltNow dt req) s = .next t ∧ t.faults.ltFrom.isSome = true ∧ t.faults.ltSlot = s.faults.ltSlot ∧
      t.bit Reg.faultCtrl 12 = true ∧ SameRegs s t [Reg.faultCtrl] ∧ SameMemory s t) ∧
  (∀ (s : State) (dt n : Nat) (ok : Bool), s.faults.ltSlot = some n → s.faults.ltFrom = none → s.lamp.waits = false →
    ∃ t, exec (.lifetimeWriteDone dt ok) s = .next t ∧ t.faults.ltSlot = none ∧
      t.faults.ltNewest = (if ok then some n else s.faults.ltNewest) ∧
      t.lifeWord 20 = (if ok then s.lifeWord 20 else (s.lifeWord 20 + 2 ^ 32 - 1) % 2 ^ 32) ∧ t.bit Reg.faultCtrl 12 = false ∧
      t.bit Reg.faultStat (if ok then 5 else 6) = true ∧ SameRegs s t [Reg.faultCtrl, Reg.faultStat] ∧ SameMemory s t) ∧
  (∀ (s : State) (dt req n : Nat) (a b l : List Byte), s.anyLive = false → ltNewer a b = some (n, l) →
    ∃ t, exec (.ltRestore dt req a b) s = .next t ∧ t.bit Reg.faultCtrl 13 = false ∧
      (ofLe (sliceB l 24 8) = Config.serial.toNat → t.faults.ltNewest = some n ∧ t.bit Reg.faultStat 7 = true) ∧
      (ofLe (sliceB l 24 8) ≠ Config.serial.toNat → t.bit Reg.faultStat 8 = true ∧ t.faults.life = s.faults.life ∧
        t.faults.journal = s.faults.journal ∧ SameRegs s t [Reg.faultStat, Reg.faultCtrl])) ∧
  (∀ (s : State) (dt req : Nat) (a b : List Byte), s.anyLive = false → ltNewer a b = none →
    ∃ t, exec (.ltRestore dt req a b) s = .next t ∧ OnlyRegs s t [Reg.faultCtrl]) ∧
  (∀ (s : State) (dt req : Nat) (v : Word), v.getLsbD 24 = true → s.rn Reg.faultStat % 1024 = 0 →
    ∃ t, exec (.faultNRelease dt req v) s = .next t ∧ t.faults.hold = false ∧ t.faults.lost = s.faults.lost ∧ SameMemory s t)

/-- R341, R342: a lifetime record that the block writes is valid when it is read back, and names this device. -/
def Obligations.LifetimeRecordReadsBack : Prop :=
  ∀ s : State, ltValid s.ltRecord = true ∧ ofLe (sliceB s.ltRecord 24 8) = Config.serial.toNat

/-! ### The PLLs (R347-R353) -/

/-- R348, R350: a hop of PLL2 or PLL3 takes the other slot and locks anew with every output low; PLL0 and PLL1 refuse one.
R349-R351, R361: a PLL that locks shows LOCKED and ends its lock; one whose stored band misses goes on as a full search; a
divider that changes makes it lock anew; a band word and FREF's loss and return are kept. R353: a PLL that loses lock counts an error event of its core and
locks anew: PLL0's loss puts TIME into holdover, PLL1's freezes memory; a relock that is not complete 400 µs after the loss retires
the core. -/
def Obligations.PllsHopLockAndRelock : Prop :=
  (∀ (s : State) (dt req slot : Nat) (n : Fin 4), 2 ≤ n.val → slot < 4 → slot ≠ s.slotOf n → s.bit (Reg.pllStat n) 29 = false →
    s.pllPowered n = true →
    ∃ t, exec (.hop dt req n (wput (s.reg (Reg.pllCtrl n)) 3 2 slot)) s = .next t ∧ t.slotOf n = slot ∧
      t.bit (Reg.pllStat n) 28 = false ∧ t.bit (Reg.pllStat n) 29 = true ∧ t.bit (Reg.pllDiv n) 13 = false ∧
      t.bit (Reg.pllDiv n) 29 = false ∧ (t.pll n).locking = some ((s.now + dt) % 2 ^ 64) ∧
      SameRegs s t [Reg.pllCtrl n, Reg.pllStat n, Reg.pllDiv n] ∧ SameMemory s t) ∧
  (∀ (s : State) (dt req slot : Nat) (n : Fin 4), n.val < 2 → slot < 4 → slot ≠ s.slotOf n →
    ∃ t, exec (.hop dt req n (wput (s.reg (Reg.pllCtrl n)) 3 2 slot)) s = .next t ∧ t.slotOf n = s.slotOf n ∧
      t.fld (pgViol 0x006) 14 12 = 3 ∧ OnlyRegs s t [Reg.pllCtrl n, pgViol 0x006, pgStat 0x006]) ∧
  (∀ (s : State) (dt band : Nat) (n : Fin 4), s.bit (Reg.pllStat n) 28 = false → s.pllPowered n = true → s.pllLost n = false →
    (s.pll n).held = none → s.mem.frozen = none →
    ∃ t, exec (.pllLock dt n band) s = .next t ∧ t.bit (Reg.pllStat n) 28 = true ∧ t.bit (Reg.pllStat n) 29 = false ∧
      (t.pll n).locking = none ∧ (s.bit (Reg.pllDiv n) 12 = true → t.bit (Reg.pllDiv n) 13 = true) ∧ SameMemory s t) ∧
  (∀ (s : State) (dt : Nat) (n : Fin 4), s.bit (Reg.pllStat n) 29 = true → s.searching n = false →
    s.isRetired (resKey 4 (2 * n + s.fld (Reg.pllCtrl n) 8 8)) = false →
    s.isLost (resKey 4 (2 * n + s.fld (Reg.pllCtrl n) 8 8)) = false →
    s.resCount (resKey 4 (2 * n + s.fld (Reg.pllCtrl n) 8 8)) + 1 ≤ min 65535 (s.resBudget 4) →
    ∃ t, exec (.bandMiss dt n) s = .next t ∧ t.bit (Reg.pllStat n) 2 = true ∧ t.searching n = true ∧
      t.bandWordOf n (s.slotOf n) = s.bandWordOf n (s.slotOf n) % 2 ^ 31 ∧
      t.resCount (resKey 4 (2 * n + s.fld (Reg.pllCtrl n) 8 8)) = s.resCount (resKey 4 (2 * n + s.fld (Reg.pllCtrl n) 8 8)) + 1 ∧
      SameMemory s t) ∧
  (∀ (s : State) (dt req x : Nat) (n : Fin 4), 1 ≤ x → x ≤ 255 → x ≠ s.fld (Reg.pllDiv n) 7 0 → s.pllPowered n = true →
    s.pllLost n = false →
    ∃ t, exec (.divWrite dt req n (wput (s.reg (Reg.pllDiv n)) 7 0 x)) s = .next t ∧ t.fld (Reg.pllDiv n) 7 0 = x ∧
      t.bit (Reg.pllStat n) 28 = false ∧ t.bit (Reg.pllStat n) 29 = true ∧
      SameRegs s t [Reg.pllDiv n, Reg.pllStat n] ∧ SameMemory s t) ∧
  (∀ (s : State) (dt req : Nat) (n : Fin 4) (v : Word),
    (s.pll n).stored ≠ some (s.fld (Reg.pllCtrl n) 1 0, (s.now + dt) % 2 ^ 64) →
    ∃ t, exec (.bandWrite dt req n v) s = .next t ∧
      t.bandWordOf n (s.fld (Reg.pllCtrl n) 1 0) = (v &&& 0x8000FFFF).toNat ∧ SameRegs s t [] ∧ SameMemory s t) ∧
  (∀ (s : State) (dt : Nat), (s.profWord 0 (s.slotOf 0)).testBit 0 = true → (s.pll 0).noRef = false →
    ∃ t, exec (.refLost dt) s = .next t ∧ (t.pll 0).noRef = true ∧ t.bit (Reg.pllStat 0) 6 = true ∧
      SameRegs s t [Reg.pllStat 0] ∧ SameMemory s t) ∧
  (∀ (s : State) (dt : Nat), ∃ t, exec (.frefReturn dt) s = .next t ∧ (t.pll 0).noRef = false ∧ SameRegs s t [] ∧ SameMemory s t) ∧
  (∀ (s : State) (dt : Nat) (n : Fin 4), s.bit (Reg.pllStat n) 28 = true →
    s.isRetired (resKey 4 (2 * n + s.fld (Reg.pllCtrl n) 8 8)) = false →
    s.isLost (resKey 4 (2 * n + s.fld (Reg.pllCtrl n) 8 8)) = false →
    s.resCount (resKey 4 (2 * n + s.fld (Reg.pllCtrl n) 8 8)) + 1 ≤ min 65535 (s.resBudget 4) →
    ∃ t, exec (.lossOfLock dt n) s = .next t ∧ t.bit (Reg.pllStat n) 28 = false ∧ t.bit (Reg.pllStat n) 29 = true ∧
      t.bit (Reg.pllStat n) 0 = true ∧ (t.pll n).lossAt = some ((s.now + dt) % 2 ^ 64) ∧
      (n = 0 → t.bit Reg.timeStat 29 = true) ∧ (n = 1 → t.mem.frozen.isSome) ∧ SameMemory s t) ∧
  (∀ (s : State) (dt t0 : Nat) (n : Fin 4), (s.pll n).lossAt = some t0 → (s.pll n).locking = some t0 →
    t0 + 400000 ≤ (s.now + dt) % 2 ^ 64 →
    s.isRetired (resKey 4 (2 * n + s.fld (Reg.pllCtrl n) 8 8)) = false →
    s.isLost (resKey 4 (2 * n + s.fld (Reg.pllCtrl n) 8 8)) = false →
    ∃ t, exec (.relockTimeout dt n) s = .next t ∧ t.isRetired (resKey 4 (2 * n + s.fld (Reg.pllCtrl n) 8 8)) = true)

/-! ### Wall time (R354-R362) -/

/-- R356, R357, R359, R360: a measured offset near 0 counts towards the lock and ends holdover; a SET that does not step leaves wall
time and shows a slew; a leap second moves UTC_OFS by one and clears its flags; at a whole second the calendar is copied into the
backup domain. -/
def Obligations.TimeBaseFollows : Prop :=
  (∀ (s : State) (dt : Nat) (hasp : Bool) (offset : Int), (s.tick dt).timeMode = (if hasp then 2 else 1) →
    offset.natAbs ≤ (if hasp then 10 else 100) → offset.natAbs ≤ s.fld Reg.timeCtrl 23 16 * 1000 → offset ≠ 0 →
    ∃ t, exec (.servoOffset dt hasp offset) s = .next t ∧ t.tbase.inside = min 16 (s.tbase.inside + 1) ∧
      t.tbase.outside = 0 ∧ t.tbase.holdover = false ∧ t.bit Reg.timeStat 1 = true ∧
      (15 ≤ s.tbase.inside → t.bit Reg.timeStat 28 = true) ∧ t.now = (s.now + dt) % 2 ^ 64 ∧ SameMemory s t) ∧
  (∀ (s : State) (dt req : Nat) (v lo : Word), mget s.loHeld Reg.timeSetLo none = some lo → s.anyLive = true →
    s.bit Reg.timeCtrl 0 = false → lo.toNat + v.toNat * 2 ^ 32 ≠ (s.now + dt) % 2 ^ 64 →
    ∃ t, exec (.set dt req v) s = .next t ∧ t.now = (s.now + dt) % 2 ^ 64 ∧ t.bit Reg.timeStat 1 = true ∧
      t.reg Reg.timeSetLo = lo ∧ t.reg Reg.timeSetHi = v ∧ (s.bit Reg.timeCtrl 1 = true → t.calValid = true) ∧ SameMemory s t) ∧
  (∀ (s : State) (dt : Nat), s.fld Reg.timeUtcOfs 17 16 ≠ 0 → 1 ≤ s.fld Reg.timeUtcOfs 15 0 → s.fld Reg.timeUtcOfs 15 0 < 65535 →
    ∃ t, exec (.leapSecond dt) s = .next t ∧
      t.fld Reg.timeUtcOfs 15 0 = (if s.bit Reg.timeUtcOfs 16 then s.fld Reg.timeUtcOfs 15 0 + 1 else s.fld Reg.timeUtcOfs 15 0 - 1) ∧
      t.fld Reg.timeUtcOfs 17 16 = 0 ∧ t.bit Reg.timeStat 4 = true ∧ OnlyRegs s t [Reg.timeUtcOfs, Reg.timeStat]) ∧
  (∀ (s : State) (dt : Nat), s.bit Reg.timeCtrl 2 = true → (s.now + dt) % 2 ^ 64 % 1000000000 = 0 →
    ∃ t, exec (.backupCopy dt) s = .next t ∧
      t.tbase.backup = some ((s.now + dt) % 2 ^ 64, s.rn Reg.timeUtcOfs, s.rn Reg.timeZoneOfs, s.calValid) ∧
      SameRegs s t [] ∧ SameMemory s t)

/-- R374, R375: the PTP client on a sound message of its domain: an Announce lists its master; a one-step Sync of the master
followed gives the difference of arrival and origin, less the correction; a Delay_Req goes out at its interval; its answer gives half
the sum of both ways as the path delay; a master silent for three intervals is followed no longer. -/
def Obligations.PtpMeasures : Prop :=
  (∀ (s : State) (dt : Nat) (p : Fin 2) (f m : List Byte), s.bit (Reg.medCtrl p) 0 = true → ethSound f = true →
    s.ptpMessage p (f.take (f.length - 4)) = some m → ptpType m = 11 → beAt m 61 2 < 255 →
    ∃ t r, exec (.ptpAnnounce dt p f) s = .next t ∧ r ∈ t.ptp.masters ∧ r.port = p.val ∧ r.ident = ptpIdent m ∧
      r.gm = beAt m 53 8 ∧ r.heard = (s.now + dt) % 2 ^ 64 ∧ SameMemory s t) ∧
  (∀ (s : State) (dt rx : Nat) (p : Fin 2) (f m : List Byte), s.bit (Reg.medCtrl p) 0 = true → ethSound f = true →
    s.ptpMessage p (f.take (f.length - 4)) = some m → ptpType m = 0 → (ptpFlags m).testBit 9 = false →
    s.ptp.best = some (p.val, ptpIdent m) →
    ∃ t, exec (.ptpSync dt p f rx) s = .next t ∧
      t.ptp.diff = some (((rx : Int) - ptpStamp m) * 65536 - ptpCorr m) ∧ t.ptp.path = s.ptp.path ∧
      SameRegs s t [Reg.ptpOffset, Reg.medRxFrames p] ∧ SameMemory s t) ∧
  (∀ (s : State) (dt id : Nat) (p : Fin 2), s.bit Reg.ptpCtrl 0 = true → s.ptp.best = some (p.val, id) →
    (∀ t0, s.ptp.reqAt = some t0 → t0 + pow2s ((s.fld Reg.ptpCtrl 11 8 : Int) - 8) ≤ (s.now + dt) % 2 ^ 64) →
    ∃ t frame, exec (.delayReq dt p) s = .next t ∧ t.ptp.req = some ((s.ptp.reqSeq + 1) % 65536, (s.now + dt) % 2 ^ 64) ∧
      Sent.media p frame ∈ t.tx ∧ SameRegs s t [] ∧ SameMemory s t) ∧
  (∀ (s : State) (dt q t3 : Nat) (d : Int) (p : Fin 2) (f m : List Byte), s.bit (Reg.medCtrl p) 0 = true → ethSound f = true →
    s.ptpMessage p (f.take (f.length - 4)) = some m → ptpType m = 9 → s.ptp.best = some (p.val, ptpIdent m) →
    s.ptp.req = some (q, t3) → s.ptp.diff = some d → ptpSeq m = q → beAt m 44 10 = s.ptpOwn p →
    ∃ t, exec (.delayResp dt p f) s = .next t ∧
      t.ptp.path = (d + (((ptpStamp m : Int) - t3) * 65536 - ptpCorr m)) / 2 ∧ t.ptp.req = none ∧
      SameRegs s t [Reg.medRxFrames p] ∧ SameMemory s t) ∧
  (∀ (s : State) (dt : Nat) (m : PtpMaster), s.ptp.masters = [m] → s.ptp.best = some (m.port, m.ident) →
    m.heard + 3 * m.every ≤ (s.now + dt) % 2 ^ 64 →
    ∃ t, exec (.announceTimeout dt) s = .next t ∧ t.ptp.best = none ∧ t.ptp.masters = [] ∧ t.bit Reg.ptpStat 31 = false ∧
      t.bit Reg.ptpStat 1 = true ∧ SameMemory s t)

/-! ### Media ports and flows (R367-R373) -/

/-- R367, R368: a media link that comes up or goes down is shown; an ARP request for the port's own address is answered to its
sender; a frame with an unsound FCS is dropped and counted, and what RS-FEC corrected in it too; one that finds the receive
buffer full while memory stands still (R272) is dropped, counted and shown. -/
def Obligations.MediaPorts : Prop :=
  (∀ (s : State) (dt : Nat) (p : Fin 2), ∃ t, exec (.mediaLinkUp dt p) s = .next t ∧ t.bit (Reg.medStat p) 0 = true ∧
    t.rn (Reg.medLink p) = (if s.bit (Reg.medCtrl p) 1 then 7 else 3) ∧ OnlyRegs s t [Reg.medStat p, Reg.medLink p]) ∧
  (∀ (s : State) (dt : Nat) (p : Fin 2), ∃ t, exec (.mediaLinkDown dt p) s = .next t ∧ t.bit (Reg.medStat p) 1 = true ∧
    t.rn (Reg.medLink p) = 0 ∧ OnlyRegs s t [Reg.medStat p, Reg.medLink p]) ∧
  (∀ (s : State) (dt o : Nat) (vlan : Option Nat) (p : Fin 2) (f : List Byte), s.bit (Reg.medCtrl p) 0 = true →
    ethSound f = true → etherType (f.take (f.length - 4)) = (0x0806, vlan, o) →
    beAt (f.take (f.length - 4)) o 4 = 0x00010800 → beAt (f.take (f.length - 4)) (o + 6) 2 = 1 → s.ownIp p ≠ 0 →
    beAt (f.take (f.length - 4)) (o + 24) 4 = s.ownIp p →
    ∃ t reply, exec (.arpRequest dt p f) s = .next t ∧ Sent.media p reply ∈ t.tx ∧
      beAt reply 0 6 = beAt (f.take (f.length - 4)) (o + 8) 6 ∧ OnlyRegs s t [Reg.medRxFrames p]) ∧
  (∀ (s : State) (dt ce : Nat) (ue : Bool) (p : Fin 2) (f : List Byte), s.bit (Reg.medCtrl p) 0 = true → ethSound f = false →
    ∃ t, exec (.mediaFrame dt p ⟨f, ce, ue⟩) s = .next t ∧ t.rn (Reg.medDropCnt p) = min (s.rn (Reg.medDropCnt p) + 1) 0xFFFFFFFF ∧
      (s.bit (Reg.medLink p) 2 = true → t.rn (Reg.medFecCeCnt p) = min 0xFFFFFFFF (s.rn (Reg.medFecCeCnt p) + ce)) ∧
      SameRegs s t [Reg.medDropCnt p, Reg.medRxFrames p, Reg.medFecCeCnt p, Reg.medStat p] ∧ SameMemory s t) ∧
  (∀ (s : State) (dt ce : Nat) (ue : Bool) (p : Fin 2) (f : List Byte), s.bit (Reg.medCtrl p) 0 = true → s.memStill = true →
    786432 < mget s.medBuf p 0 + f.length →
    ∃ t, exec (.mediaFrame dt p ⟨f, ce, ue⟩) s = .next t ∧ t.rn (Reg.medDropCnt p) = min (s.rn (Reg.medDropCnt p) + 1) 0xFFFFFFFF ∧
      t.bit (Reg.medStat p) 3 = true ∧ OnlyRegs s t [Reg.medDropCnt p, Reg.medFecCeCnt p, Reg.medStat p])

/-- R369-R373: a packet of a flow that stands empty begins a source frame; a path of a pair silent for SKEW is reported; FLOW CMD.READ
loads the selected object's words into DATA; CMD.WRITE stores DATA into it, or refuses and stores nothing. -/
def Obligations.FlowsTakePackets : Prop :=
  (∀ (s : State) (dt n ce : Nat) (ue : Bool) (p : Fin 2) (f : List Byte) (u : Udp) (r : Rtp) (g : Flow),
    s.bit (Reg.medCtrl p) 0 = true → s.memStill = false ∨ mget s.medBuf p 0 + f.length ≤ 786432 → ethSound f = true → isIgmpQuery (f.take (f.length - 4)) = false → udpParse (f.take (f.length - 4)) = some u →
    rtpParse u.data = some r → ((List.range 16).filter fun k => (s.flw k).matches_ p u r) = [n] →
    (s.flw n).asm = [] → (s.flw n).floor = none → (s.flw n).lastSeq = none →
    ({ s.flw n with heardM := [0, 1].map fun k => if k = p.val then (s.now + dt) % 2 ^ 64 else (s.flw n).heardM.getD k 0 }).police
      ((s.now + dt) % 2 ^ 64) (r.segs.foldl (fun a (x : Nat × Nat × Nat × Bool) => a + x.1) 0) = some g →
    ∃ t, exec (.mediaFrame dt p ⟨f, ce, ue⟩) s = .next t ∧ (t.flw n).frames = (s.flw n).frames + 1 ∧
      (t.flw n).lastSeq = some (2 ^ 32 + r.seq) ∧ (t.flw n).begunAt = (s.now + dt) % 2 ^ 64 ∧
      (∀ k, k ≠ n → t.flw k = s.flw k) ∧ (∀ a, t.vb a = s.vb a)) ∧
  (∀ (s : State) (dt : Nat) (n : Fin 16) (p : Fin 2), bitsOf ((s.flw n).word 0) 2 0 = 7 →
    (s.flw n).heardM.getD p 0 + (s.flw n).word 9 % 65536 * 1000 ≤ (s.now + dt) % 2 ^ 64 →
    ∃ t, exec (.pathLost dt n p) s = .next t ∧ t.bit Reg.flowStat 6 = true ∧ OnlyRegs s t [Reg.flowStat]) ∧
  (∀ (s : State) (dt req : Nat), ∃ t, exec (.flowRead dt req) s = .next t ∧ t.bit Reg.flowStat 0 = true ∧
    (∀ k, k < 16 → t.rn (Reg.flowData k) = s.flowWord (s.fld Reg.flowIdx 4 0) k % 2 ^ 32) ∧
    OnlyRegs s t (Reg.flowStat :: (List.range 16).map Reg.flowData)) ∧
  (∀ (s : State) (dt req : Nat), s.fld Reg.flowIdx 4 0 < 16 →
    flowRefused (s.flw (s.fld Reg.flowIdx 4 0)) (fun k => s.rn (Reg.flowData k) &&& flowMask (s.fld Reg.flowIdx 4 0) k) = false →
    ∃ t, exec (.flowWrite dt req) s = .next t ∧ t.bit Reg.flowStat 0 = true ∧
      (∀ k, k < 10 → (t.flw (s.fld Reg.flowIdx 4 0)).word k = s.rn (Reg.flowData k) &&& flowMask (s.fld Reg.flowIdx 4 0) k) ∧
      (∀ n, n ≠ s.fld Reg.flowIdx 4 0 → t.flw n = s.flw n) ∧ SameMemory s t) ∧
  (∀ (s : State) (dt req : Nat), s.fld Reg.flowIdx 4 0 < 16 →
    flowRefused (s.flw (s.fld Reg.flowIdx 4 0)) (fun k => s.rn (Reg.flowData k) &&& flowMask (s.fld Reg.flowIdx 4 0) k) = true →
    ∃ t, exec (.flowWrite dt req) s = .next t ∧ t.bit Reg.flowStat 1 = true ∧ OnlyRegs s t [Reg.flowStat])

/-! ### Flash, sideband and GPIO (R376-R379, R388) -/

/-- R377: a flash command takes the controller, with chip select, address and length as the registers say: READ puts its data into
the FIFO; while the controller is held any command is refused and only XSPI.STAT shows it; at its end the controller is free.
R295: a FIFO at its level asserts its request line, 16 or 17, which waits where no DMA descriptor runs.
R378, R379, R266: a sideband transfer starts with CTRL as it stands and ends with its data or a NACK; the temperature poll shows
the hotter sensor of each DIMM; a PMIC's alert is shown. R388: a rising edge on a GPIO input sets its bit of GPIO.IRQ and no other
register; a pulse ends after its length. -/
def Obligations.FlashSidebandAndPins : Prop :=
  (∀ (s : State) (dt req : Nat) (data : List Byte), s.flashHeld = false → data.length = s.fld Reg.xspiLen 23 0 →
    ∃ t, exec (.xspiRead dt req data) s = .next t ∧
      t.xspi.cmd = some (0, s.fld Reg.xspiCtrl 0 0, s.rn Reg.xspiAddr, s.fld Reg.xspiLen 23 0) ∧
      t.xspi.fifo = data.take 1024 ∧ t.xspi.rest = data.drop 1024 ∧ SameRegs s t [] ∧ SameMemory s t) ∧
  (∀ (s : State) (dt req op : Nat) (c : Instr), s.flashHeld = false →
    (c = .xspiProgram dt req ∧ op = 1) ∨ (c = .xspiErase dt req ∧ op = 2) ∨ (c = .xspiRaw dt req ∧ op = 3) →
    ∃ t, exec c s = .next t ∧ t.xspi.cmd = some (op, s.fld Reg.xspiCtrl 0 0, s.rn Reg.xspiAddr, s.fld Reg.xspiLen 23 0) ∧
      t.xspi.fifo = s.xspi.fifo ∧ SameRegs s t [] ∧ SameMemory s t) ∧
  (∀ (s : State) (dt req : Nat) (data : List Byte) (c : Instr), s.flashHeld = true →
    c = .xspiRead dt req data ∨ c = .xspiProgram dt req ∨ c = .xspiErase dt req ∨ c = .xspiRaw dt req →
    ∃ t, exec c s = .next t ∧ t.bit Reg.xspiStat 2 = true ∧ OnlyRegs s t [Reg.xspiStat]) ∧
  (∀ (s : State) (dt status op cs a n : Nat), s.xspi.cmd = some (op, cs, a, n) → (op = 0 → s.xspi.rest = []) →
    (op = 1 → n ≤ s.xspi.prog.length) →
    ∃ t, exec (.xspiDone dt status false) s = .next t ∧ t.xspi.cmd = none ∧ t.bit Reg.xspiStat 0 = true ∧
      (status.testBit 0 = true → t.bit Reg.xspiStat 1 = true) ∧
      (op = 1 → Sent.flash cs 1 a (s.xspi.prog.take n) ∈ t.tx ∧ t.xspi.prog = s.xspi.prog.drop n) ∧
      SameRegs s t [Reg.xspiStat] ∧ SameMemory s t) ∧
  (∀ (s : State) (dt : Nat) (line : Fin 2), s.xspi.levels.contains (16 + line.val) = false →
    (if line = 0 then 256 ≤ s.xspi.fifo.length else s.xspi.room = true) → (∀ c, c < 64 → (s.dmaCh c).run = none) →
    ∃ t, exec (.flashFifoLevel dt line) s = .next t ∧ t.xspi.levels = s.xspi.levels ++ [16 + line.val] ∧ SameRegs s t [] ∧ SameMemory s t) ∧
  (∀ (s : State) (dt req : Nat) (rd : Bool) (c : Instr), s.sbus.cmd = none →
    (c = .sbusRead dt req ∧ rd = true) ∨ (c = .sbusWrite dt req ∧ rd = false) →
    ∃ t data, exec c s = .next t ∧ t.sbus.cmd = some (rd, s.rn Reg.sbusCtrl) ∧
      Sent.sideband (s.rn Reg.sbusCtrl % 2 ^ 18 + (if rd then 2 ^ 20 else 0)) data ∈ t.tx ∧ SameRegs s t [] ∧ SameMemory s t) ∧
  (∀ (s : State) (dt data c : Nat), s.sbus.cmd = some (true, c) →
    ∃ t, exec (.sbusTransferDone dt data false) s = .next t ∧ t.sbus.cmd = none ∧ t.bit Reg.sbusStat 0 = true ∧
      t.rn Reg.sbusData = data % 256 ^ (bitsOf c 17 16 + 1) ∧ SameRegs s t [Reg.sbusStat, Reg.sbusData] ∧ SameMemory s t) ∧
  (∀ (s : State) (dt data : Nat) (rd : Bool) (c : Nat), s.sbus.cmd = some (rd, c) →
    ∃ t, exec (.sbusTransferDone dt data true) s = .next t ∧ t.sbus.cmd = none ∧ t.bit Reg.sbusStat 1 = true ∧
      SameRegs s t [Reg.sbusStat] ∧ SameMemory s t) ∧
  (∀ (s : State) (dt : Nat) (temps : List (Option Int)) (fast : BitVec 8) (c : Fin 8) (a b : Int), s.bit Reg.sbusCtrl 19 = true →
    s.bit (Reg.mcRanks c) 31 = true → temps.getD (2 * c) none = some a → temps.getD (2 * c + 1) none = some b →
    ∃ t, exec (.tempPoll dt ⟨temps, fast⟩) s = .next t ∧ t.rn (Reg.sbusDimmT c) = toCode 16 (max a b) + 2 ^ 31 ∧ SameMemory s t) ∧
  (∀ (s : State) (dt : Nat) (d : Fin 8),
    ∃ t, exec (.pmicAlert dt d) s = .next t ∧ t.bit Reg.sbusStat 3 = true ∧ OnlyRegs s t [Reg.sbusStat]) ∧
  (∀ (s : State) (dt : Nat) (p : Fin 16), s.gpioFunc p = 0 → s.bit Reg.gpioDir p = false →
    ∃ t, exec (.gpioEdge dt p) s = .next t ∧ t.bit Reg.gpioIrq p = true ∧ OnlyRegs s t [Reg.gpioIrq]) ∧
  (∀ (s : State) (dt t0 : Nat) (p : Fin 16), mget (s.tick dt).pulses p none = some t0 →
    t0 + (if s.gpioFunc p = 8 then 100000 else 1000) ≤ (s.now + dt) % 2 ^ 64 →
    ∃ t, exec (.gpioPulseEnd dt p) s = .next t ∧ mget t.pulses p none = none ∧ Sent.pulse p false ∈ t.tx ∧ OnlyRegs s t [])

/-! ### Hasp (R380-R387) -/

/-- R380, R383, R387: a Hasp link that comes up or goes down is shown, and one that goes down opens the ring; HELLO goes out of every
port that is up, with a sequence number of its own; a HELLO straight from a neighbour not heard before makes it a member; a member
not heard for 3 ms drops out. -/
def Obligations.HaspRing : Prop :=
  (∀ (s : State) (dt : Nat) (p : Fin 2), ∃ t, exec (.haspLinkUp dt p) s = .next t ∧ (t.haspPort p).up = true ∧
    t.bit (Reg.haspStat p) 0 = true ∧ t.bit (Reg.haspLink p) 0 = true ∧ SameRegs s t [Reg.haspStat p, Reg.haspLink p] ∧
    SameMemory s t) ∧
  (∀ (s : State) (dt : Nat) (p : Fin 2), ∃ t, exec (.haspLinkDown dt p) s = .next t ∧ (t.haspPort p).up = false ∧
    t.bit (Reg.haspStat p) 1 = true ∧ t.rn (Reg.haspLink p) = 0 ∧ t.ringClosed = false ∧ SameMemory s t) ∧
  (∀ (s : State) (dt : Nat) (p : Fin 2), s.haspUp.contains p.val = true →
    ∃ t body, exec (.helloTimer dt) s = .next t ∧ body.length = 35 ∧
      Sent.hasp p (haspFrame s.ringPos 1 s.ringPos 0 (mget s.hasp.seqs 1 0) body) ∈ t.tx ∧
      mget t.hasp.seqs 1 0 = (mget s.hasp.seqs 1 0 + 1) % 65536 ∧ SameRegs s t [] ∧ SameMemory s t) ∧
  (∀ (s : State) (dt : Nat) (p : Fin 2) (f : List Byte) (h : HFrame), s.haspUp.contains p.val = true → ethSound f = true →
    haspParse f = some h → h.type = 1 → h.hop = 0 → h.src ≠ s.ringPos → h.src < 16 → (s.tick dt).haspSeen h = false →
    s.hasp.members = [] →
    ∃ t, exec (.hello dt p f) s = .next t ∧ t.fld (Reg.haspLink p) 11 8 = h.src ∧ t.bit (Reg.haspLink p) 12 = true ∧
      mget t.hasp.members h.src none = some ⟨beAt h.body 10 1, (s.now + dt) % 2 ^ 64, beAt h.body 8 1, beAt h.body 9 1,
        beAt h.body 0 8⟩ ∧ SameMemory s t) ∧
  (∀ (s : State) (dt : Nat) (pos : Fin 16) (m : Member), mget s.hasp.members pos none = some m →
    m.heard + 3000000 ≤ (s.now + dt) % 2 ^ 64 →
    ∃ t, exec (.memberTimeout dt pos) s = .next t ∧ mget t.hasp.members pos none = none ∧ t.bit (Reg.haspStat 0) 2 = true ∧
      t.bit (Reg.haspStat 1) 2 = true ∧ t.ringClosed = false ∧ SameMemory s t)

/-- R356, R382, R383: TIME of the master gives the offset against ORIGIN + CORR / 16 + the delay of the receiving port; the time
master sends TIME out of every port that is up, with the wall time as ORIGIN and CORR 0. -/
def Obligations.HaspTimeMeasures : Prop :=
  (∀ (s : State) (dt rx : Nat) (p : Fin 2) (f : List Byte) (h : HFrame), s.haspUp.contains p.val = true → ethSound f = true →
    haspParse f = some h → h.type = 2 → h.src ≠ s.ringPos → (s.tick dt).haspSeen h = false → s.bit (Reg.haspMaster 0) 31 = true →
    s.fld (Reg.haspMaster 0) 3 0 = h.src →
    ∃ t, exec (.haspTime dt p f rx) s = .next t ∧
      t.tbase.measured = some ((rx : Int) -
        (beAt h.body 0 8 + beAt h.body 8 4 / 16 + s.fld (Reg.haspLink p) 31 16 : Nat)) ∧ SameMemory s t) ∧
  (∀ (s : State) (dt : Nat) (p : Fin 2), s.bit Reg.timeStat 30 = true → s.haspUp.contains p.val = true →
    ∃ t flags, exec (.haspTimeTimer dt) s = .next t ∧
      Sent.hasp p (haspFrame s.ringPos 2 s.ringPos 0 (mget s.hasp.seqs 2 0)
        (beBytes 8 ((s.now + dt) % 2 ^ 64) ++ beBytes 4 0 ++ beBytes 2 (s.rn Reg.timeUtcOfs) ++ beBytes 1 flags)) ∈ t.tx ∧
      SameRegs s t [] ∧ SameMemory s t)

/-- R386: TUN_CMD sends one TUN_REQ with a new identifier and waits for its reply; a second one is discarded; the reply ends it,
leaving a read's data in both pages; without a reply it ends after 100 µs with an error. -/
def Obligations.Tunnels : Prop :=
  (∀ (s : State) (dt req : Nat) (p : Fin 2) (rd : Bool) (c : Instr), s.hasp.tunnel = none →
    (c = .tunRead dt req p ∧ rd = true) ∨ (c = .tunWrite dt req p ∧ rd = false) →
    ∃ t, exec c s = .next t ∧ t.hasp.tunnel = some ⟨p, s.hasp.tunId % 65536, rd, (s.now + dt) % 2 ^ 64⟩ ∧
      mget t.hasp.seqs 6 0 = (mget s.hasp.seqs 6 0 + 1) % 65536 ∧ SameRegs s t [] ∧ SameMemory s t) ∧
  (∀ (s : State) (dt req : Nat) (p : Fin 2) (c : Instr), s.hasp.tunnel.isSome → c = .tunRead dt req p ∨ c = .tunWrite dt req p →
    ∃ t, exec c s = .next t ∧ t.bit (Reg.haspStat p) 6 = true ∧ OnlyRegs s t [Reg.haspStat p]) ∧
  (∀ (s : State) (dt : Nat) (p : Fin 2) (f : List Byte) (h : HFrame) (u : Tunnel), s.haspUp.contains p.val = true →
    ethSound f = true → haspParse f = some h → h.type = 7 → h.src ≠ s.ringPos → (s.tick dt).haspSeen h = false →
    beAt h.body 0 1 = s.ringPos → s.hasp.tunnel = some u → beAt h.body 1 2 = u.id → u.read = true → beAt h.body 3 1 = 0 →
    ∃ t, exec (.tunRsp dt p f) s = .next t ∧ t.hasp.tunnel = none ∧ t.bit (Reg.haspStat u.page) 4 = true ∧
      t.rn (Reg.haspTunData 0) = beAt h.body 4 4 ∧ t.rn (Reg.haspTunData 1) = beAt h.body 4 4 ∧ SameMemory s t) ∧
  (∀ (s : State) (dt : Nat) (p : Fin 2) (u : Tunnel), s.hasp.tunnel = some u → u.page = p.val →
    u.sentAt + 100000 ≤ (s.now + dt) % 2 ^ 64 →
    ∃ t, exec (.tunnelTimeout dt p) s = .next t ∧ t.hasp.tunnel = none ∧ t.bit (Reg.haspStat p) 5 = true ∧
      SameRegs s t [Reg.haspStat p] ∧ SameMemory s t) ∧
  (∀ (s : State) (dt : Nat) (p : Fin 2) (f : List Byte) (h : HFrame), s.haspUp.contains p.val = true → ethSound f = true →
    haspParse f = some h → h.type = 6 → h.src ≠ s.ringPos → (s.tick dt).haspSeen h = false → beAt h.body 0 1 = s.ringPos →
    s.bit (Reg.haspCtrl p) 1 = false →
    ∃ t, exec (.tunReq dt p f) s = .next t ∧
      Sent.hasp p (haspFrame s.ringPos 7 s.ringPos 0 (mget s.hasp.seqs 7 0)
        (beBytes 1 h.src ++ beBytes 2 (beAt h.body 1 2) ++ beBytes 1 1 ++ beBytes 4 0)) ∈ t.tx ∧ SameRegs s t [] ∧ SameMemory s t) ∧
  (∀ (s : State) (dt : Nat) (p : Fin 2) (f : List Byte) (h : HFrame) (n : Fin 8), s.haspUp.contains p.val = true →
    ethSound f = true → haspParse f = some h → h.type = 6 → h.src ≠ s.ringPos → (s.tick dt).haspSeen h = false →
    beAt h.body 0 1 = s.ringPos → s.bit (Reg.haspCtrl p) 1 = true → beAt h.body 3 1 = 2 → beAt h.body 4 4 = Reg.mcLatTgt n →
    ∃ t, exec (.tunReq dt p f) s = .next t ∧ t.rn (Reg.mcLatTgt n) = beAt h.body 8 4 ∧ SameRegs s t [Reg.mcLatTgt n] ∧
      SameMemory s t)

/-! ### Management SPI and the indirect windows (R366, R121, R153-R157) -/

/-- R366: WRITE_REG writes its whole words as register writes, READ_REG reads a register, WRITE_MEM stores a word in memory least
significant byte first and READ_MEM reads it, where no burst is poisoned, both only with MEM_EN and here while memory does not stand still, READ_STAT gives READY, interrupt and error, and a word cut short
shows when chip select rises. -/
def Obligations.ManagementSpi : Prop :=
  (∀ (s : State) (dt clk : Nat) (n : Fin 8) (l : List Byte), 4 ≤ l.length → l.length < 8 →
    ∃ t, exec (.writeReg dt (Reg.mcLatTgt n) l clk) s = .next t ∧ t.rn (Reg.mcLatTgt n) = beAt l 0 4 ∧
      OnlyRegs s t [Reg.mcLatTgt n]) ∧
  (∀ (s : State) (dt : Nat) (n : Fin 8), (∀ key, mget s.hiSnap key none = none) →
    ∃ t, exec (.readReg dt (Reg.mcLatTgt n) 1) s = .next t ∧ t.bus = [s.rn (Reg.mcLatTgt n)] ∧ OnlyRegs s t []) ∧
  (∀ (s : State) (dt a c r : Nat) (l : List Byte) (k : Fin 4 → Nat), s.bit Reg.mspiCtrl 0 = true → s.memStill = false →
    a % 4 = 0 → a < 2 ^ 41 → l.length = 4 → Function.Injective k → (∀ i : Fin 4, s.place (a + i) = some (c, r, k i)) → s.rankLost c r = false →
    ∃ t, exec (.writeMem dt a l) s = .next t ∧ (∀ i : Fin 4, mget t.dram (k i) 0 = l.getD (3 - i) 0) ∧
      (∀ j, (∀ i, k i ≠ j) → mget t.dram j 0 = mget s.dram j 0) ∧ SameRegs s t (touchRegs c) ∧ t.vault = s.vault) ∧
  (∀ (s : State) (dt a : Nat), s.bit Reg.mspiCtrl 0 = true → s.memStill = false → a % 4 = 0 → a < 2 ^ 41 →
    (∀ i : Fin 4, s.burstPoisoned (a + i) = false) →
    ∃ t, exec (.readMem dt a 1) s = .next t ∧ t.bus = [ofLe (s.rdBytes a 4)] ∧
      SameRegs s t (Reg.memStat :: (List.range 8).flatMap touchRegs) ∧ SameMemory s t) ∧
  (∀ (s : State) (dt a n : Nat) (l : List Byte) (c : Instr), s.bit Reg.mspiCtrl 0 = false →
    c = .writeMem dt a l ∨ c = .readMem dt a n →
    ∃ t, exec c s = .next t ∧ t.bit Reg.mspiStat 1 = true ∧ OnlyRegs s t [Reg.mspiStat]) ∧
  (∀ (s : State) (dt : Nat), ∃ t x, exec (.readStat dt) s = .next t ∧ t.bus = [x] ∧ x < 8 ∧
    x.testBit 0 = s.bit Reg.pcieStat 9 ∧ x.testBit 1 = s.outputs.mspiIrq ∧
    x.testBit 2 = (s.bit Reg.mspiStat 0 || s.bit Reg.mspiStat 1) ∧ OnlyRegs s t []) ∧
  (∀ (s : State) (dt bits : Nat), ∃ t, exec (.mspiCsHigh dt bits) s = .next t ∧
    t.bit Reg.mspiStat 0 = (s.bit Reg.mspiStat 0 || decide (bits % 32 ≠ 0)) ∧ OnlyRegs s t [Reg.mspiStat])

/-- R121, R153-R157: the window of a coefficient set, a tone object or an encode LUT stores into the selected entry, and only
there, and reads it, an entry past the last one as 0, the index advancing under AUTOINC; a write to an entry past the last one, or
to a bank that is active, pending or in use, is refused with KIND 3 and changes no entry. -/
def Obligations.TablesStoreAndRead : Prop :=
  (∀ (s : State) (dt req e b : Nat) (set : Fin 8) (v : Word), e = s.fld (Reg.coefIdx set) 10 0 →
    b = s.fld (Reg.coefIdx set) 11 11 → e ≤ 1791 → b ≠ s.fld (Reg.coefCtrl set) 0 0 → b ≠ (s.sh (Reg.coefCtrl set)).toNat % 2 →
    s.coefInUse set b = false →
    ∃ t, exec (.coefDataWrite dt req set v) s = .next t ∧ t.coefAt set b e = signedOf 12 v.toNat ∧
      (∀ j d, j ≠ (set * 2 + b) * 1792 + e → mget t.coef j d = mget s.coef j d) ∧
      t.fld (Reg.coefIdx set) 10 0 = (if s.bit (Reg.coefIdx set) 16 then e + 1 else e) ∧
      OnlyRegs s { t with coef := s.coef } [Reg.coefIdx set]) ∧
  (∀ (s : State) (dt req e b : Nat) (set : Fin 8) (v : Word), e = s.fld (Reg.coefIdx set) 10 0 →
    b = s.fld (Reg.coefIdx set) 11 11 → 1791 < e ∨ b = s.fld (Reg.coefCtrl set) 0 0 ∨
      b = (s.sh (Reg.coefCtrl set)).toNat % 2 ∨ s.coefInUse set b = true →
    ∃ t, exec (.coefDataWrite dt req set v) s = .next t ∧ t.fld (pgViol (0x060 + set)) 14 12 = 3 ∧
      OnlyRegs s t [pgViol (0x060 + set), pgStat (0x060 + set)]) ∧
  (∀ (s : State) (dt req e : Nat) (set : Fin 8), e = s.fld (Reg.coefIdx set) 10 0 →
    ∃ t, exec (.coefDataRead dt req set) s = .next t ∧
      t.bus = [if 1791 < e then 0 else toCode 32 (s.coefAt set (s.fld (Reg.coefIdx set) 11 11) e)] ∧
      t.fld (Reg.coefIdx set) 10 0 = (if s.bit (Reg.coefIdx set) 16 then (e + 1) % 2048 else e) ∧
      OnlyRegs s t [Reg.coefIdx set]) ∧
  (∀ (s : State) (dt req j e b : Nat) (v : Word), j = s.fld Reg.toneSel 4 0 → e = s.fld Reg.toneIdx 10 0 →
    b = s.fld Reg.toneIdx 11 11 → e ≤ toneLimit j → b ≠ s.fld Reg.toneBank j j →
    b ≠ bitsOf (s.sh Reg.toneBank).toNat j j → s.toneInUse j b = false →
    ∃ t, exec (.toneDataWrite dt req v) s = .next t ∧ t.toneAt j b e = v.toNat % 2 ^ 20 ∧
      (∀ k d, k ≠ (j * 2 + b) * 2048 + e → mget t.tone k d = mget s.tone k d) ∧
      t.fld Reg.toneIdx 10 0 = (if s.bit Reg.toneIdx 16 then e + 1 else e) ∧
      OnlyRegs s { t with tone := s.tone } [Reg.toneIdx]) ∧
  (∀ (s : State) (dt req j e b : Nat) (v : Word), j = s.fld Reg.toneSel 4 0 → e = s.fld Reg.toneIdx 10 0 →
    b = s.fld Reg.toneIdx 11 11 → toneLimit j < e ∨ b = s.fld Reg.toneBank j j ∨
      b = bitsOf (s.sh Reg.toneBank).toNat j j ∨ s.toneInUse j b = true →
    ∃ t, exec (.toneDataWrite dt req v) s = .next t ∧ t.fld (pgViol 0x068) 14 12 = 3 ∧
      OnlyRegs s t [pgViol 0x068, pgStat 0x068]) ∧
  (∀ (s : State) (dt req j e : Nat), j = s.fld Reg.toneSel 4 0 → e = s.fld Reg.toneIdx 10 0 →
    ∃ t, exec (.toneDataRead dt req) s = .next t ∧
      t.bus = [if toneLimit j < e then 0 else if j < 16 then s.toneAt j (s.fld Reg.toneIdx 11 11) e
        else toCode 32 (signedOf 20 (s.toneAt j (s.fld Reg.toneIdx 11 11) e))] ∧
      t.fld Reg.toneIdx 10 0 = (if s.bit Reg.toneIdx 16 then (e + 1) % 2048 else e) ∧ OnlyRegs s t [Reg.toneIdx]) ∧
  (∀ (s : State) (dt req e b : Nat) (cv : Fin 4) (v : Word), e = s.fld (Reg.cvcLutIdx cv) 10 0 →
    b = s.fld (Reg.cvcLutIdx cv) 11 11 → e ≤ 1024 → b ≠ s.fld (Reg.cvcLutSel cv) 0 0 →
    b ≠ (s.sh (Reg.cvcLutSel cv)).toNat % 2 → s.lutInUse cv b = false →
    ∃ t, exec (.lutDataWrite dt req cv v) s = .next t ∧ t.lutAt cv b e = v.toNat % 65536 ∧
      (∀ k d, k ≠ (cv * 2 + b) * 2048 + e → mget t.lut k d = mget s.lut k d) ∧
      t.fld (Reg.cvcLutIdx cv) 10 0 = (if s.bit (Reg.cvcLutIdx cv) 16 then e + 1 else e) ∧
      OnlyRegs s { t with lut := s.lut } [Reg.cvcLutIdx cv]) ∧
  (∀ (s : State) (dt req e b : Nat) (cv : Fin 4) (v : Word), e = s.fld (Reg.cvcLutIdx cv) 10 0 →
    b = s.fld (Reg.cvcLutIdx cv) 11 11 → 1024 < e ∨ b = s.fld (Reg.cvcLutSel cv) 0 0 ∨
      b = (s.sh (Reg.cvcLutSel cv)).toNat % 2 ∨ s.lutInUse cv b = true →
    ∃ t, exec (.lutDataWrite dt req cv v) s = .next t ∧ t.fld (pgViol (0x018 + cv)) 14 12 = 3 ∧
      OnlyRegs s t [pgViol (0x018 + cv), pgStat (0x018 + cv)]) ∧
  (∀ (s : State) (dt req e : Nat) (cv : Fin 4), e = s.fld (Reg.cvcLutIdx cv) 10 0 →
    ∃ t, exec (.lutDataRead dt req cv) s = .next t ∧
      t.bus = [if 1024 < e then 0 else s.lutAt cv (s.fld (Reg.cvcLutIdx cv) 11 11) e] ∧
      t.fld (Reg.cvcLutIdx cv) 10 0 = (if s.bit (Reg.cvcLutIdx cv) 16 then (e + 1) % 2048 else e) ∧
      OnlyRegs s t [Reg.cvcLutIdx cv])

/-! ### The wear sweep and its checkpoints (R164-R174) -/

/-- R165-R167: pass 0 starts on a whole millisecond with no credited interval, a later one once due, with the milliseconds since the
last as its interval, at most 65,535; a visit of an entry in no poisoned burst moves on by one entry: it gives the pixel's own entry
the value that R167 computes from what the lamps showed, and changes no other byte; where no lamp shows anything (the tile is not
placed, is dark, or its canvas is not live) it changes none; a pass that has visited every entry ends and counts. -/
def Obligations.SweepCreditsWear : Prop :=
  (∀ (s : State) (dt : Nat), s.lamp.on = true → s.lamp.active = false → s.lamp.fresh = true →
    (s.now + dt) % 2 ^ 64 % 1000000 = 0 →
    ∃ t, exec (.sweepPassStart dt) s = .next t ∧ t.lamp.active = true ∧ t.lamp.fresh = false ∧ t.lamp.delta = 0 ∧
      t.lamp.start = (s.now + dt) % 2 ^ 64 ∧ t.lamp.tile = 0 ∧ t.lamp.idx = 0 ∧
      t.lamp.base = s.rn64 Reg.lampWearLo % 2 ^ 41 ∧ t.lamp.period = s.fld Reg.lampWearPeriod 15 0 ∧
      t.bit Reg.lampSweepPos 30 = true ∧ t.bit Reg.lampSweepPos 31 = false ∧
      SameRegs s t [Reg.lampSweepPos] ∧ SameMemory s t) ∧
  (∀ (s : State) (dt : Nat), s.lamp.on = true → s.lamp.active = false → s.lamp.fresh = false →
    (s.now + dt) % 2 ^ 64 % 1000000 = 0 → s.lamp.start + s.lamp.period * 1000000 ≤ (s.now + dt) % 2 ^ 64 →
    ∃ t, exec (.sweepPassStart dt) s = .next t ∧ t.lamp.active = true ∧
      t.lamp.delta = min 65535 (((s.now + dt) % 2 ^ 64 - s.lamp.start) / 1000000) ∧
      (s.lamp.start + s.lamp.period * 1000000 < (s.now + dt) % 2 ^ 64 → t.bit (pgStat 0x080) 8 = true) ∧
      SameRegs s t [Reg.lampSweepPos, pgStat 0x080] ∧ SameMemory s t) ∧
  (∀ (s : State) (dt n i : Nat) (newest other : Option (List Byte)), s.lamp.active = true → (s.tick dt).bgHeld 1 = false →
    s.memStill = false → s.sweepNext s.lamp.tile s.lamp.idx = some (n, i) →
    s.burstPoisoned (s.lamp.base + 8 * ((s.tile n).pixBase + i)) = false →
    (s.tile n).placed = false ∨ s.liveCv (s.tile n).cv = false ∨ (s.tile n).dark = true →
    (s.calEntry (s.rn64 Reg.lampCalLo % 2 ^ 41) ((s.tile n).pixBase + i)).testBit 63 = false →
    (∀ c : Fin 3, bitsOf (ofLe (s.rdBytes (s.lamp.base + 8 * ((s.tile n).pixBase + i)) 8)) (20 * c + 19) (20 * c) < 0xFFFFF) →
    ∃ t, exec (.wearVisit dt newest other) s = .next t ∧ t.lamp.tile = n ∧ t.lamp.idx = i + 1 ∧
      SameRegs s t ([Reg.lampSweepPos, Reg.memStat, Reg.memPoisonCnt] ++ (List.range 8).flatMap touchRegs) ∧ SameMemory s t) ∧
  (∀ (s : State) (dt n i a c r : Nat) (k : Fin 8 → Nat) (newest other : Option (List Byte)), s.lamp.active = true →
    (s.tick dt).bgHeld 1 = false → s.memStill = false → s.sweepNext s.lamp.tile s.lamp.idx = some (n, i) →
    s.canSample (s.tile n) = true → a = s.lamp.base + 8 * ((s.tile n).pixBase + i) → a % 8 = 0 →
    (∀ j : Fin 8, s.place (a + j) = some (c, r, k j)) → Function.Injective k → s.rankLost c r = false →
    (∀ j, mget s.poison (k j / 64) false = false) → s.lamp.noCredit.contains (a / 64 * 64) = false →
    (s.calEntry (s.rn64 Reg.lampCalLo % 2 ^ 41) ((s.tile n).pixBase + i)).testBit 63 = false →
    ∃ t, exec (.wearVisit dt newest other) s = .next t ∧ t.lamp.tile = n ∧ t.lamp.idx = i + 1 ∧
      ofLe (t.rdBytes a 8) = wearEntry (ofLe (s.rdBytes a 8)) false true (s.lampCode (s.tile n) i)
        ((s.tile n).pixBase + i) s.lamp.delta (s.lamp.passes % 2 ^ 32) (Config.serial.toNat % 2 ^ 32) % 2 ^ 64 ∧
      (∀ j, (∀ i, k i ≠ j) → mget t.dram j 0 = mget s.dram j 0) ∧ t.vault = s.vault ∧
      SameRegs s t ([Reg.lampSweepPos, pgStat 0x080, Reg.memStat, Reg.memPoisonCnt] ++ (List.range 8).flatMap touchRegs)) ∧
  (∀ (s : State) (dt : Nat), s.lamp.active = true → s.sweepNext s.lamp.tile s.lamp.idx = none →
    ∃ t, exec (.sweepPassEnd dt) s = .next t ∧ t.lamp.active = false ∧ t.lamp.passes = (s.lamp.passes + 1) % 2 ^ 64 ∧
      t.gainAt = some ((s.now + dt) % 2 ^ 64) ∧ t.bit Reg.lampSweepPos 30 = false ∧
      SameRegs s t [Reg.lampSweepPos, pgStat 0x080] ∧ SameMemory s t)

/-- R172, R173: a checkpoint that is due or asked for erases the good blocks of the slot that does not hold the newest copy; one
asked for while another or a restore runs is shown and waits, and one behind a lifetime write waits; it copies N_tab entries, block
by block, and then the record, and the copy counts once the record reads back; a failed block is marked bad; a slot with too few
good ones and a record that does not read back end it and are shown.
R174: RESTORE is taken while the sweep is stopped and no checkpoint or restore runs, and refused with KIND 3 otherwise; with no
valid record in either slot the wear region is zeroed and CKPT_STAT shows it; a single valid slot is used, with its pass count and
sequence number, and named. -/
def Obligations.CheckpointsSaveAndRestoreWear : Prop :=
  (∀ (s : State) (dt req slot : Nat) (c : Instr), (c = .ckptNow dt req ∨ c = .checkpointDue dt ∧ s.bit Reg.lampCkptCtrl 0 = true ∧
      (s.now + dt) % 2 ^ 64 % (s.fld Reg.lampCkptCtrl 11 4 * 60000000000) = 0) →
    s.lamp.ckpt = 0 → s.lamp.restoring = false → s.faults.ltSlot = none →
    slot = (if s.bit Reg.lampCkptStat 31 then 1 - s.fld Reg.lampCkptStat 30 30 else 0) →
    s.bodyFits (s.goodBlocks slot).length s.nTab = true →
    ∃ t, exec c s = .next t ∧ t.lamp.ckpt = 1 ∧ t.lamp.slot = slot ∧ t.lamp.entries = s.nTab ∧
      t.bit Reg.lampCkptStat 29 = true ∧ (∀ b ∈ s.goodBlocks slot, Sent.flash 1 2 (b * s.nandBlock) [] ∈ t.tx) ∧
      SameRegs s t [Reg.lampCkptStat, Reg.lampCkptCtrl] ∧ SameMemory s t) ∧
  (∀ (s : State) (dt req : Nat), s.lamp.ckpt = 0 → s.lamp.restoring = false → s.faults.ltSlot = none →
    s.bodyFits (s.goodBlocks (if s.bit Reg.lampCkptStat 31 then 1 - s.fld Reg.lampCkptStat 30 30 else 0)).length s.nTab = false →
    ∃ t, exec (.ckptNow dt req) s = .next t ∧ t.lamp.ckpt = 0 ∧ t.bit Reg.lampCkptStat 1 = true ∧ t.bit Reg.lampCkptStat 2 = true ∧
      t.bit Reg.lampCkptStat 29 = false ∧ SameRegs s t [Reg.lampCkptStat, Reg.lampCkptCtrl] ∧ SameMemory s t) ∧
  (∀ (s : State) (dt req : Nat), s.lamp.ckpt ≠ 0 ∨ s.lamp.restoring = true →
    ∃ t, exec (.ckptNow dt req) s = .next t ∧ t.lamp = { s.lamp with waits := true } ∧ t.bit Reg.lampCkptStat 10 = true ∧
      SameRegs s t [Reg.lampCkptStat, Reg.lampCkptCtrl] ∧ SameMemory s t) ∧
  (∀ (s : State) (dt req : Nat), s.lamp.ckpt = 0 → s.lamp.restoring = false → s.faults.ltSlot.isSome = true →
    ∃ t, exec (.ckptNow dt req) s = .next t ∧ t.lamp = { s.lamp with waits := true } ∧
      SameRegs s t [Reg.lampCkptCtrl] ∧ SameMemory s t) ∧
  (∀ (s : State) (dt : Nat), s.lamp.ckpt = 1 →
    ∃ t, exec (.ckptEraseDone dt) s = .next t ∧ t.lamp.ckpt = 2 ∧ t.lamp.tStart = (s.now + dt) % 2 ^ 64 ∧
      t.lamp.cPasses = s.lamp.passes ∧ t.lamp.cPeriod = s.fld Reg.lampWearPeriod 15 0 ∧ t.lamp.entries = s.nTab ∧
      SameRegs s t [] ∧ SameMemory s t) ∧
  (∀ (s : State) (dt i b : Nat), s.lamp.ckpt = 1 ∨ s.lamp.ckpt = 2 → s.lamp.waits = false → i < 16 * s.fld Reg.lampCkptCtrl 21 12 →
    b = 64 * s.fld Reg.lampCkptCtrl 31 22 + s.lamp.slot * (16 * s.fld Reg.lampCkptCtrl 21 12) + i →
    ∃ t, exec (.ckptBlockFail dt i) s = .next t ∧ t.bit Reg.lampCkptStat 3 = true ∧ b ∈ t.lamp.badBlocks ∧
      (∀ x, x ∈ t.lamp.badBlocks ↔ x ∈ s.lamp.badBlocks ∨ x = b) ∧ Sent.flash 1 1 (b * s.nandBlock) [0] ∈ t.tx ∧
      (s.bodyFits (t.goodBlocks s.lamp.slot).length s.lamp.entries = true →
        t.lamp = { s.lamp with badBlocks := t.lamp.badBlocks }) ∧
      (s.bodyFits (t.goodBlocks s.lamp.slot).length s.lamp.entries = false →
        t.lamp = { s.lamp with ckpt := 0, badBlocks := t.lamp.badBlocks } ∧ t.bit Reg.lampCkptStat 1 = true ∧
        t.bit Reg.lampCkptStat 2 = true ∧ t.bit Reg.lampCkptStat 29 = false) ∧
      SameRegs s t [Reg.lampCkptStat] ∧ SameMemory s t) ∧
  (∀ (s : State) (dt : Nat) (body : List Byte), s.lamp.ckpt = 2 →
    body = s.rdBytes (s.rn64 Reg.lampWearLo % 2 ^ 41) (8 * s.lamp.entries) →
    ∃ t, exec (.ckptBodyDone dt) s = .next t ∧ t.lamp.ckpt = 3 ∧
      (∀ x ∈ ((s.goodBlocks s.lamp.slot).drop 1).zip (chunksOf s.nandBlock (body.length / s.nandBlock + 1) body),
        Sent.flash 1 1 (x.1 * s.nandBlock) x.2 ∈ t.tx) ∧
      Sent.flash 1 1 ((s.goodBlocks s.lamp.slot).headD 0 * s.nandBlock) ((s.tick dt).ckptRecord (chunkCrcs body)) ∈ t.tx ∧
      SameRegs s t ([Reg.memStat, Reg.memPoisonCnt] ++ (List.range 8).flatMap touchRegs) ∧ SameMemory s t) ∧
  (∀ (s : State) (dt : Nat), s.lamp.ckpt = 3 → s.lamp.waits = false → s.lamp.tStart < 2 ^ 64 →
    ∃ t, exec (.ckptRecordReadback dt true) s = .next t ∧ t.rn64 Reg.lampCkptLastLo = s.lamp.tStart ∧
      t.bit Reg.lampCkptStat 0 = true ∧ t.bit Reg.lampCkptStat 29 = false ∧ t.bit Reg.lampCkptStat 31 = true ∧
      t.fld Reg.lampCkptStat 30 30 = s.lamp.slot % 2 ∧ t.bit Reg.lampCkptCtrl 1 = false ∧
      t.lamp = { s.lamp with ckpt := 0, seq := (s.lamp.seq + 1) % 2 ^ 32 } ∧
      SameRegs s t [Reg.lampCkptLastLo, Reg.lampCkptLastLo + 4, Reg.lampCkptStat, Reg.lampCkptCtrl] ∧ SameMemory s t) ∧
  (∀ (s : State) (dt : Nat), s.lamp.ckpt = 3 → s.lamp.waits = false →
    ∃ t, exec (.ckptRecordReadback dt false) s = .next t ∧ t.lamp.ckpt = 0 ∧ t.lamp.seq = s.lamp.seq ∧
      mget t.lamp.copies s.lamp.slot none = none ∧ t.bit Reg.lampCkptStat 1 = true ∧ t.bit Reg.lampCkptStat 29 = false ∧
      SameRegs s t [Reg.lampCkptStat] ∧ SameMemory s t) ∧
  (∀ (s : State) (dt req : Nat), s.bit Reg.lampSweepPos 31 = true → s.lamp.ckpt = 0 → s.lamp.restoring = false →
    ∃ t, exec (.ckptRestore dt req) s = .next t ∧ t.lamp = { s.lamp with restoring := true } ∧ t.bit Reg.lampCkptCtrl 2 = true ∧
      t.bit Reg.lampCkptStat 29 = true ∧ SameRegs s t [Reg.lampCkptCtrl, Reg.lampCkptStat] ∧ SameMemory s t) ∧
  (∀ (s : State) (dt req : Nat), s.bit Reg.lampSweepPos 31 = false ∨ s.lamp.ckpt ≠ 0 ∨ s.lamp.restoring = true →
    ∃ t, exec (.ckptRestore dt req) s = .next t ∧ t.fld (pgViol 0x080) 14 12 = 3 ∧ OnlyRegs s t [pgViol 0x080, pgStat 0x080]) ∧
  (∀ (s : State) (dt : Nat) (x y : List Byte), s.lamp.restoring = true → s.lamp.waits = false → recordValid x = false →
    recordValid y = false →
    ∃ t, exec (.ckptRestoreDone dt x y) s = .next t ∧ t.lamp = { s.lamp with copies := [], restoring := false } ∧
      t.bit Reg.lampCkptStat 5 = true ∧ t.bit Reg.lampCkptStat 31 = false ∧ t.bit Reg.lampCkptStat 29 = false ∧
      t.bit Reg.lampCkptCtrl 2 = false ∧
      (∀ i, i < 8 * s.nTab → t.rdByte0 (s.rn64 Reg.lampWearLo % 2 ^ 41 + i) = 0) ∧
      (∀ k, (∀ i c r, i < 8 * s.nTab → s.place (s.rn64 Reg.lampWearLo % 2 ^ 41 + i) ≠ some (c, r, k)) →
        mget t.dram k 0 = mget s.dram k 0) ∧ t.vault = s.vault ∧
      SameRegs s t ([Reg.lampCkptStat, Reg.lampCkptCtrl, Reg.memStat] ++ (List.range 8).flatMap touchRegs)) ∧
  (∀ (s : State) (dt : Nat) (x y z : List Byte) (second : Bool), s.lamp.restoring = true → s.lamp.waits = false →
    recordValid x = !second → recordValid y = second → z = (if second then y else x) →
    ∃ t, exec (.ckptRestoreDone dt x y) s = .next t ∧ t.lamp.passes = recAt z 32 8 ∧ t.lamp.seq = recAt z 8 4 ∧
      t.lamp.restoring = false ∧ t.bit Reg.lampCkptStat 4 = true ∧ t.bit Reg.lampCkptStat 31 = true ∧
      t.bit Reg.lampCkptStat 30 = second ∧ (recAt z 40 8 ≠ Config.serial.toNat → t.bit Reg.lampCkptStat 9 = true) ∧
      t.bit Reg.lampCkptCtrl 2 = false ∧ t.vault = s.vault)

/-! ### The frame vault (R178-R184, R191) -/

/-- R178, R182, R184, R191: a granule moves whole to the lowest free one, below it, and its bank's map follows; a corrected word is
counted, an uncorrectable one is remembered and its section takes its spare; a section is copied to its spare once none of it is
being written; the scrub goes section by section; BAR4 in its flat view reads the vault, and a write changes nothing and is shown;
a read-back that agrees ends the check of the oldest packet sent. -/
def Obligations.VaultKeepsFrames : Prop :=
  (∀ (s : State) (dt cv bk g n : Nat), (s.tick dt).bgHeld 4 = false →
    s.vault.moves.find? (fun m => !s.bankWritten m.1 m.2.1) = some (cv, bk, g) → s.freeGranules.find? (· < g) = some n →
    ∃ t, exec (.granuleRelocation dt) s = .next t ∧
      (∀ i, i < 65536 → t.vb (granAddr n + i) = s.vb (granAddr g + i)) ∧
      (∀ a, a < granAddr n ∨ granAddr n + 65536 ≤ a → t.vb a = s.vb a) ∧
      (if bk = 1 then (t.bank cv).granB else (t.bank cv).granA) =
        (if bk = 1 then (s.bank cv).granB else (s.bank cv).granA).map (fun x => if x = g then n else x) ∧
      t.vault.moves = s.vault.moves.filter (· ≠ (cv, bk, g)) ∧ t.dram = s.dram ∧ SameRegs s t [Reg.vaultStat]) ∧
  (∀ (s : State) (dt a : Nat) (p : Fin 64), a < 2 ^ 29 → s.faults.lost = [] → s.isRetired (resKey 2 (sectionOf a)) = false →
    s.resCount (resKey 2 (sectionOf a)) + 1 ≤ min 65535 (s.resBudget 2) →
    ∃ t, exec (.vaultError dt a false p) s = .next t ∧ t.bit Reg.vaultStat 0 = true ∧
      t.rn Reg.vaultErrCnt = min (s.rn Reg.vaultErrCnt + 1) 0xFFFFFFFF ∧
      t.resCount (resKey 2 (sectionOf a)) = s.resCount (resKey 2 (sectionOf a)) + 1 ∧ t.vault = s.vault ∧ t.dram = s.dram ∧
      SameRegs s t [Reg.vaultStat, Reg.vaultErrCnt, Reg.faultStat, Reg.faultJrnlIdx]) ∧
  (∀ (s : State) (dt a : Nat) (p : Fin 64), a < 2 ^ 29 → s.faults.lost = [] → s.faults.serving = [] →
    s.isRetired (resKey 2 (sectionOf a)) = false →
    ∃ t, exec (.vaultError dt a true p) s = .next t ∧ t.bit Reg.vaultStat 1 = true ∧ a / 8 ∈ t.vault.bad ∧
      t.isRetired (resKey 2 (sectionOf a)) = true ∧ sectionOf a ∈ t.vault.copying ∧ t.bit Reg.vaultStat 2 = true ∧
      t.vault.bytes = s.vault.bytes ∧ t.dram = s.dram) ∧
  (∀ (s : State) (dt : Nat) (sec : Fin 128), s.vault.copying.contains sec.val = true → s.sectionWritten sec = false →
    ∃ t, exec (.sectionSpareCopy dt sec) s = .next t ∧ sec.val ∈ t.vault.spared ∧ sec.val ∉ t.vault.copying ∧
      SameRegs s t [] ∧ SameMemory s t) ∧
  (∀ (s : State) (dt : Nat) (sec : Fin 128), s.sectionWritten sec = true →
    ∃ t, exec (.sectionSpareCopy dt sec) s = .next t ∧ OnlyRegs s t []) ∧
  (∀ (s : State) (dt : Nat) (errors : List Nat), s.bit Reg.vaultPart 1 = true → (s.tick dt).bgHeld 4 = false →
    s.faults.lost = [] → (∀ a ∈ errors, sectionOf a ≠ s.vault.scrub) → (∀ w ∈ s.vault.bad, sectionOf (8 * w) ≠ s.vault.scrub) →
    ∃ t, exec (.vaultScrub dt errors) s = .next t ∧ t.vault = { s.vault with scrub := (s.vault.scrub + 1) % 128 } ∧
      SameRegs s t [] ∧ SameMemory s t) ∧
  (∀ (s : State) (dt req off len : Nat), s.peerRefused req = false → s.bit Reg.vaultPart 16 = true →
    s.bit Reg.vaultBar4Base 0 = false →
    ∃ t, exec (.bar4Read dt req off len) s = .next t ∧
      t.bus = (List.range len).map (fun i => (s.vb ((off + i) % 2 ^ 29)).toNat) ∧ OnlyRegs s t []) ∧
  (∀ (s : State) (dt req off : Nat) (data : List Byte), s.peerRefused req = false →
    ∃ t, exec (.bar4Write dt req off data) s = .next t ∧ t.bit Reg.vaultStat 4 = true ∧ OnlyRegs s t [Reg.vaultStat]) ∧
  (∀ (s : State) (dt crc : Nat) (p : Fin 64) (x : Pix) (r : List (Pix × Nat)) (echo : List Byte),
    (s.prt p).readback = (x, crc) :: r → 64 ≤ echo.length →
    ofLe (echo.drop (echo.length - 4)) = crc32 (echo.take (echo.length - 4)) →
    crc32c ((echo.drop 38).take (echo.length - 42)) = crc →
    ∃ t, exec (.readbackVerdict dt p echo) s = .next t ∧ (t.prt p).readback = r ∧ SameRegs s t [] ∧ SameMemory s t)

/-! ### The Latch (R30-R35, R50-R62, R385) -/

/-- R30, R31, R53, R62: FIRE, a time trigger and a line trigger that are armed on a group with a pending register of a page the Ward
models (CVn) take the next Latch sequence number and queue one commit for it; a trigger register that is armed already is refused with
KIND 2; a group that is held, or armed already, refuses the commit with code 9; a mask of 0 arms nothing. -/
def Obligations.CommitsAreArmed : Prop :=
  (∀ (s : State) (dt req off m : Nat) (n : Fin 4) (begun : List Nat) (v : Word) (trig : Trigger) (c : Instr),
    (c = .fire dt req v begun ∧ trig = .fire ∨
      c = .timeTriggerArm dt req n v ∧ trig = .time n (s.rn64 (Reg.latchTtLo n)) ∧ v.getLsbD 31 = true ∧
        s.trigBlocked (Reg.latchTtCtrl n) m = false ∨
      c = .lineTriggerArm dt req n v ∧ trig = .line n (bitsOf v.toNat 17 16) ∧ v.getLsbD 31 = true ∧
        s.trigBlocked (Reg.latchLt n) m = false) →
    m = v.toNat % 65536 → off ∈ s.pendingOf m → off / 4096 = 0x010 + n → m &&& s.busyMask = 0 →
    ∃ t x, exec c s = .next t ∧ t.latch.armed.getLast? = some x ∧ x.seq = s.nextSeq ∧ x.groups = m ∧ x.trig = trig ∧
      t.latch.armed.length = s.latch.armed.length + 1 ∧ t.latch.accepted = s.latch.accepted ∧ t.fld Reg.latchSeq 15 0 = s.nextSeq ∧
      t.shadow = s.shadow ∧ SameRegs s t [Reg.latchSeq, Reg.latchStat, Reg.latchTtCtrl n, Reg.latchLt n] ∧ SameMemory s t) ∧
  (∀ (s : State) (dt req : Nat) (n : Fin 4) (v : Word), s.bit (Reg.latchTtCtrl n) 31 = true →
    ∃ t, exec (.timeTriggerArm dt req n v) s = .next t ∧ t.fld (pgViol 0x001) 14 12 = 2 ∧
      OnlyRegs s t [pgViol 0x001, pgStat 0x001]) ∧
  (∀ (s : State) (dt req : Nat) (n : Fin 4) (v : Word), s.bit (Reg.latchLt n) 31 = true →
    ∃ t, exec (.lineTriggerArm dt req n v) s = .next t ∧ t.fld (pgViol 0x001) 14 12 = 2 ∧
      OnlyRegs s t [pgViol 0x001, pgStat 0x001]) ∧
  (∀ (s : State) (dt req : Nat) (begun : List Nat) (v : Word), v.toNat % 65536 &&& s.busyMask ≠ 0 → s.turnkey.await = none →
    ∃ t, exec (.fire dt req v begun) s = .next t ∧ t.fld Reg.wardVerdict 3 0 = 9 ∧ t.rn Reg.wardVseq = s.nextSeq ∧
      t.bit Reg.latchStat 4 = true ∧ t.bit Reg.latchStat 1 = true ∧
      t.rn Reg.wardRefuseCnt = min (s.rn Reg.wardRefuseCnt + 1) 0xFFFFFFFF ∧
      OnlyRegs s t [Reg.latchSeq, Reg.latchStat, Reg.wardVerdict, Reg.wardVseq, Reg.wardRefuseCnt, Reg.wardStat]) ∧
  (∀ (s : State) (dt req : Nat) (begun : List Nat) (v : Word), v.toNat % 65536 = 0 →
    ∃ t, exec (.fire dt req v begun) s = .next t ∧ OnlyRegs s t [])

/-- R32, R50, R53, R56: while nothing runs that the Ward charges and no canvas is live, a fire puts the pending field of its groups
(a bank select of COEFn) into force at once: a write to FIRE, a time trigger that is reached and the T_FIRE of a wall commit every
verdict of which passed. It is pending no longer, the commit is gone, and LATCH.STAT says so.
R57, R59: at its Latch line a Tumbler puts the SL register that waits for it (LAYn.HPHASE) into force, the page header names the
commit, and LATCH.STAT says that all of it has applied; a Tumbler that nothing waits for changes nothing. -/
def Obligations.FiredCommitsApply : Prop :=
  (∀ (s : State) (dt req m : Nat) (i : Fin 8) (n : Fin 4) (v w : Word) (begun : List Nat) (x : Commit) (c : Instr),
    s.OneWaits (Reg.coefCtrl i) v m → s.Unloaded →
    (c = .fire dt req w begun ∧ m = w.toNat % 65536 ∧ s.latch.accepted = [] ∧ m &&& s.wallGroups = 0 ∧
        3 ≤ s.fld Reg.wardMargin 15 0 ∧ s.turnkey.await = none ∨
      c = .timeTriggerFire dt n begun ∧ s.latch.accepted = [x] ∧ x.groups = m ∧ (∃ at_, x.trig = .time n at_ ∧
        at_ ≤ (s.now + dt) % 2 ^ 64) ∧ m &&& s.wallGroups = 0 ∨
      c = .commitFire dt begun ∧ s.latch.accepted = [x] ∧ x.groups = m ∧ (∃ at_ wseq o, x.trig = .hasp at_ ∧
        at_ ≤ (s.now + dt) % 2 ^ 64 ∧ x.wall = some (wseq, o) ∧ (s.tick dt).wallRefuser wseq = none)) →
    ∃ t, exec c s = .next t ∧ t.fld (Reg.coefCtrl i) 0 0 = v.toNat % 2 ∧ t.isPending (Reg.coefCtrl i) = false ∧
      t.latch.accepted = [] ∧ t.latch.applying = [] ∧ t.bit Reg.latchStat 0 = true ∧
      (∀ j : Fin 8, j ≠ i → t.reg (Reg.coefCtrl j) = s.reg (Reg.coefCtrl j)) ∧ SameMemory s t) ∧
  (∀ (s : State) (dt line seq : Nat) (n : Fin 64) (cv : Fin 4) (tmb : Fin 9) (a : Applying), s.latch.applying = [a] →
    a.off = Reg.layHphase n → a.cv = cv → a.at_ = .lines [(tmb.val, line)] false → a.begun = false → a.seq = seq → seq < 65536 →
    s.fld (pgApplied (0x020 + n)) 15 0 ≠ seq →
    ∃ t, exec (.tumblerLatchLine dt cv tmb) s = .next t ∧ t.reg (Reg.layHphase n) = s.takenWord (Reg.layHphase n) a.value ∧
      t.isPending (Reg.layHphase n) = false ∧ t.latch.applying = [] ∧ t.fld (pgApplied (0x020 + n)) 15 0 = seq ∧
      t.bit (pgStat (0x020 + n)) 1 = true ∧ t.bit Reg.latchStat 0 = true ∧
      SameRegs s t [Reg.layHphase n, pgApplied (0x020 + n), pgStat (0x020 + n), Reg.latchStat] ∧ SameMemory s t) ∧
  (∀ (s : State) (dt : Nat) (cv : Fin 4) (tmb : Fin 9), (∀ x ∈ s.crossings cv, x.1 ≠ tmb.val) →
    ∃ t, exec (.tumblerLatchLine dt cv tmb) s = .next t ∧ OnlyRegs s t [])

/-! ### The Ward (R29-R40) -/

/-- R33, R35: the verdict ends an evaluation: EVAL_NS is its length; with WARD.CTRL.SEAL the commit is refused with code 9 and
counted, and its pending registers stay; a commit that passes is accepted and waits for its trigger. -/
def Obligations.WardJudges : Prop :=
  (∀ (s : State) (dt t0 : Nat) (begun : List Nat) (c : Commit) (r : List Commit), s.latch.armed = c :: r →
    s.latch.evalFrom = some t0 → s.needsEval c = true → s.bit Reg.wardCtrl 0 = true → c.wall = none → c.seq < 65536 →
    s.turnkey.await = none →
    ∃ t, exec (.wardVerdict dt begun) s = .next t ∧ t.rn Reg.wardEvalNs = ((s.now + dt) % 2 ^ 64 - t0) % 2 ^ 32 ∧
      t.fld Reg.wardVerdict 3 0 = 9 ∧ t.rn Reg.wardVseq = c.seq ∧ t.bit Reg.latchStat 1 = true ∧ t.bit Reg.wardStat 0 = true ∧
      t.rn Reg.wardRefuseCnt = min (s.rn Reg.wardRefuseCnt + 1) 0xFFFFFFFF ∧
      t.latch.armed.map (·.seq) = r.map (·.seq) ∧ t.latch.accepted = s.latch.accepted ∧ t.shadow = s.shadow ∧ SameMemory s t) ∧
  (∀ (s : State) (dt t0 n at_ : Nat) (begun : List Nat) (c : Commit), s.latch.armed = [c] → s.latch.evalFrom = some t0 →
    s.latch.accepted = [] → c.trig = .time n at_ → c.due = false → (s.now + dt) % 2 ^ 64 < at_ → c.wall = none →
    s.turnkey.await = none →
    (({ (s.tick dt).setRn Reg.wardEvalNs ((s.tick dt).now - t0) with
        latch := { s.latch with armed := [], evalFrom := none } } : State).judge [] c).code = 0 →
    ∃ t, exec (.wardVerdict dt begun) s = .next t ∧ t.latch.armed = [] ∧ t.latch.accepted = [{ c with late := false }] ∧
      t.latch.evalFrom = none ∧ t.fld Reg.wardVerdict 3 0 = 0 ∧ t.bit Reg.wardVerdict 31 = true ∧ t.shadow = s.shadow ∧ SameMemory s t)

/-- R36-R38, R40: a write to CEIL, RETX or MARGIN that lands starts a re-admission and abandons an evaluation; its verdict ends it;
what was shed is restored at the pace of the fastest canvas, one object at a time, while the standing configuration passes. -/
def Obligations.ReadmissionRuns : Prop :=
  (∀ (s : State) (dt req : Nat) (v : Word), s.locked 0x002 = false → 50 ≤ v.toNat % 128 → v.toNat % 128 ≤ 80 →
    ∃ t, exec (.ceilWrite dt req v) s = .next t ∧ t.fld Reg.wardCeil 6 0 = v.toNat % 128 ∧
      t.ward = { s.ward with readmit := some ((s.now + dt) % 2 ^ 64) } ∧ t.latch = { s.latch with evalFrom := none } ∧
      SameRegs s t [Reg.wardCeil, Reg.wardStat] ∧ SameMemory s t) ∧
  (∀ (s : State) (dt req : Nat) (v : Word), s.locked 0x002 = true → v.toNat % 128 ≠ s.fld Reg.wardCeil 6 0 →
    ∃ t, exec (.ceilWrite dt req v) s = .next t ∧ t.fld (pgViol 0x002) 14 12 = 1 ∧ t.reg Reg.wardCeil = s.reg Reg.wardCeil ∧
      t.ward = s.ward ∧ t.latch = s.latch ∧ SameMemory s t) ∧
  (∀ (s : State) (dt req : Nat) (v : Word), v.toNat % 1024 ≤ 500 →
    ∃ t, exec (.retxWrite dt req v) s = .next t ∧ t.fld Reg.wardRetx 9 0 = v.toNat % 1024 ∧
      t.ward = { s.ward with readmit := some ((s.now + dt) % 2 ^ 64) } ∧ t.latch = { s.latch with evalFrom := none } ∧
      SameRegs s t [Reg.wardRetx, Reg.wardStat] ∧ SameMemory s t) ∧
  (∀ (s : State) (dt req : Nat) (v : Word), 2000 ≤ v.toNat % 65536 →
    ∃ t, exec (.marginWrite dt req v) s = .next t ∧ t.fld Reg.wardMargin 15 0 = v.toNat % 65536 ∧
      t.ward = { s.ward with readmit := some ((s.now + dt) % 2 ^ 64) } ∧ t.latch = { s.latch with evalFrom := none } ∧
      SameRegs s t [Reg.wardMargin, Reg.wardStat] ∧ SameMemory s t) ∧
  (∀ (s : State) (dt t0 : Nat) (begun : List Nat), s.ward.readmit = some t0 → s.latch = {} →
    ({ s.tick dt with ward := { s.ward with readmit := none, gap := false } }.setBit Reg.wardStat 5).judgeStanding.code = 0 →
    ∃ t, exec (.readmissionVerdict dt begun) s = .next t ∧ t.ward.readmit = none ∧ t.ward.gap = false ∧ t.bit Reg.wardStat 5 = true ∧ t.latch = {} ∧
      t.rn Reg.wardShedLo = s.rn Reg.wardShedLo ∧ t.rn Reg.wardShedHi = s.rn Reg.wardShedHi ∧
      t.rn Reg.wardShedCv = s.rn Reg.wardShedCv ∧ SameMemory s t) ∧
  (∀ (s : State) (dt n : Nat) (tried r : List Nat), s.ward.round = some tried → s.bit Reg.wardCtrl 1 = true →
    s.ward.readmit = none → s.ward.restored + s.restorePace ≤ (s.now + dt) % 2 ^ 64 → n < 32 →
    s.restoreOrder.filter (fun x => !tried.contains x) = (n + 4) :: r →
    (((s.tick dt).unshedLay n).standing.evaluate none (fun _ => 0) (fun _ => false)).code = 0 →
    ∃ t, exec (.restoration dt) s = .next t ∧ t.bit Reg.wardShedLo n = false ∧ t.bit Reg.wardStat 2 = true ∧
      t.ward.restored = (s.now + dt) % 2 ^ 64 ∧ t.ward.round = (if r.isEmpty then none else some (tried ++ [n + 4])) ∧
      SameMemory s t) ∧
  (∀ (s : State) (dt : Nat), (s.now + dt) % 2 ^ 64 < s.ward.restored + s.restorePace →
    ∃ t, exec (.restoration dt) s = .next t ∧ OnlyRegs s t [])

/-- R34, R384, R385: a COMMIT of another device arms its groups here for its T_FIRE under its wall sequence number; a VERDICT is kept;
20 µs before T_FIRE a commit that a device has refused is dropped and the device named. -/
def Obligations.WallCommits : Prop :=
  (∀ (s : State) (dt off : Nat) (n : Fin 4) (p : Fin 2) (f : List Byte) (h : HFrame), s.haspUp.contains p.val = true →
    ethSound f = true → haspParse f = some h → h.type = 4 → h.src ≠ s.ringPos → (s.tick dt).haspSeen h = false → s.latch = {} →
    off ∈ s.pendingOf (beAt h.body 2 2) → off / 4096 = 0x010 + n →
    ∃ t x, exec (.commit dt p f) s = .next t ∧ t.hasp.wseq = beAt h.body 0 2 ∧ t.bit Reg.latchStat 5 = true ∧
      t.latch.armed = [x] ∧ x.groups = beAt h.body 2 2 ∧ x.trig = .hasp (beAt h.body 4 8) ∧
      x.wall = some (beAt h.body 0 2, h.src) ∧ x.seq = s.nextSeq ∧ SameRegs s t [Reg.latchSeq, Reg.latchStat] ∧ SameMemory s t) ∧
  (∀ (s : State) (dt : Nat) (p : Fin 2) (f : List Byte) (h : HFrame), s.haspUp.contains p.val = true → ethSound f = true →
    haspParse f = some h → h.type = 5 → h.src ≠ s.ringPos → (s.tick dt).haspSeen h = false →
    ∃ t, exec (.verdict dt p f) s = .next t ∧
      t.hasp.verdicts = s.hasp.verdicts ++ [(beAt h.body 0 2, h.src, beAt h.body 2 1)] ∧ SameRegs s t [] ∧ SameMemory s t) ∧
  (∀ (s : State) (dt w o peer at_ : Nat) (x : Commit), s.latch.armed = [] → s.latch.accepted = [x] → x.trig = .hasp at_ →
    x.due = false → at_ ≤ (s.now + dt) % 2 ^ 64 + 20000 → x.wall = some (w, o) → (s.tick dt).wallRefuser w = some peer →
    s.turnkey.await = none →
    ∃ t, exec (.commitVerdictDeadline dt) s = .next t ∧ t.latch.accepted = [] ∧ t.bit Reg.wardVerdict 16 = true ∧
      t.fld Reg.wardVerdict 20 17 = peer % 16 ∧ t.bit Reg.latchStat 1 = true ∧
      t.rn Reg.wardRefuseCnt = min (s.rn Reg.wardRefuseCnt + 1) 0xFFFFFFFF ∧
      SameRegs s t [Reg.wardVerdict, Reg.wardVseq, Reg.wardRefuseCnt, Reg.wardStat, Reg.latchStat] ∧ SameMemory s t) ∧
  (∀ (s : State) (dt w o at_ : Nat) (x : Commit), s.latch.armed = [] → s.latch.accepted = [x] → x.trig = .hasp at_ →
    x.wall = some (w, o) → (s.tick dt).wallRefuser w = none →
    ∃ t, exec (.commitVerdictDeadline dt) s = .next t ∧ t.latch = s.latch ∧ OnlyRegs s t [])

/-! ### Canvases and frame timing (R65-R84) -/

/-- R68, R69, R71, R204: with delivery complete before the deadline and no genlock, the latch time is the earliest allowed by T_min and
the lead; at that instant the frame counts as shown, LAST_LATCH names it and the next start is due; the LATCH is queued a second
time; a void latch moves on in the same way; an edge of the frame pulse is kept, rounded up to 4 ns. -/
def Obligations.FramesLatch : Prop :=
  (∀ (s : State) (dt : Nat) (cv : Fin 4) (d : Deliv), (s.cv cv).unsettled = true → (s.cv cv).deliv = some d → d.done = none →
    d.broken = false → d.frame = ((s.cv cv).showFrame + 1) % 2 ^ 32 → (s.now + dt) % 2 ^ 64 ≤ s.deadlineOf cv →
    s.allSent cv d = true → (s.cv cv).comp.any (fun k => k.frame = d.frame && !k.done) = false →
    (s.timingOf cv).genlock % 8 = 0 → s.bit (Reg.cvMode cv) 3 = false → s.keep.fspWait = none →
    ∃ t e, exec (.deliveryComplete dt cv) s = .next t ∧ (t.cv cv).deliv = some e ∧ e.frame = d.frame ∧
      e.done = some ((s.now + dt) % 2 ^ 64) ∧ (t.cv cv).cand = none ∧
      (t.cv cv).latchAt = some (max ((s.cv cv).lastLatch + (s.timingOf cv).tmin) ((s.now + dt) % 2 ^ 64 + (s.timingOf cv).lead)) ∧
      SameMemory s t) ∧
  (∀ (s : State) (dt l : Nat) (cv : Fin 4), (s.cv cv).latchAt = some l → l ≤ (s.now + dt) % 2 ^ 64 → (s.cv cv).live = true →
    (s.cv cv).composed = none → (s.cv cv).hinge = none → (s.cv cv).hingeNext = none →
    ∃ t, exec (.latchInstant dt cv) s = .next t ∧ (t.cv cv).lastLatch = l ∧ (t.cv cv).latchAt = none ∧ (t.cv cv).deliv = none ∧
      (t.cv cv).showFrame = ((s.cv cv).showFrame + 1) % 2 ^ 32 ∧ (t.cv cv).due.isSome = true ∧ t.rn64 (Reg.cvLastLatchLo cv) = l ∧
      (t.bank cv).showB = (s.cv cv).deliv.any (·.bank = 1) ∧
      SameRegs s t [Reg.cvStat cv, Reg.cvLastLatchLo cv, Reg.cvLastLatchLo cv + 4, Reg.scnCaptCtrl cv, Reg.scnStat cv,
        Reg.ttblStat] ∧
      SameMemory s t) ∧
  (∀ (s : State) (dt p t0 l : Nat) (cv : Fin 4), (s.cv cv).latchRep = some t0 → t0 ≤ (s.now + dt) % 2 ^ 64 →
    (s.cv cv).latchAt = some l → s.withPartners (s.portsOf cv) = [p] → s.verOf p = 2 → (s.prt p).up = true →
    s.bit (Reg.prtCtrl p) 0 = true → s.wireBusy p ((s.now + dt) % 2 ^ 64) = true → s.oversize p 7 64 = false →
    ∃ t, exec (.latchRepeat dt cv) s = .next t ∧ (t.cv cv).latchRep = none ∧
      (t.prt p).queue 7 = (s.prt p).queue 7 ++
        [⟨.msg 0x11 0xFFFF (s.latchBody cv (((s.cv cv).showFrame + 1) % 2 ^ 32) l), (s.now + dt) % 2 ^ 64⟩] ∧ SameRegs s t [] ∧
      SameMemory s t) ∧
  (∀ (s : State) (dt l : Nat) (cv : Fin 4), (s.cv cv).voidAt = some l → l ≤ (s.now + dt) % 2 ^ 64 → (s.cv cv).live = true →
    (s.cv cv).composed = none → (s.cv cv).hinge = none → (s.cv cv).hingeNext = none →
    ∃ t, exec (.voidLatch dt cv) s = .next t ∧ (t.cv cv).lastLatch = l ∧ (t.cv cv).voidAt = none ∧ (t.cv cv).primed = true ∧
      (t.cv cv).showFrame = (if (s.cv cv).primed then ((s.cv cv).showFrame + 1) % 2 ^ 32 else (s.cv cv).showFrame) ∧
      (t.cv cv).due.isSome = true ∧ t.rn64 (Reg.cvLastLatchLo cv) = l ∧
      SameRegs s t [Reg.cvLastLatchLo cv, Reg.cvLastLatchLo cv + 4] ∧ SameMemory s t) ∧
  (∀ (s : State) (dt : Nat) (p : Fin 16), s.gpioFunc p = 1 →
    ∃ t, exec (.framePulse dt) s = .next t ∧
      t.framePulse = ((s.now + dt) % 2 ^ 64 + 3) / 4 * 4 :: s.framePulse.take 1 ∧ SameRegs s t [] ∧ SameMemory s t)

/-- R71-R75, R384: a frame not delivered at its deadline, and in through mode one that scan-out overtakes, is aborted as an underrun
of the canvas's own, with a void latch at T_max; in a wall the last vote sets the latch time to the latest candidate, and a vote missing
10 µs after the deadline aborts the frame. Of an underrun, `u` is the state in which the lines whose time has passed are composed. -/
def Obligations.FramesAbort : Prop :=
  (∀ (s : State) (dt : Nat) (cv : Fin 4), (s.cv cv).unsettled = true → (s.cv cv).cand = none →
    s.deadlineOf cv ≤ (s.now + dt) % 2 ^ 64 → s.bit (Reg.cvMode cv) 2 = false → s.bit (Reg.cvMode cv) 3 = false →
    ∃ t, exec (.frameDeadline dt cv) s = .next t ∧ t.bit (Reg.cvStat cv) 0 = true ∧ t.bit (Reg.cvStat cv) 1 = true ∧
      t.rn (Reg.cvAbortCnt cv) = min (s.rn (Reg.cvAbortCnt cv) + 1) 0xFFFFFFFF ∧
      t.rn (Reg.cvUnderrunCnt cv) = min (s.rn (Reg.cvUnderrunCnt cv) + 1) 0xFFFFFFFF ∧ (t.cv cv).deliv = none ∧
      (t.cv cv).voidAt = some ((s.cv cv).lastLatch + (s.timingOf cv).tmax) ∧
      (t.cv cv).showFrame = (s.cv cv).showFrame ∧ SameMemory s t) ∧
  (∀ (s u : State) (dt p : Nat) (cv : Fin 4) (k : Comp), u = (s.tick dt).composeDue cv → (u.cv cv).unsettled = true →
    (u.cv cv).comp = some k → k.done = false → (u.cv cv).deliv = none → u.bit (Reg.cvMode cv) 2 = true →
    u.bit (Reg.cvMode cv) 3 = false → k.linesDone < (u.cvSize cv).2 →
    k.start + (k.linesDone + k.bands.length) * (((u.timingOf cv).tmin - (u.timingOf cv).lead) / (u.cvSize cv).2) ≤
      (s.now + dt) % 2 ^ 64 →
    p ∈ u.portsOf cv → (∀ x ∈ u.packetsFor cv k.frame p, k.linesDone ≤ (u.pixRows x).1) →
    ∃ t, exec (.underrun dt cv) s = .next t ∧ t.bit (Reg.cvStat cv) 0 = true ∧ t.bit (Reg.cvStat cv) 1 = true ∧
      t.rn (Reg.cvUnderrunCnt cv) = min (u.rn (Reg.cvUnderrunCnt cv) + 1) 0xFFFFFFFF ∧
      (t.cv cv).voidAt = some ((u.cv cv).lastLatch + (u.timingOf cv).tmax) ∧ SameMemory u t) ∧
  (∀ (s : State) (dt l0 l1 k0 : Nat) (cv : Fin 4) (p : Fin 2) (f : List Byte) (h : HFrame), s.haspUp.contains p.val = true →
    ethSound f = true → haspParse f = some h → h.type = 3 → h.src ≠ s.ringPos → (s.tick dt).haspSeen h = false →
    beAt h.body 0 1 = cv.val → beAt h.body 1 8 = (s.cv cv).lastLatch → beAt h.body 9 8 = l1 → l1 ≠ 2 ^ 64 - 1 →
    (s.cv cv).unsettled = true → s.bit (Reg.cvMode cv) 3 = true → (s.cv cv).cand = some l0 →
    (s.cv cv).votes = [⟨s.ringPos, (s.cv cv).lastLatch, some l0, k0⟩] → (s.tick dt).voters cv = [s.ringPos, h.src] →
    s.keep.fspWait = none →
    ∃ t, exec (.vote dt p f) s = .next t ∧ (t.cv cv).latchAt = some (max l0 l1) ∧
      (t.cv cv).kNext = some (min (min 65535 k0) (beAt h.body 17 2)) ∧ SameMemory s t) ∧
  (∀ (s : State) (dt : Nat) (cv : Fin 4), (s.cv cv).unsettled = true → s.bit (Reg.cvMode cv) 3 = true →
    s.bit (Reg.cvMode cv) 2 = false → s.deadlineOf cv + 10000 ≤ (s.now + dt) % 2 ^ 64 →
    ∃ t, exec (.voteTimeout dt cv) s = .next t ∧ t.bit (Reg.cvStat cv) 1 = true ∧ t.bit (Reg.cvStat cv) 2 = true ∧
      t.bit (Reg.cvStat cv) 3 = true ∧ t.rn (Reg.cvAbortCnt cv) = min (s.rn (Reg.cvAbortCnt cv) + 1) 0xFFFFFFFF ∧
      t.rn (Reg.cvUnderrunCnt cv) = s.rn (Reg.cvUnderrunCnt cv) ∧
      (t.cv cv).voidAt = some ((s.cv cv).lastLatch + (s.timingOf cv).tmax) ∧ SameMemory s t)

/-- R65-R67, R76, R185-R187: a start that is due and waits for nothing, or whose wait has reached its limit, counts the frame and
begins to compose it; its end hands it over to delivery; in through mode lines begin in turn, delivery starts behind the lead lines, and
a BIND lane late at a pixel keeps its policy from there. In through mode `u` is the state in which the lines whose time has passed are
composed. -/
def Obligations.CompositionRuns : Prop :=
  (∀ (s : State) (dt n : Nat) (cv : Fin 4) (tie : Bool) (begun : List Nat) (c : Instr),
    (c = .compositionStart dt cv tie begun ∧ (∃ d, (s.cv cv).due = some d ∧ d ≤ (s.now + dt) % 2 ^ 64) ∧
        (s.tick dt).waitMet cv = true ∨
      c = .waitLimit dt cv begun ∧ ∃ w, (s.cv cv).waitFrom = some w ∧
        w + ((s.timingOf cv).tmax - (s.timingOf cv).tmin) ≤ (s.now + dt) % 2 ^ 64) →
    n = (s.rn (Reg.cvFrameCnt cv) + 1) % 2 ^ 32 → (s.cv cv).live = true → (s.cv cv).comp = none → s.latch = {} →
    s.faults.taking = none → s.keep.move = none → s.keep.emerg = false → s.paceCanvas ≠ some cv.val →
    ∃ t k, exec c s = .next t ∧ t.rn (Reg.cvFrameCnt cv) = n ∧ (t.cv cv).comp = some k ∧ k.frame = n ∧
      k.start = (s.now + dt) % 2 ^ 64 ∧ k.done = false ∧ (t.cv cv).lastStart = (s.now + dt) % 2 ^ 64 ∧ (t.cv cv).waitFrom = none ∧
      (∀ h ∈ s.portsOf cv, (t.prt h).reverting = false) ∧ SameMemory s t) ∧
  (∀ (s : State) (dt : Nat) (cv : Fin 4) (k : Comp), (s.cv cv).comp = some k → k.done = false → (s.cv cv).live = true →
    s.bit (Reg.cvMode cv) 2 = false → (s.cv cv).deliv.isSome = true ∨ (s.cv cv).primed = false → s.latch.applying = [] →
    s.keep.fspWait = none →
    ∃ t k', exec (.compositionEnd dt cv) s = .next t ∧ (t.cv cv).comp = some k' ∧ k'.done = true ∧
      k'.linesDone = (s.cvSize cv).2 ∧ (t.cv cv).composed = some (k.frame, k.bank)) ∧
  (∀ (s u : State) (dt y : Nat) (cv : Fin 4) (k : Comp), u = (s.tick dt).composeDue cv → (u.cv cv).comp = some k → k.done = false →
    (u.cv cv).live = true → u.bit (Reg.cvMode cv) 2 = true → y < k.bands.length → y < u.fld (Reg.scnLeadLines cv) 10 0 →
    y < (u.cvSize cv).2 → mfind k.begun y = none → u.latch.applying = [] →
    ∃ t, exec (.throughLineStart dt cv y) s = .next t ∧
      (t.cv cv).comp = some { k with begun := mput k.begun y ((s.now + dt) % 2 ^ 64) } ∧
      t.fld (Reg.tmbStat (k.tmbOf true y)) 29 16 = y % 2 ^ 14 ∧ SameMemory u t) ∧
  (∀ (s u : State) (dt : Nat) (cv : Fin 4) (k : Comp), u = (s.tick dt).composeDue cv → (u.cv cv).comp = some k →
    k.dropped = false → (u.cv cv).live = true → u.bit (Reg.cvMode cv) 2 = true → (u.cv cv).deliv = none →
    k.frame = ((u.cv cv).showFrame + 1) % 2 ^ 32 →
    (∀ y < min (u.fld (Reg.scnLeadLines cv) 10 0) (u.cvSize cv).2, y ∈ k.composedLines) →
    ∃ t d, exec (.throughDeliveryStart dt cv) s = .next t ∧ (t.cv cv).deliv = some d ∧ d.frame = k.frame ∧
      d.start = (s.now + dt) % 2 ^ 64 ∧ d.bank = 0 ∧ d.done = none ∧ SameMemory u t) ∧
  (∀ (s : State) (dt line x : Nat) (cv : Fin 4) (n : Fin 64) (k : Comp), (s.cv cv).comp = some k → k.done = false →
    (mfind k.begun line).isSome = true → line ∉ k.composedLines → (s.tick dt).cutoffOf cv k line x ≤ (s.now + dt) % 2 ^ 64 →
    (s.tick dt).bindMissing k n line x = true →
    ∃ t, exec (.bindCutoff dt cv n line x) s = .next t ∧ (t.cv cv).comp = some { k with late := k.late ++ [(n.val, line, x)] } ∧
      t.bit (Reg.layStat n) 9 = true ∧ SameRegs s t [Reg.layStat n] ∧ SameMemory s t)

/-- R79-R83, R205: HINGE.START arms a hinge of the canvas's own, or is refused with KIND 2 while one is under way; once its tiles are
held the canvas restarts in PRIMING with its banks laid out anew; at the hinge deadline it runs, and the tiles that have not
acknowledged are blanked; a HOLD is queued a second time. -/
def Obligations.HingeRuns : Prop :=
  (∀ (s : State) (dt req : Nat) (cv : Fin 4) (v : Word), v.getLsbD 0 = true → s.hingeBusy cv = false →
    ∃ t x, exec (.hingeStart dt req cv v) s = .next t ∧ t.latch.armed.getLast? = some x ∧ x.trig = .hinge cv ∧ x.groups = 0 ∧
      x.seq = s.nextSeq ∧ t.latch.armed.length = s.latch.armed.length + 1 ∧ SameRegs s t [Reg.latchSeq] ∧ SameMemory s t) ∧
  (∀ (s : State) (dt req : Nat) (cv : Fin 4) (v : Word), v.getLsbD 0 = true → s.hingeBusy cv = true →
    ∃ t, exec (.hingeStart dt req cv v) s = .next t ∧ t.fld (pgViol (0x010 + cv)) 14 12 = 2 ∧
      OnlyRegs s t [pgViol (0x010 + cv), pgStat (0x010 + cv)]) ∧
  (∀ (s : State) (dt : Nat) (cv : Fin 4) (h : Hinge), (s.cv cv).hinge = some h → (s.cv cv).gen = .reconfig →
    ∃ t, exec (.hingeReconfigDone dt cv) s = .next t ∧ (t.cv cv).gen = .priming ∧
      (t.cv cv).hinge = some { h with s := some ((s.now + dt) % 2 ^ 64) } ∧ (t.cv cv).lastLatch = (s.now + dt) % 2 ^ 64 ∧
      (t.cv cv).due = some ((s.now + dt) % 2 ^ 64) ∧ (t.cv cv).showFrame = s.rn (Reg.cvFrameCnt cv) ∧
      (t.cv cv).primed = s.bit (Reg.cvMode cv) 2 ∧ (t.bank cv).valid = true ∧ (t.bank cv).w = (s.cvSize cv).1 ∧
      (t.bank cv).h = (s.cvSize cv).2 ∧ (t.bank cv).bpp = s.bppOf cv ∧
      (s.bit (Reg.cvMode cv) 2 = false → (t.cv cv).voidAt = some ((s.now + dt) % 2 ^ 64 + s.fld (Reg.cvTmin cv) 25 0)) ∧
      SameMemory s t) ∧
  (∀ (s : State) (dt : Nat) (cv : Fin 4) (h : Hinge), (s.cv cv).hinge = some h → (s.cv cv).gen = .priming →
    h.deadline ≤ (s.now + dt) % 2 ^ 64 →
    ∃ t, exec (.hingeDeadline dt cv) s = .next t ∧ (t.cv cv).gen = .run ∧ t.bit (Reg.cvStat cv) 10 = true ∧
      (∀ n x, (n, x) ∈ s.placedOn cv → x.given = true → s.unacked x = true →
        (t.tile n).state = .blanked ∧ (t.tile n).released = false ∧ (t.tile n).dark = true) ∧ SameMemory s t) ∧
  (∀ (s : State) (dt t0 p tile : Nat) (cv : Fin 4) (body : List Byte), (s.cv cv).holds = [(t0, p, tile, body)] →
    t0 ≤ (s.now + dt) % 2 ^ 64 → (s.prt p).up = true → s.bit (Reg.prtCtrl p) 0 = true → s.wireBusy p ((s.now + dt) % 2 ^ 64) = true → s.oversize p 7 (max 64 (26 + body.length)) = false →
    ∃ t, exec (.holdRepeat dt cv) s = .next t ∧ (t.cv cv).holds = [] ∧
      (t.prt p).queue 7 = (s.prt p).queue 7 ++ [⟨.msg 0x12 tile body, (s.now + dt) % 2 ^ 64⟩] ∧ SameRegs s t [] ∧ SameMemory s t)

/-- R135: a container value V of the alpha depth k becomes the 16-bit unorm nearest to V × 65,535 / F, ties upward, at most 65,535,
with F = (2^k - 1) × 2^(16-k); k is 8 for RGBA8, BGRA8 and A8, 2 for RGB10A2 and 16 for RGBA16; a format without alpha enters with
V = 65,535 and k = 16, and so has 65,535. -/
def Obligations.AlphaBecomesUnorm : Prop :=
  (∀ (k v a : Nat), k = 2 ∨ k = 8 ∨ k = 16 → a ≤ 65535 →
    (alphaOf k v = a ↔
      2 * a * ((2 ^ k - 1) * 2 ^ (16 - k)) ≤ 2 * v * 65535 + (2 ^ k - 1) * 2 ^ (16 - k) ∧
      (a < 65535 → 2 * v * 65535 + (2 ^ k - 1) * 2 ^ (16 - k) < 2 * (a + 1) * ((2 ^ k - 1) * 2 ^ (16 - k))))) ∧
  (∀ (k v : Nat), alphaOf k v ≤ 65535) ∧
  [0x01, 0x02, 0x18, 0x04, 0x05].map fmtAlpha = [8, 8, 8, 2, 16] ∧
  (∀ (f : Nat), fmtHasAlpha f = false → fmtAlpha f = 16 ∧ alphaOf (fmtAlpha f) 65535 = 65535)

/-! ### Parolo Link (R196-R253) -/

/-- R212-R214, R228-R231: a link that comes up or goes down is shown; DISCOVER goes out while a tile is unassigned; a new tile that
announces itself takes the lowest free number where the port assigns tiles, and is listed where not; an ASSIGN unanswered for 10 ms is
repeated three times; a conflict settles once one ID alone is heard; the tile table reads, writes, releases and clears. -/
def Obligations.TilesAreAssigned : Prop :=
  (∀ (s : State) (dt grid : Nat) (p : Fin 64), s.bit (Reg.prtCtrl p) 0 = true → (s.prt p).up = false → (s.prt p).lost = false →
    ∃ t, exec (.linkUp dt p grid) s = .next t ∧ (t.prt p).up = true ∧ (t.prt p).grid = grid ∧ t.bit (Reg.prtStat p) 0 = true ∧
      SameMemory s t) ∧
  (∀ (s : State) (dt : Nat) (p : Fin 64), (s.prt p).up = true → s.loopHead p = none →
    ∃ t, exec (.linkDown dt p) s = .next t ∧ (t.prt p).up = false ∧ (t.prt p).wire = none ∧ t.bit (Reg.prtStat p) 1 = true ∧
      SameRegs s t [Reg.prtStat p] ∧ SameMemory s t) ∧
  (∀ (s : State) (dt : Nat) (p : Fin 64), s.bit (Reg.prtCtrl p) 1 = true → s.unassignedOn p = true →
    (s.prt p).lastDisc + 1000000000 ≤ (s.now + dt) % 2 ^ 64 → (s.prt p).up = true → s.bit (Reg.prtCtrl p) 0 = true →
    s.wireBusy p ((s.now + dt) % 2 ^ 64) = true → (s.prt p).queue 6 = [] → (s.prt p).queue (waitQueue 6) = [] →
    s.oversize p 6 64 = false →
    ∃ t, exec (.discoverTimer dt p) s = .next t ∧ (t.prt p).lastDisc = (s.now + dt) % 2 ^ 64 ∧
      (t.prt p).queue 6 =
        [⟨.msg 0x01 0xFFFE (beBytes 8 Config.serial.toNat ++ beBytes 1 s.ringPos), (s.now + dt) % 2 ^ 64⟩] ∧
      SameRegs s t [] ∧ SameMemory s t) ∧
  (∀ (s : State) (dt req : Nat), s.taccess = none → ∃ t, exec (.discover dt req) s = .next t ∧
    (∀ p : Fin 64, s.bit (Reg.prtCtrl p) 1 = true → (t.prt p).lastDisc = (s.now + dt) % 2 ^ 64) ∧ t.bit Reg.ttblStat 0 = true ∧
    SameMemory s t) ∧
  (∀ (s : State) (dt n : Nat) (p : Fin 64) (f : List Byte) (u : Upstream), (s.tick dt).v1Announce p f = none →
    ((s.tick dt).receive p f).2 = some u → u.type = 2 → (beAt u.body 26 1).testBit 0 = false →
    s.findId (beAt u.body 8 8) = none → u.hop < 255 → s.assignedCount < 4096 → s.bit (Reg.prtCtrl p) 2 = true →
    s.lowestFree = some n →
    ∃ t, exec (.announce dt p f) s = .next t ∧ (t.tile n).id = beAt u.body 8 8 ∧ (t.tile n).state = .assigning ∧
      (t.tile n).assignAt = (s.now + dt) % 2 ^ 64 ∧ (∀ m, m ≠ n → t.tile m = s.tile m) ∧ SameMemory s t) ∧
  (∀ (s : State) (dt : Nat) (p : Fin 64) (f : List Byte) (u : Upstream), (s.tick dt).v1Announce p f = none →
    ((s.tick dt).receive p f).2 = some u → u.type = 2 → (beAt u.body 26 1).testBit 0 = false →
    s.findId (beAt u.body 8 8) = none → u.hop < 255 → s.assignedCount < 4096 → s.bit (Reg.prtCtrl p) 2 = false →
    s.announced.length < 64 → (∀ a ∈ s.announced, a.id ≠ beAt u.body 8 8) →
    ∃ t, exec (.announce dt p f) s = .next t ∧ t.announced = s.announced ++ [annOf p u] ∧ t.tiles = s.tiles ∧ SameMemory s t) ∧
  (∀ (s : State) (dt : Nat) (n : Fin 4096), (s.tile n).state = .assigning →
    (s.tile n).assignAt + 10000000 ≤ (s.now + dt) % 2 ^ 64 →
    ∃ t, exec (.assignTimeout dt n) s = .next t ∧
      ((s.tile n).assignTries < 3 → (t.tile n).assignTries = (s.tile n).assignTries + 1 ∧
        (t.tile n).assignAt = (s.now + dt) % 2 ^ 64 ∧ (t.tile n).state = .assigning) ∧
      (3 ≤ (s.tile n).assignTries → (t.tile n).state = (s.tile n).prev) ∧ SameMemory s t) ∧
  (∀ (s : State) (dt : Nat) (n : Fin 4096), (s.tile n).state = .conflict →
    (s.tile n).heard + 300000000 ≤ (s.now + dt) % 2 ^ 64 → (s.now + dt) % 2 ^ 64 < (s.tile n).heardOther + 300000000 →
    ∃ t, exec (.conflictSettle dt n) s = .next t ∧ (t.tile n).state = .reserved ∧ (∀ a ∈ t.announced, a.id ≠ (s.tile n).id) ∧
      SameRegs s t [Reg.ttblStat] ∧ SameMemory s t) ∧
  (∀ (s : State) (dt req : Nat), s.taccess = none → ((s.tile s.ttblIdx).placed && s.liveCv (s.tile s.ttblIdx).cv) = false →
    ∃ t, exec (.release dt req) s = .next t ∧ t.tile s.ttblIdx = { wornBy := (s.tile s.ttblIdx).wornBy } ∧ t.bit Reg.ttblStat 0 = true ∧ SameMemory s t) ∧
  (∀ (s : State) (dt req : Nat), s.taccess = none → (s.tile s.ttblIdx).placed = true → s.liveCv (s.tile s.ttblIdx).cv = true →
    ∃ t, exec (.release dt req) s = .next t ∧ t.bit Reg.ttblStat 1 = true ∧ OnlyRegs s t [Reg.ttblStat]) ∧
  (∀ (s : State) (dt req : Nat), s.taccess = none →
    ∃ t, exec (.clrAnn dt req) s = .next t ∧ t.announced = [] ∧ t.bit Reg.ttblStat 0 = true ∧ SameRegs s t [Reg.ttblStat] ∧
      SameMemory s t) ∧
  (∀ (s : State) (dt req : Nat), s.taccess = none →
    ∃ t, exec (.ttblRead dt req) s = .next t ∧
      (∀ k : Fin 16, t.rn (Reg.ttblData k) = s.objWord s.ttblSpace s.ttblIdx k % 2 ^ 32) ∧ t.bit Reg.ttblStat 0 = true ∧
      (∀ off, off ≠ Reg.ttblStat → (∀ k : Fin 16, off ≠ Reg.ttblData k) → t.reg off = s.reg off) ∧ t.rest = s.rest) ∧
  (∀ (s : State) (dt req id : Nat), s.taccess = none → s.ttblSpace = 0 → (s.tile s.ttblIdx).state = .free →
    id = s.rn (Reg.ttblData 0) + s.rn (Reg.ttblData 1) * 2 ^ 32 → id ≠ 0 → s.findId id = none →
    ∃ t, exec (.ttblWrite dt req) s = .next t ∧ (t.tile s.ttblIdx).id = id ∧ (t.tile s.ttblIdx).state = .reserved ∧
      (t.tile s.ttblIdx).pixBase = s.fld (Reg.ttblData 5) 25 0 ∧ (∀ m, m ≠ s.ttblIdx → t.tile m = s.tile m) ∧
      t.bit Reg.ttblStat 0 = true ∧ SameRegs s t [Reg.ttblStat, pgStat 0x080] ∧ SameMemory s t)

/-- R208, R209, R216-R219, R228, R192: TIME goes out at every period of a port; the round robin of ECHO moves on and a reply gives the
tile's delay; CONFIG writes are repeated after 2 ms until an OK reply ends them; a tile access ends with its reply, or after 10 ms with
status 0xFF; STATUS and EVENT leave their words and show that the tile is heard; a tile unheard for three periods is LOST; a NACK
requests a resend. -/
def Obligations.TilesAreServed : Prop :=
  (∀ (s : State) (dt : Nat) (p : Fin 64), s.timePeriod p ≠ 0 → (s.now + dt) % 2 ^ 64 % s.timePeriod p = 0 → s.headOf p = none →
    s.partner p = none → s.verOf p = 2 → (s.prt p).up = true → s.bit (Reg.prtCtrl p) 0 = true →
    s.wireBusy p ((s.now + dt) % 2 ^ 64) = true → s.oversize p 7 64 = false →
    ∃ t, exec (.timePeriod dt p) s = .next t ∧
      (t.prt p).queue 7 = ((s.prt p).queue 7).filter (fun x => x.frame.typeTile.1 ≠ 0x20) ++
        [⟨.msg 0x20 0xFFFF (s.timeBody p false), (s.now + dt) % 2 ^ 64⟩] ∧ SameRegs s t [] ∧ SameMemory s t) ∧
  (∀ (s : State) (dt n : Nat) (p : Fin 64), (s.prt p).up = true →
    (s.tileList.filter fun x => x.2.given && x.2.port = p.val).map (·.1) = [n] →
    ∃ t, exec (.echoRound dt) s = .next t ∧ (t.prt p).echoNext = n + 1 ∧ SameMemory s t) ∧
  (∀ (s : State) (dt req p : Nat), s.taccess = none → (s.tile s.ttblIdx).port = p → s.partner p = none → s.verOf p = 2 →
    (s.prt p).up = true → s.bit (Reg.prtCtrl p) 0 = true → s.wireBusy p ((s.now + dt) % 2 ^ 64) = true →
    s.oversize p 7 64 = false →
    ∃ t body, exec (.ttblEcho dt req) s = .next t ∧
      (t.prt p).queue 7 = (s.prt p).queue 7 ++ [⟨.msg 0x21 s.ttblIdx body, (s.now + dt) % 2 ^ 64⟩] ∧ t.bit Reg.ttblStat 0 = true ∧
      SameRegs s t [Reg.ttblStat] ∧ SameMemory s t) ∧
  (∀ (s : State) (dt t4 : Nat) (p : Fin 64) (f : List Byte) (u : Upstream), ((s.tick dt).receive p f).2 = some u → u.type = 0x21 →
    u.tile < 4096 → (s.tile u.tile).given = true → (s.tile u.tile).port = p →
    ∃ t, exec (.echo dt p f t4) s = .next t ∧
      (t.tile u.tile).delayA = (echoDelay t4 (beAt u.body 8 8) (signedOf 32 (beAt u.body 16 4)) (signedOf 32 (beAt u.body 20 4))
        (signedOf 32 (beAt u.body 24 4))).toNat % 2 ^ 24 ∧
      (t.tile u.tile).reach.testBit 0 = true ∧ (∀ m, m ≠ u.tile → t.tile m = s.tile m) ∧ SameMemory s t) ∧
  (∀ (s : State) (dt : Nat) (p : Fin 64) (f : List Byte) (u : Upstream), ((s.tick dt).receive p f).2 = some u → u.type = 0x30 →
    u.tile < 4096 → s.adopt.contains (u.tile, beAt u.body 14 2) = false → s.taccess = none → beAt u.body 16 1 = 0 →
    ∃ t, exec (.configReply dt p f) s = .next t ∧
      t.tile u.tile = { s.tile u.tile with cfg := (s.tile u.tile).cfg.filter (·.reqId ≠ beAt u.body 14 2) } ∧
      (∀ m, m ≠ u.tile → t.tile m = s.tile m) ∧ SameMemory s t) ∧
  (∀ (s : State) (dt : Nat) (p : Fin 64) (f : List Byte) (u : Upstream) (a : TAccess), ((s.tick dt).receive p f).2 = some u →
    u.type = 0x31 → u.tile < 4096 → s.adopt.contains (u.tile, beAt u.body 14 2) = false → s.taccess = some a →
    a.tile = u.tile → a.reqId = beAt u.body 14 2 → a.read = true → 1 ≤ a.count → a.count ≤ 14 → beAt u.body 16 1 = 0 →
    ∃ t, exec (.configReply dt p f) s = .next t ∧ t.taccess = none ∧ t.rn (Reg.ttblData 1) = beAt u.body 20 4 ∧
      t.fld (Reg.ttblData 15) 7 0 = 0 ∧ t.bit Reg.ttblStat 3 = true ∧ t.tiles = s.tiles ∧ SameMemory s t) ∧
  (∀ (s : State) (dt : Nat) (cv : Fin 4), ∃ t, exec (.configRetry dt cv) s = .next t ∧
    (∀ n x, (n, x) ∈ s.tileList → x.given = true → x.cv = cv → (t.tile n).cfg = (s.tile n).cfg.map (fun (c : CfgWrite) =>
      if (s.tick dt).cfgDue cv c then { c with sentAt := (s.now + dt) % 2 ^ 64 } else c)) ∧ SameMemory s t) ∧
  (∀ (s : State) (dt req : Nat) (rd : Bool) (c : Instr), s.taccess = none →
    (c = .tread dt req ∧ rd = true ∨ c = .twrite dt req ∧ rd = false) →
    ∃ t, exec c s = .next t ∧
      t.taccess = some ⟨s.ttblIdx, s.cfgId % 65536, rd, s.fld (Reg.ttblData 0) 19 16, (s.now + dt) % 2 ^ 64⟩ ∧
      t.cfgId = (s.cfgId + 1) % 65536 ∧ t.tiles = s.tiles ∧ SameMemory s t) ∧
  (∀ (s : State) (dt : Nat) (a : TAccess), s.taccess = some a → a.sentAt + 10000000 ≤ (s.now + dt) % 2 ^ 64 →
    ∃ t, exec (.tileAccessTimeout dt) s = .next t ∧ t.taccess = none ∧ t.fld (Reg.ttblData 15) 7 0 = 0xFF ∧
      t.bit Reg.ttblStat 4 = true ∧ SameRegs s t [Reg.ttblData 15, Reg.ttblStat] ∧ SameMemory s t) ∧
  (∀ (s : State) (dt : Nat) (p : Fin 64) (f : List Byte) (u : Upstream) (c : Instr), ((s.tick dt).receive p f).2 = some u →
    u.type = 0x40 → (c = .status dt p f ∧ beAt u.body 8 1 = 0 ∨ c = .event dt p f ∧ beAt u.body 8 1 = 2 ∧ s.loopHead p = none) →
    u.tile < 4096 → (s.tile u.tile).state ≠ .free →
    ∃ t, exec c s = .next t ∧ (t.tile u.tile).heard = (s.now + dt) % 2 ^ 64 ∧
      (t.tile u.tile).telem = telemWords u.body ((s.now + dt) % 2 ^ 64) ∧
      (t.tile u.tile).state = (if (s.tile u.tile).state = .lost then (if (s.tile u.tile).dark then .blanked else .assigned)
        else (s.tile u.tile).state) ∧
      (∀ m, m ≠ u.tile → t.tile m = s.tile m) ∧ SameMemory s t) ∧
  (∀ (s : State) (dt : Nat) (n : Fin 4096), (s.tile n).state = .assigned ∨ (s.tile n).state = .blanked →
    (s.tile n).heard + s.telem3 (s.tile n) ≤ (s.now + dt) % 2 ^ 64 →
    ∃ t, exec (.tileLost dt n) s = .next t ∧ t.tile n = { s.tile n with state := .lost, hwAt := some ((s.now + dt) % 2 ^ 64) } ∧
      t.bit (Reg.prtStat (s.tile n).port) 3 = true ∧ SameRegs s t [Reg.prtStat (s.tile n).port, Reg.ttblStat] ∧ SameMemory s t) ∧
  (∀ (s : State) (dt l q : Nat) (p : Fin 64) (f : List Byte) (u : Upstream) (d : Deliv) (x : Pix),
    ((s.tick dt).receive p f).2 = some u → u.type = 0x40 → beAt u.body 8 1 = 1 → beAt u.body 9 1 = 1 → u.tile < 4096 →
    (s.tile u.tile).given = true → s.bit (Reg.scnCtrl (s.tile u.tile).cv) 2 = true → q = s.servePort (s.tile u.tile) →
    ((s.packetsFor (s.tile u.tile).cv (beAt u.body 12 4) q).filter (fun x => x.tile = u.tile)).find?
      (fun x => x.line = beAt u.body 16 2 && x.x0 = beAt u.body 18 2) = some x →
    (s.cv x.cv).deliv = some d → d.resends = [] → 1 ≤ s.fld (Reg.scnCtrl x.cv) 5 3 → s.resendLimit x.cv x.frame = some l →
    (s.now + dt) % 2 ^ 64 * 10 + wireTime (s.rateOf q) (s.frameBytes (.pix x)) < l * 10 →
    s.wireBusy q ((s.now + dt) % 2 ^ 64) = true →
    ∃ t, exec (.nack dt p f) s = .next t ∧ ⟨.pix { x with resend := true }, (s.now + dt) % 2 ^ 64⟩ ∈ (t.prt q).queue 0 ∧
      t.rn (Reg.scnRetxCnt x.cv) = min (s.rn (Reg.scnRetxCnt x.cv) + 1) 0xFFFFFFFF ∧ t.bit (Reg.scnStat x.cv) 1 = true ∧
      t.bit (Reg.prtStat p) 9 = true ∧ SameMemory s t)

/-- R220-R222: three head TIMEs missing at the partner show a break, and start a sweep where failover is enabled; its end makes the
tiles that the partner alone reaches partner-served from its next gate cycle, when their frames move; TIME at the partner again proves
the loop whole, after 10 s service is to go back to the head, and a composition start of its canvas takes it back. -/
def Obligations.LoopsFailOver : Prop :=
  (∀ (s : State) (dt q : Nat) (h : Fin 64), s.partner h = some q →
    (s.prt q).headAt + 3 * s.timePeriod h ≤ (s.now + dt) % 2 ^ 64 → (s.prt h).broken = none →
    ∃ t, exec (.loopTimeMiss dt h) s = .next t ∧ t.bit (Reg.prtStat h) 6 = true ∧
      (t.prt h).broken = (if s.bit (Reg.prtLoop h) 9 then some ((s.now + dt) % 2 ^ 64) else none) ∧ SameMemory s t) ∧
  (∀ (s : State) (dt q t0 : Nat) (h : Fin 64), s.partner h = some q → (s.prt h).broken = some t0 → (s.prt h).switchAt = none →
    ∃ t, exec (.failoverSweepDone dt h) s = .next t ∧ (t.prt h).switchAt = some ((s.prt q).nextCycle ((s.now + dt) % 2 ^ 64)) ∧
      (∀ n x, (n, x) ∈ s.tileList → x.given = true → x.port = h → x.reach = 2 → (t.tile n).serve = true) ∧
      SameRegs s t [Reg.ttblStat] ∧ SameMemory s t) ∧
  (∀ (s : State) (dt q f : Nat) (h : Fin 64), s.partner h = some q → q ≠ h → (s.prt h).switchAt = some f →
    f ≤ (s.now + dt) % 2 ^ 64 →
    ∃ t, exec (.failoverSwitch dt h) s = .next t ∧ (t.prt h).switchAt = none ∧ t.bit (Reg.prtStat h) 7 = true ∧
      (s.wireBusy h ((s.now + dt) % 2 ^ 64) = true → s.wireBusy q ((s.now + dt) % 2 ^ 64) = true →
        (∀ k, k = 0 ∨ k = 6 → (t.prt h).queue k = ((s.prt h).queue k).filter (fun x => !s.partnerServed x.frame)) ∧
        (t.prt q).queue 6 = (s.prt q).queue 6 ++ ((s.prt h).queue 6).filter (fun x => s.partnerServed x.frame)) ∧
      SameMemory s t) ∧
  (∀ (s : State) (dt t0 : Nat) (h : Fin 64), (s.prt h).wholeFrom = some t0 → s.bit (Reg.prtLoop h) 10 = true →
    t0 + 10000000000 ≤ (s.now + dt) % 2 ^ 64 →
    (∀ n x, (n, x) ∈ s.tileList → x.given = true → x.port = h → x.reach.testBit 0 = true) →
    ∃ t, exec (.revert dt h) s = .next t ∧ (t.prt h).reverting = true ∧ t.tiles = s.tiles ∧ SameRegs s t [] ∧ SameMemory s t) ∧
  (∀ (s : State) (cv : Fin 4) (h : Nat), h ∈ s.portsOf cv → (s.prt h).reverting = true →
    ((s.revertHeads cv).prt h).reverting = false ∧ ((s.revertHeads cv).prt h).broken = none ∧
    ((s.revertHeads cv).prt h).wholeFrom = none ∧ (s.revertHeads cv).bit (Reg.prtStat h) 8 = true ∧
    (∀ n, (n, s.tile n) ∈ s.tileList → (s.tile n).port = h → ((s.revertHeads cv).tile n).serve = false)) ∧
  (∀ (s : State) (dt h : Nat) (q : Fin 64) (f : List Byte), s.headOf q = some h → 64 ≤ f.length →
    ofLe (f.drop (f.length - 4)) = crc32 (f.take (f.length - 4)) → beAt (f.drop 14) 1 1 = 0x20 →
    ∃ t, exec (.headTimeAtPartner dt q f) s = .next t ∧ (t.prt q).headAt = (s.now + dt) % 2 ^ 64 ∧
      (t.prt q).headSeen = beAt (f.drop 14) 8 8 ∧
      ((s.prt h).broken.isSome = true → (s.prt h).wholeFrom = none → (t.prt h).wholeFrom = some ((s.now + dt) % 2 ^ 64)) ∧
      SameRegs s t [Reg.prtRxFrames q] ∧ SameMemory s t)

/-- R233-R238, R241-R253: a frame joins its queue, and one that fits no window is dropped and counted; a free wire takes the frame that
the decision picks, and a busy one takes none; at its end the wire is free; the admin list is written entry by entry, taken over at T, or
loaded from the list in force, and keeps its entries while a takeover is pending; RESTART starts the maxima of the queue selected
anew, from the bytes that stand there; a shaper word waits for its apply. Where a port's head waits for through-mode lines, a decision
first composes those whose time has passed. -/
def Obligations.LinkSchedulerRuns : Prop :=
  (∀ (s : State) (dt : Nat) (p : Fin 64) (q : Fin 8) (f : List Byte), q.val ≠ 0 → (s.prt p).queue q = [] →
    (s.prt p).queue (waitQueue q) = [] → s.wireBusy p ((s.now + dt) % 2 ^ 64) = true →
    s.oversize p q (max 64 (26 + (f.drop 8).length)) = false →
    ∃ t, exec (.frameEnqueue dt p q f) s = .next t ∧
      (t.prt p).queue q = [⟨.msg (beAt f 1 1) (beAt f 2 2) (f.drop 8), (s.now + dt) % 2 ^ 64⟩] ∧ SameRegs s t [] ∧ SameMemory s t) ∧
  (∀ (s : State) (dt : Nat) (p : Fin 64) (q : Fin 8) (f : List Byte), q.val ≠ 0 →
    s.oversize p q (max 64 (26 + (f.drop 8).length)) = true →
    ∃ t, exec (.frameEnqueue dt p q f) s = .next t ∧
      t.rn (Reg.prtOversizeCnt p) = min (s.rn (Reg.prtOversizeCnt p) + 1) 0xFFFFFFFF ∧ t.bit Reg.schedStat 1 = true ∧
      (s.wireBusy p ((s.now + dt) % 2 ^ 64) = true →
        (t.prt p).lq = (s.prt p).lq ∧ SameRegs s t [Reg.prtOversizeCnt p, Reg.schedStat]) ∧ SameMemory s t) ∧
  (∀ (s : State) (dt d q a : Nat) (df : Sparse Nat) (p : Fin 64) (h : Queued) (r : List Queued) (c : Instr),
    c = .gateChange dt p ∨ c = .shaperRefill dt p → (s.prt p).wire = none → (s.prt p).up = true → (s.prt p).queue 0 = [] →
    d = (s.tick dt).wordUp p ((s.now + dt) % 2 ^ 64 * 10) → (s.tick dt).pick p d = (some q, a, df) → (s.prt p).queue q = h :: r →
    ∃ t w, exec c s = .next t ∧ (t.prt p).wire = some w ∧ w.frame = h.frame ∧ w.queue = q ∧ w.start = d ∧
      w.stop = d + wireTime (s.rateOf p) (s.frameBytes h.frame) ∧ (t.prt p).queue q = r ∧
      t.rn (Reg.prtTxFrames p) = min (s.rn (Reg.prtTxFrames p) + 1) 0xFFFFFFFF ∧
      SameRegs s t [Reg.prtTxFrames p] ∧ SameMemory s t) ∧
  (∀ (s u : State) (dt : Nat) (p : Fin 64) (c : Instr), c = .gateChange dt p ∨ c = .shaperRefill dt p →
    u = (s.tick dt).headDue p → u.wireBusy p ((s.now + dt) % 2 ^ 64) = true → ∃ t, exec c s = .next t ∧ OnlyRegs u t []) ∧
  (∀ (s : State) (dt ty n : Nat) (p : Fin 64) (w : Wire) (body : List Byte), (s.prt p).wire = some w → w.frame = .msg ty n body →
    w.stop ≤ (s.now + dt) % 2 ^ 64 * 10 → (s.prt p).lq = [] →
    ∃ t, exec (.frameTxEnd dt p) s = .next t ∧ (t.prt p).wire = none ∧ (t.prt p).wireFree = w.stop ∧ SameRegs s t [] ∧
      SameMemory s t) ∧
  (∀ (s : State) (dt req : Nat) (p : Fin 64) (v : Word), s.pageHeld (0x0A0 + p) = false → (s.prt p).takeover = none →
    s.bit (Reg.prtGateIdx p) 8 = false → 16 ≤ bitsOf v.toNat 30 8 →
    ∃ t, exec (.gateDataWrite dt req p v) s = .next t ∧
      mget (t.prt p).admin (s.fld (Reg.prtGateIdx p) 7 0) gateReset = ⟨v.toNat % 256, bitsOf v.toNat 30 8, v.getLsbD 31⟩ ∧
      (t.prt p).oper = (s.prt p).oper ∧ SameRegs s t [Reg.prtGateIdx p] ∧ SameMemory s t) ∧
  (∀ (s : State) (dt req : Nat) (p : Fin 64) (v : Word), (s.prt p).takeover.isSome = true →
    ∃ t, exec (.gateDataWrite dt req p v) s = .next t ∧ t.fld (pgViol (0x0A0 + p)) 14 12 = 2 ∧
      OnlyRegs s t [pgViol (0x0A0 + p), pgStat (0x0A0 + p)]) ∧
  (∀ (s : State) (dt req : Nat) (p : Fin 64), ∃ t, exec (.gateDataRead dt req p) s = .next t ∧
    t.bus = [gateWord (mget (if s.bit (Reg.prtGateIdx p) 8 then (s.prt p).oper else (s.prt p).admin)
      (s.fld (Reg.prtGateIdx p) 7 0) gateReset)] ∧ OnlyRegs s t [Reg.prtGateIdx p]) ∧
  (∀ (s : State) (dt at_ b c : Nat) (p : Fin 64), (s.prt p).takeover = some (at_, b, c) → at_ ≤ (s.now + dt) % 2 ^ 64 →
    ∃ t, exec (.takeover dt p) s = .next t ∧ (t.prt p).oper = (s.prt p).admin ∧ (t.prt p).base = b ∧ (t.prt p).cycle = c ∧
      (t.prt p).takeover = none ∧ t.bit Reg.schedStat 2 = true ∧ SameMemory ((s.tick dt).headDue p) t) ∧
  (∀ (s : State) (dt req : Nat) (p : Fin 64), (s.prt p).takeover = none →
    ∃ t, exec (.load dt req p) s = .next t ∧ (t.prt p).admin = (s.prt p).oper ∧ (t.prt p).oper = (s.prt p).oper ∧
      SameRegs s t [] ∧ SameMemory s t) ∧
  (∀ (s : State) (dt req : Nat) (p : Fin 64), (s.prt p).takeover.isSome = true →
    ∃ t, exec (.load dt req p) s = .next t ∧ t.fld (pgViol (0x0A0 + p)) 14 12 = 2 ∧
      OnlyRegs s t [pgViol (0x0A0 + p), pgStat (0x0A0 + p)]) ∧
  (∀ (s : State) (dt req : Nat) (v : Word), v.getLsbD 16 = true →
    ∃ t, exec (.restart dt req v) s = .next t ∧ t.fld Reg.schedQsampleSel 11 0 = v.toNat % 4096 ∧
      (mget (t.prt (v.toNat % 64)).samples (v.toNat / 64 % 8) {}).maxBytes =
        s.queueBytes ((s.prt (v.toNat % 64)).buffered (v.toNat / 64 % 8)) ∧
      (mget (t.prt (v.toNat % 64)).samples (v.toNat / 64 % 8) {}).maxWait = 0 ∧
      SameRegs s t [Reg.schedQsampleSel] ∧ SameMemory s t) ∧
  (∀ (s : State) (dt req : Nat) (v : Word), s.pageHeld 0x0E0 = false →
    ∃ t, exec (.shaperDataWrite dt req v) s = .next t ∧
      mget t.shaperSh (s.fld Reg.schedShaperIdx 11 0 * 2 + s.fld Reg.schedShaperIdx 12 12) none = some v ∧
      t.shapers = s.shapers ∧ SameRegs s t [] ∧ SameMemory s t) ∧
  (∀ (s : State) (dt req : Nat) (v : Word), s.pageHeld 0x0E0 = true →
    ∃ t, exec (.shaperDataWrite dt req v) s = .next t ∧ t.fld (pgViol 0x0E0) 14 12 = 2 ∧ t.bit Reg.wardStat 4 = true ∧
      OnlyRegs s t [pgViol 0x0E0, pgStat 0x0E0, Reg.wardStat])

/-- R242: arming a takeover sets T: the new base B where it is 2,000 ns ahead or more; otherwise B + n × c with the smallest n that is
far enough ahead, and SCHED.STAT.LATE_START and LATE_START_CNT report it. GATE_CMD.STAT_PEND reads 1 while the takeover is armed,
and the takeover at T ends that. -/
def Obligations.TakeoverInstant : Prop :=
  (∀ (s : State) (p : Fin 64), s.now + 2000 ≤ s.rn64 (Reg.prtGateBaseLo p) →
    ((s.armTakeover p).prt p).takeover =
      some (s.rn64 (Reg.prtGateBaseLo p), s.rn64 (Reg.prtGateBaseLo p), s.fld (Reg.prtGateCycle p) 26 0) ∧
    SameRegs s (s.armTakeover p) []) ∧
  (∀ (s : State) (p : Fin 64), s.rn64 (Reg.prtGateBaseLo p) < s.now + 2000 → 0 < s.fld (Reg.prtGateCycle p) 26 0 →
    ∃ n, ((s.armTakeover p).prt p).takeover = some (s.rn64 (Reg.prtGateBaseLo p) + n * s.fld (Reg.prtGateCycle p) 26 0,
        s.rn64 (Reg.prtGateBaseLo p), s.fld (Reg.prtGateCycle p) 26 0) ∧
      s.now + 2000 ≤ s.rn64 (Reg.prtGateBaseLo p) + n * s.fld (Reg.prtGateCycle p) 26 0 ∧
      (∀ m, s.now + 2000 ≤ s.rn64 (Reg.prtGateBaseLo p) + m * s.fld (Reg.prtGateCycle p) 26 0 → n ≤ m) ∧
      (s.armTakeover p).bit Reg.schedStat 0 = true ∧
      (s.armTakeover p).rn Reg.schedLateStartCnt = min (s.rn Reg.schedLateStartCnt + 1) 0xFFFFFFFF ∧
      SameRegs s (s.armTakeover p) [Reg.schedStat, Reg.schedLateStartCnt]) ∧
  (∀ (s : State) (dt req : Nat) (p : Fin 64), s.peerRefused req = false →
    ∃ t x, exec (.readClear dt req (Reg.prtGateCmd p) 4) s = .next t ∧ t.bus = [x] ∧ x.testBit 31 = (s.prt p).takeover.isSome) ∧
  (∀ (s : State) (dt at_ b c : Nat) (p : Fin 64), (s.prt p).takeover = some (at_, b, c) →
    ((∃ t, exec (.takeover dt p) s = .next t ∧ (t.prt p).takeover = none) ↔ at_ ≤ (s.now + dt) % 2 ^ 64))

/-! ### DDR5 memory (R254-R284) -/

/-- R257-R267, R275, R277, R281: a request waits at the channel its address maps to, a write that the queue accepts is visible at once,
and one to no channel sets UNMAPPED; a command slot answers a waiting read of an admitted port from the devices, and refreshes a
rank owed more than POSTPONE allows; migration copies its unit; the patrol scrub moves on; a rank that has been zeroed reads 0; ILVk
and SPARE take what leaves the map sound, and refuse the rest with KIND 3. -/
def Obligations.MemoryServes : Prop :=
  (∀ (s : State) (dt a c r k : Nat) (l : ChanLoc) (p : Fin 8), s.placeFull a = some (c, r, k, l) →
    s.srState c = 0 ∨ s.srState c = 3 →
    ∃ t, exec (.memoryRequest dt p a none) s = .next t ∧
      (t.subChan c l.sub).reads = (s.subChan c l.sub).reads ++
        [{ port := p, addr := a % 2 ^ 41 / 64 * 64, rank := r, bank := l.bg * 4 + l.bank, row := l.row,
           at_ := (s.now + dt) % 2 ^ 64, arr := (s.subChan c l.sub).count }] ∧
      (t.subChan c l.sub).writes = (s.subChan c l.sub).writes ∧ SameRegs s t [] ∧ SameMemory s t) ∧
  (∀ (s : State) (dt a c r k : Nat) (l : ChanLoc) (p : Fin 8) (b : Byte), s.placeFull a = some (c, r, k, l) →
    s.srState c = 0 ∨ s.srState c = 3 → (s.subChan c l.sub).waiting = [] → (s.subChan c l.sub).writes.length < 48 →
    s.rankLost c r = false →
    ∃ t, exec (.memoryRequest dt p a (some [b])) s = .next t ∧ mget t.dram k 0 = b ∧
      (∀ j, j ≠ k → mget t.dram j 0 = mget s.dram j 0) ∧ t.vault = s.vault ∧
      (t.subChan c l.sub).writes.length = (s.subChan c l.sub).writes.length + 1 ∧ SameRegs s t []) ∧
  (∀ (s : State) (dt a : Nat) (p : Fin 8) (data : Option (List Byte)), s.placeFull a = none →
    ∃ t, exec (.memoryRequest dt p a data) s = .next t ∧ t.bus = [] ∧ t.bit Reg.memStat 2 = true ∧ OnlyRegs s t [Reg.memStat]) ∧
  (∀ (s : State) (dt : Nat) (c : Fin 8) (k : Fin 2) (q : MemReq), s.bit (Reg.mcCtrl c) 0 = true → s.memStill = false →
    s.srState c < 2 → (s.subChan c k).reads = [q] → (s.subChan c k).writes = [] → (s.subChan c k).waiting = [] →
    (s.memChan c).owed = [] → q.port ≤ 4 → q.held = none → q.dma = none → s.burstPoisoned q.addr = false →
    ∃ u, exec (.commandSlot dt c k []) s = .next u.readTurn.settle ∧ (u.subChan c k).reads = [] ∧
      u.bus = (s.rdBytes q.addr 64).map BitVec.toNat ∧ SameRegs s u [] ∧ SameMemory s u) ∧
  (∀ (s : State) (dt r n : Nat) (c : Fin 8) (k : Fin 2) (errors : List Nat), s.bit (Reg.mcCtrl c) 0 = true → s.memStill = false →
    s.srState c < 2 → (s.subChan c k).waiting = [] → (s.memChan c).owed = [(r, n)] →
    min (s.fld (Reg.mcRefresh c) 5 2) (if s.bit (Reg.mcRefresh c) 0 then 8 else 4) < n →
    ∃ u, exec (.commandSlot dt c k errors) s = .next u.readTurn.settle ∧ mget (u.memChan c).owed r 0 = n - 1 ∧
      u.bit (Reg.mcStat c) 6 = true ∧ SameRegs s u [Reg.mcStat c] ∧ SameMemory s u) ∧
  (∀ (s : State) (dt : Nat) (c r : Fin 8), s.bit (Reg.mcCtrl c) 0 = true → s.srState c < 2 → r.val < s.logicalRanks c →
    mget (s.memChan c).refAt r 0 +
      (if s.bit (Reg.mcRefresh c) 0 then 1950 else 3900) / (if (s.memChan c).hot then 2 else 1) ≤ (s.now + dt) % 2 ^ 64 →
    ∃ t, exec (.refreshDue dt c r) s = .next t ∧ mget (t.memChan c).owed r 0 = mget (s.memChan c).owed r 0 + 1 ∧
      SameRegs s t [] ∧ SameMemory s t) ∧
  (∀ (s : State) (dt : Nat) (c : Fin 8) (a b : Fin 4 → Nat), s.bit (Reg.mcMigrStat c) 6 = true → (s.tick dt).bgHeld 2 = false →
    s.memStill = false → s.srState c = 0 →
    (∀ i, a i = s.rankKey c (s.fld (Reg.mcMigrStat c) 2 0) ((s.memChan c).migPos * 256 + 64 * i)) →
    (∀ i, b i = s.rankKey c (s.fld (Reg.mcMigrStat c) 5 3) ((s.memChan c).migPos * 256 + 64 * i)) →
    (∀ i j, (a i + 64 ≤ b j ∨ b j + 64 ≤ a i) ∧ (i ≠ j → b i + 64 ≤ b j ∨ b j + 64 ≤ b i)) →
    ∃ t, exec (.migrationUnit dt c []) s = .next t ∧ (t.memChan c).migPos = (s.memChan c).migPos + 1 ∧
      (∀ i j, j < 64 → mget t.dram (b i + j) 0 = mget s.dram (a i + j) 0) ∧
      (∀ k, (∀ i, k < b i ∨ b i + 64 ≤ k) → mget t.dram k 0 = mget s.dram k 0) ∧
      (s.rankBytes c ≤ ((s.memChan c).migPos + 1) * 256 → t.bit (Reg.mcMigrStat c) 6 = false ∧
        t.bit (Reg.mcMigrStat c) 7 = true ∧ t.bit (Reg.mcStat c) 3 = true) ∧
      SameRegs s t [Reg.mcMigrStat c, Reg.mcStat c, Reg.mcSrStat c]) ∧
  (∀ (s : State) (dt : Nat), s.bit Reg.memScrub 0 = true → (s.tick dt).bgHeld 4 = false → s.memStill = false → s.mappedBursts ≠ 0 →
    ∃ t, exec (.patrolScrub dt []) s = .next t ∧
      t.mem.scrubAt = (if s.mappedBursts ≤ s.mem.scrubAt + 1 then 0 else s.mem.scrubAt + 1) ∧
      SameRegs s t ([Reg.memStat, Reg.memPoisonCnt] ++ (List.range 8).flatMap touchRegs) ∧
      SameMemory s t) ∧
  (∀ (s : State) (dt : Nat) (c r : Fin 8), (s.memChan c).zeroing.contains r.val = true →
    ∃ t, exec (.zeroingDone dt c r) s = .next t ∧ (t.memChan c).zeroing.contains r.val = false ∧
      (∀ k, c.val * 2 ^ 44 + r.val * 2 ^ 41 ≤ k → k < c.val * 2 ^ 44 + (r.val + 1) * 2 ^ 41 → mget t.dram k 0 = 0) ∧
      (∀ k, k < c.val * 2 ^ 44 + r.val * 2 ^ 41 ∨ c.val * 2 ^ 44 + (r.val + 1) * 2 ^ 41 ≤ k → mget t.dram k 0 = mget s.dram k 0) ∧
      t.bit (Reg.mcSrStat c) (8 + r) = false ∧ t.bit (Reg.mcStat c) 11 = true ∧
      SameRegs s t [Reg.mcSrStat c, Reg.mcStat c]) ∧
  (∀ (s : State) (dt req : Nat) (k : Fin 4) (v : Word), s.locked 0x108 = false → s.bit (Reg.memIlv k) 31 = false →
    ((s.tick dt).landAt (Reg.memIlv k) v).1.ilvSound k = true →
    ∃ t, exec (.ilvWrite dt req k v) s = .next t ∧ t.fld (Reg.memIlv k) 7 0 = v.toNat % 256 ∧
      t.fld (Reg.memIlv k) 18 8 = bitsOf v.toNat 18 8 ∧ t.fld (Reg.memIlv k) 29 19 = bitsOf v.toNat 29 19 ∧
      t.bit (Reg.memIlv k) 31 = v.getLsbD 31 ∧ OnlyRegs s t [Reg.memIlv k]) ∧
  (∀ (s : State) (dt req : Nat) (k : Fin 4) (v : Word), s.locked 0x108 = false →
    ((s.tick dt).landAt (Reg.memIlv k) v).1.ilvSound k = false →
    ∃ t, exec (.ilvWrite dt req k v) s = .next t ∧ t.fld (pgViol 0x108) 14 12 = 3 ∧
      OnlyRegs s t [pgViol 0x108, pgStat 0x108]) ∧
  (∀ (s : State) (dt req : Nat) (c : Fin 8) (v : Word), s.locked (0x100 + c) = false → s.bit Reg.memMap 2 = true →
    1 ≤ bitsOf v.toNat 7 4 → v.getLsbD 3 = false ∨ 2 ≤ s.logicalRanks c →
    ∃ t, exec (.spareWrite dt req c v) s = .next t ∧ t.fld (Reg.mcSpare c) 2 0 = v.toNat % 8 ∧
      t.bit (Reg.mcSpare c) 3 = v.getLsbD 3 ∧ t.fld (Reg.mcSpare c) 7 4 = bitsOf v.toNat 7 4 ∧ OnlyRegs s t [Reg.mcSpare c]) ∧
  (∀ (s : State) (dt req : Nat) (c : Fin 8) (v : Word), s.locked (0x100 + c) = false → 1 ≤ bitsOf v.toNat 7 4 →
    s.bit (Reg.mcSpare c) 3 = false → v.getLsbD 3 = true → s.logicalRanks c ≤ 1 →
    ∃ t, exec (.spareWrite dt req c v) s = .next t ∧ t.fld (pgViol (0x100 + c)) 14 12 = 3 ∧
      OnlyRegs s t [pgViol (0x100 + c), pgStat (0x100 + c)])

/-- R268-R272, R278-R281, R284: a set-point change that nothing refuses begins, and at its end its set point is in force; one refused
shows its code; a training run starts on a channel without admitted streams and ends with its result; delays are written while their
set point is not marked trained; self-refresh is entered, left and asked for again after the idle time, and refused to an admitted
channel. -/
def Obligations.SetPointsTrainAndSleep : Prop :=
  (∀ (s : State) (dt req f code : Nat) (v : Word), (∀ g < 4, s.trainedAnywhere g = false) → s.bit Reg.memFspCtrl 2 = false →
    v.getLsbD 2 = true → f = v.toNat % 4 →
    code = (((s.tick dt).landAt Reg.memFspCtrl (wput v 2 2 0)).1.publish).fspCode f →
    ∃ t, exec (.fspStart dt req v) s = .next t ∧ t.fld Reg.memFspStat 6 4 = code ∧
      (code ≠ 0 → t.bit Reg.memStat 1 = true ∧ t.bit Reg.memFspCtrl 2 = false ∧ t.mem = s.mem) ∧
      (code = 0 → f = s.fld Reg.memFspStat 1 0 → t.bit Reg.memStat 0 = true ∧ t.bit Reg.memFspCtrl 2 = false ∧ t.mem = s.mem) ∧
      (code = 0 → f ≠ s.fld Reg.memFspStat 1 0 → t.mem.fsp = some (f, (s.now + dt) % 2 ^ 64) ∧ t.bit Reg.memFspStat 2 = true ∧
        t.bit Reg.memFspCtrl 2 = true ∧ t.fld Reg.memFspCtrl 1 0 = f) ∧ SameMemory s t) ∧
  (∀ (s : State) (dt f t0 : Nat) (begun : List Nat), s.mem.fsp = some (f, t0) → f < 4 → s.mem.srWait = [] →
    s.mem.trainWait = false → s.latch.accepted = [] →
    ∃ t, exec (.fspChangeDone dt begun) s = .next t ∧ t.mem.fsp = none ∧ t.fld Reg.memFspStat 1 0 = f ∧
      t.fld Reg.memFspStat 31 16 = min 65535 ((s.now + dt) % 2 ^ 64 - t0) ∧ t.bit Reg.memFspStat 2 = false ∧
      t.bit Reg.memStat 0 = true ∧ t.bit Reg.memFspCtrl 2 = false ∧ t.bit (Reg.pllStat 1) 28 = true ∧
      (∀ c : Fin 8, s.bit (Reg.mcCtrl c) 0 = true → (t.memChan c).owed = []) ∧
      (∀ (c : Fin 8) (k : Fin 2), (t.subChan c k).rows = [] ∧ (t.subChan c k).orderTo = (s.subChan c k).count) ∧
      SameRegs s t [Reg.memFspStat, Reg.memStat, Reg.memFspCtrl, Reg.pllStat 1, Reg.pllDiv 1] ∧ SameMemory s t) ∧
  (∀ (s : State) (dt req : Nat) (v : Word) (c : Instr),
    c ∈ [.writeRead dt req v, .trainRead dt req v, .caLoop dt req v, .mrw dt req v, .mrr dt req v] → v.getLsbD 0 = true →
    bitsOf v.toNat 3 1 ≤ 4 → 1 ≤ bitsOf v.toNat 15 8 → s.mem.training = none → s.mem.trainWait = false → s.mem.fsp = none →
    ((((s.tick dt).landAt Reg.mtrnCtrl (wput v 0 0 (s.fld Reg.mtrnCtrl 0 0))).1).setBit Reg.mtrnCtrl 0).admittedOn
      (s.fld Reg.mtrnSel 2 0) = false →
    ∃ t, exec c s = .next t ∧ t.bit Reg.mtrnCtrl 0 = true ∧ t.rn Reg.mtrnResult = 0 ∧
      t.mem.training = some (bitsOf v.toNat 3 1, s.fld Reg.mtrnSel 2 0, s.fld Reg.mtrnSel 3 3, s.fld Reg.mtrnSel 6 4) ∧
      (bitsOf v.toNat 3 1 ≠ 0 → SameMemory s t) ∧ SameRegs s t [Reg.mtrnCtrl, Reg.mtrnResult]) ∧
  (∀ (s : State) (dt op c sub r fails errors : Nat), s.mem.training = some (op, c, sub, r) → op ≤ 2 →
    ∃ t, exec (.trainingDone dt fails errors) s = .next t ∧ t.mem.training = none ∧ t.fld Reg.mtrnResult 9 0 = fails % 1024 ∧
      t.fld Reg.mtrnResult 27 16 = min (min errors (s.fld Reg.mtrnCtrl 15 8 * 256)) 4095 ∧ t.bit Reg.mtrnResult 31 = true ∧ t.bit Reg.mtrnCtrl 0 = false ∧
      SameRegs s t [Reg.mtrnResult, Reg.mtrnCtrl] ∧ SameMemory s t) ∧
  (∀ (s : State) (dt c sub r fails errors : Nat), s.mem.training = some (3, c, sub, r) →
    ∃ t, exec (.trainingDone dt fails errors) s = .next t ∧ t.mem.training = none ∧
      Sent.dimm c sub r (s.fld Reg.mtrnPattern 15 8) (s.rn Reg.mtrnPattern % 256) ∈ t.tx ∧
      mget t.mem.mode (s.modeKey c sub r (s.fld Reg.memFspStat 1 0) (s.fld Reg.mtrnPattern 15 8)) 0 =
        s.rn Reg.mtrnPattern % 256 ∧
      SameRegs s t [Reg.mtrnResult, Reg.mtrnCtrl] ∧ SameMemory s t) ∧
  (∀ (s : State) (dt req : Nat) (v : Word), s.locked 0x109 = false →
    s.bit Reg.mtrnTrained (4 * s.fld Reg.mtrnDlyIdx 2 0 + s.fld Reg.mtrnDlyIdx 5 4) = false →
    ∃ t, exec (.dlyDataWrite dt req v) s = .next t ∧ mget t.mem.dly s.dlyKey 0 = v.toNat % 1024 ∧
      (∀ k, k ≠ s.dlyKey → mget t.mem.dly k 0 = mget s.mem.dly k 0) ∧ SameRegs s t [] ∧ SameMemory s t) ∧
  (∀ (s : State) (dt req : Nat) (v : Word),
    s.bit Reg.mtrnTrained (4 * s.fld Reg.mtrnDlyIdx 2 0 + s.fld Reg.mtrnDlyIdx 5 4) = true →
    ∃ t, exec (.dlyDataWrite dt req v) s = .next t ∧ t.mem = s.mem ∧ t.fld (pgViol 0x109) 14 12 = 1 ∧ SameMemory s t) ∧
  (∀ (s : State) (dt req : Nat) (v : Word), s.locked 0x109 = false →
    ∃ t, exec (.trainedWrite dt req v) s = .next t ∧ t.rn Reg.mtrnTrained = s.rn Reg.mtrnTrained ||| v.toNat ∧ SameMemory s t) ∧
  (∀ (s : State) (dt req : Nat) (c : Fin 8) (v : Word), s.bit (Reg.mcSrCtrl c) 0 = false → v.getLsbD 0 = true →
    1 ≤ v.toNat / 65536 → s.bit (Reg.mcRanks c) 20 = false → s.fld (Reg.mcSrStat c) 15 8 = 0 → s.srState c = 0 → s.mem.fsp = none →
    ∃ t, exec (.srRequest dt req c v) s = .next t ∧ t.bit (Reg.mcSrCtrl c) 0 = true ∧
      (((s.tick dt).landAt (Reg.mcSrCtrl c) v).1.srAdmitted c = false → t.srState c = 1 ∧ t.fld (Reg.mcSrStat c) 7 4 = 0) ∧
      (((s.tick dt).landAt (Reg.mcSrCtrl c) v).1.srAdmitted c = true → t.srState c = 0 ∧ t.fld (Reg.mcSrStat c) 7 4 = 1) ∧
      SameRegs s t [Reg.mcSrCtrl c, Reg.mcSrStat c] ∧ SameMemory s t) ∧
  (∀ (s : State) (dt : Nat) (c : Fin 8), s.srState c = 1 → s.memStill = false → s.bit (Reg.mcSrCtrl c) 1 = false →
    (∀ k : Fin 2, (s.subChan c k).reads = [] ∧ (s.subChan c k).writes = [] ∧ (s.subChan c k).waiting = []) →
    (s.memChan c).owed = [] →
    ∃ t, exec (.srEntry dt c) s = .next t ∧ t.srState c = 2 ∧ (t.memChan c).exitAt = (s.now + dt) % 2 ^ 64 ∧
      SameRegs s t [Reg.mcSrStat c] ∧ SameMemory s t) ∧
  (∀ (s : State) (dt : Nat) (c : Fin 8), s.srState c = 3 →
    ∃ t, exec (.srExitDone dt c) s = .next t ∧ t.srState c = 0 ∧
      t.fld (Reg.mcSrStat c) 31 16 = min 65535 ((s.now + dt) % 2 ^ 64 - (s.memChan c).exitAt) ∧
      (t.memChan c).last = (s.now + dt) % 2 ^ 64 ∧ SameRegs s t [Reg.mcSrStat c] ∧ SameMemory s t) ∧
  (∀ (s : State) (dt : Nat) (c : Fin 8), s.srState c = 0 → s.bit (Reg.mcSrCtrl c) 0 = true → s.mem.fsp = none →
    (s.memChan c).last + s.fld (Reg.mcSrCtrl c) 31 16 * 1000 ≤ (s.now + dt) % 2 ^ 64 → (s.tick dt).srAdmitted c = false →
    ∃ t, exec (.srIdle dt c) s = .next t ∧ t.srState c = 1 ∧ t.fld (Reg.mcSrStat c) 7 4 = 0 ∧ SameRegs s t [Reg.mcSrStat c] ∧
      SameMemory s t)

/-! ### DMA (R285-R304) -/

/-- R294, R296, R301, R302: a START of an idle channel hands over where VALID is set, and begins the descriptor at DESC; one to a
channel that runs waits, one more is lost; a withheld channel's page discards it; ABORT ends the chain with its residue; a timer or a
request line starts the channel that waits on it; NEXT and VALID are written while VALID is clear. `u`: before the turn of the read
engine that follows (notes/assumptions/129). -/
def Obligations.ChainsStartAndStop : Prop :=
  (∀ (s : State) (dt req a : Nat) (ch : Fin 64) (r : DmaRun), s.bit (Reg.dmaCtrl ch) 0 = true → s.dmaState ch = 0 →
    s.dmaLost ch = false → s.bit (Reg.dmaNextValid ch) 0 = false → (s.dmaCh ch).resume = none →
    s.bit (Reg.dmaDescHi ch) 31 = false → a = s.rn (Reg.dmaDescLo ch) / 64 * 64 + s.fld (Reg.dmaDescHi ch) 30 0 * 2 ^ 32 →
    s.anyUnmapped a 64 = false → s.anyPoison a 64 = false →
    r = DmaRun.parse { host := false, addr := a, serial := (s.dmaCh ch).loads + 1 } (s.rdBytes a 64) →
    r.badFormat = false → r.srcSpace ≠ 2 → r.dstSpace ≠ 2 → r.srcSpace ≠ 4 →
    ∃ u, exec (.start dt req ch) s = .next u.readTurn.settle ∧ u.dmaState ch = 1 ∧
      (u.dmaCh ch).run = some (if r.total = 0 ∧ r.flags.testBit 6 = true then { r with half := true } else r) ∧
      SameRegs s u (Reg.dmaStat ch :: (List.range 8).flatMap touchRegs) ∧ SameMemory s u) ∧
  (∀ (s : State) (dt req : Nat) (ch : Fin 64), s.bit (Reg.dmaCtrl ch) 0 = true → s.dmaState ch = 0 → s.dmaLost ch = false →
    s.bit (Reg.dmaNextValid ch) 0 = true → s.bit (Reg.dmaNextHi ch) 31 = true →
    ∃ u, exec (.start dt req ch) s = .next u.readTurn.settle ∧ u.dmaState ch = 1 ∧
      u.reg (Reg.dmaDescLo ch) = s.reg (Reg.dmaNextLo ch) ∧ u.reg (Reg.dmaDescHi ch) = s.reg (Reg.dmaNextHi ch) ∧
      u.rn (Reg.dmaNextValid ch) = 0 ∧ u.rn (Reg.dmaHandoverCount ch) = min (s.rn (Reg.dmaHandoverCount ch) + 1) 0xFFFFFFFF ∧
      (u.dmaCh ch).run = some { host := true, serial := (s.dmaCh ch).loads + 1,
                                addr := s.rn (Reg.dmaNextLo ch) / 64 * 64 + s.fld (Reg.dmaNextHi ch) 30 0 * 2 ^ 32 } ∧
      SameRegs s u [Reg.dmaStat ch, Reg.dmaDescLo ch, Reg.dmaDescHi ch, Reg.dmaNextValid ch, Reg.dmaHandoverCount ch] ∧
      SameMemory s u) ∧
  (∀ (s : State) (dt req : Nat) (ch : Fin 64), s.bit (Reg.dmaCtrl ch) 0 = true → s.dmaState ch = 1 → s.dmaLost ch = false →
    ∃ u, exec (.start dt req ch) s = .next u.readTurn.settle ∧ (u.dmaCh ch).pend = true ∧
      u.bit (Reg.dmaStat ch) 10 = (s.bit (Reg.dmaStat ch) 10 || (s.dmaCh ch).pend) ∧ SameRegs s u [Reg.dmaStat ch] ∧
      SameMemory s u) ∧
  (∀ (s : State) (dt req : Nat) (ch : Fin 64) (c : Instr), c = .start dt req ch ∨ c = .abort dt req ch → s.dmaState ch = 3 →
    ∃ t, exec c s = .next t ∧ t.fld (pgViol (0x140 + ch)) 14 12 = 3 ∧
      OnlyRegs s t [pgViol (0x140 + ch), pgStat (0x140 + ch)]) ∧
  (∀ (s : State) (dt req : Nat) (ch : Fin 64) (r : DmaRun), s.dmaState ch = 1 ∨ s.dmaState ch = 2 →
    (s.dmaCh ch).run = some r → r.host = true → (s.dmaCh ch).pend = false →
    (∀ d < 64, s.triggered 2 ch d = false) →
    ∃ t, exec (.abort dt req ch) s = .next t ∧ t.dmaState ch = 0 ∧ (t.dmaCh ch).run = none ∧
      t.rn (Reg.dmaResidue ch) = r.residue % 2 ^ 32 ∧ t.fld (Reg.dmaStat ch) 19 16 = 9 ∧ t.bit (Reg.dmaStat ch) 3 = true ∧
      Sent.host (r.addr + 56) (leBytes 4 (r.miss.getD r.residue) ++ leBytes 4 (9 + if r.miss.isSome then 2 ^ 30 else 0)) ∈ t.tx ∧
      SameRegs s t [Reg.dmaResidue ch, Reg.dmaStat ch] ∧ SameMemory s t) ∧
  (∀ (s : State) (dt : Nat) (tm : Fin 16) (ch : Fin 64), s.bit (Reg.dmagTimer tm) 31 = true →
    s.fld (Reg.dmagTimer tm) 29 0 ≠ 0 → (s.now + dt) % 2 ^ 64 % (s.fld (Reg.dmagTimer tm) 29 0 * 1000) = 0 →
    s.dmaState ch ≠ 3 → (∀ d < 64, s.triggered 1 tm d = decide (d = ch.val)) →
    ∃ t, exec (.eventTimer dt tm) s = .next t ∧ exec (.start dt 0 ch) s = .next t) ∧
  (∀ (s : State) (dt n : Nat) (ch : Fin 64), s.edges.contains n = true → s.dmaState ch ≠ 3 →
    (∀ d < 64, s.triggered 3 n d = decide (d = ch.val)) →
    ∃ t, exec (.requestLine dt n) s = .next t ∧ exec (.start dt 0 ch) { s with edges := s.edges.filter (· ≠ n) } = .next t) ∧
  (∀ (s : State) (dt req : Nat) (ch : Fin 64) (lo hi : Word), s.dmaState ch ≠ 3 → s.bit (Reg.dmaNextValid ch) 0 = false →
    ∃ t, exec (.nextWrite dt req ch lo hi) s = .next t ∧ t.rn (Reg.dmaNextLo ch) = lo.toNat / 64 * 64 ∧
      t.reg (Reg.dmaNextHi ch) = hi ∧ t.bit (Reg.dmaNextValid ch) 1 = true ∧
      OnlyRegs s t [Reg.dmaNextLo ch, Reg.dmaNextHi ch, Reg.dmaNextValid ch]) ∧
  (∀ (s : State) (dt req : Nat) (ch : Fin 64) (lo hi : Word), s.dmaState ch ≠ 3 → s.bit (Reg.dmaNextValid ch) 0 = true →
    ∃ t, exec (.nextWrite dt req ch lo hi) s = .next t ∧ t.bit (Reg.dmaStat ch) 9 = true ∧ OnlyRegs s t [Reg.dmaStat ch]) ∧
  (∀ (s : State) (dt req : Nat) (ch : Fin 64) (v : Word), s.dmaState ch ≠ 3 → v.getLsbD 16 = true →
    ∃ t, exec (.nextValidWrite dt req ch v) s = .next t ∧
      t.bit (Reg.dmaNextValid ch) 0 = (v.getLsbD 0 && (s.bit (Reg.dmaNextValid ch) 0 || s.bit (Reg.dmaNextValid ch) 1)) ∧
      (v.getLsbD 0 = true → s.bit (Reg.dmaNextValid ch) 0 = true ∨ s.bit (Reg.dmaNextValid ch) 1 = false →
        t.fld (pgViol (0x140 + ch)) 14 12 = 3) ∧
      SameRegs s t [Reg.dmaNextValid ch, Reg.dmaStat ch, pgViol (0x140 + ch), pgStat (0x140 + ch)] ∧ SameMemory s t)

/-- R285-R293, R296, R297: a descriptor in host memory is parsed when its bytes come, and refused at load with FORMAT; a FILL unit
writes its pattern to DRAM and nowhere else; a unit that fails on the bus is tried again; a descriptor that ends writes RESULT and
STATUS back, counts its fence, sets DONE, and goes on to NEXT or ends the chain. `u`: before the turn of the read engine that follows
(notes/assumptions/129). -/
def Obligations.DescriptorsRun : Prop :=
  (∀ (s : State) (dt : Nat) (ch : Fin 64) (data : List Byte) (r0 r : DmaRun), s.dmaState ch = 1 → (s.dmaCh ch).run = some r0 →
    r0.loaded = false → r = r0.parse (sliceB data 0 64) → r.badFormat = false → r.srcSpace ≠ 2 → r.dstSpace ≠ 2 → r.srcSpace ≠ 4 →
    ∃ u, exec (.unitAccepted dt ch data) s = .next u.readTurn.settle ∧
      (u.dmaCh ch).run = some (if r.total = 0 ∧ r.flags.testBit 6 = true then { r with half := true } else r) ∧
      SameRegs s u [Reg.dmaStat ch] ∧ SameMemory s u) ∧
  (∀ (s : State) (dt : Nat) (ch : Fin 64) (data : List Byte) (r0 : DmaRun), s.dmaState ch = 1 → (s.dmaCh ch).run = some r0 →
    r0.loaded = false → r0.host = true → (r0.parse (sliceB data 0 64)).badFormat = true → (s.dmaCh ch).pend = false →
    (∀ d < 64, s.triggered 2 ch d = false) →
    ∃ u, exec (.unitAccepted dt ch data) s = .next u.readTurn.settle ∧ u.dmaState ch = 0 ∧ (u.dmaCh ch).run = none ∧
      u.fld (Reg.dmaStat ch) 19 16 = 4 ∧ u.bit (Reg.dmaStat ch) 2 = true ∧ SameRegs s u [Reg.dmaResidue ch, Reg.dmaStat ch] ∧
      SameMemory s u) ∧
  (∀ (s : State) (dt a n : Nat) (ch : Fin 64) (data : List Byte) (r : DmaRun) (k : Nat → Nat), s.dmaState ch = 1 →
    (s.dmaCh ch).run = some r → r.loaded = true → r.op = 1 → r.dstSpace = 0 → r.rows ≤ 1 → r.acc < r.len →
    r.flags.testBit 2 = false → r.flags.testBit 3 = false → r.snext = none → r.dnext = none → (s.tick dt).bgHeld 5 = false →
    a = r.dst + r.acc → n = min (r.len - r.acc) (256 - a % 256) → s.anyUnmapped a n = false →
    (∀ (c : Fin 8) (j : Fin 2), (s.subChan c j).waiting = [] ∧ (s.subChan c j).writes.length < 44) →
    (∀ i < n, ∃ c q, s.place (a + i) = some (c, q, k i) ∧ s.rankLost c q = false) →
    (∀ i < n, ∀ j < n, k i = k j → i = j) →
    ∃ u, exec (.unitAccepted dt ch data) s = .next u.readTurn.settle ∧
      (∀ i < n, mget u.dram (k i) 0 = BitVec.ofNat 8 (r.pat >>> (8 * ((r.acc + i) % 8)))) ∧
      (∀ j, (∀ i < n, k i ≠ j) → mget u.dram j 0 = mget s.dram j 0) ∧ u.vault = s.vault ∧
      (∃ q, (u.dmaCh ch).run = some q ∧ q.acc = r.acc + n) ∧ u.dmaState ch = 1 ∧
      SameRegs s u (Reg.dmaStat ch :: (List.range 8).flatMap touchRegs)) ∧
  (∀ (s : State) (dt : Nat) (ch : Fin 64) (r : DmaRun), s.dmaState ch = 1 → (s.dmaCh ch).run = some r →
    r.tries < s.fld Reg.dmagRetry 3 0 →
    ∃ t, exec (.unitFailure dt ch 1) s = .next t ∧ (t.dmaCh ch).run = some { r with tries := r.tries + 1 } ∧
      t.bit (Reg.dmaStat ch) 8 = true ∧ t.rn Reg.pcieAerCnt =
        (if r.srcSpace = 1 ∨ r.dstSpace = 1 then min (s.rn Reg.pcieAerCnt + 1) 0xFFFFFFFF else s.rn Reg.pcieAerCnt) ∧
      SameRegs s t [Reg.dmaStat ch, Reg.pcieAerCnt] ∧ SameMemory s t) ∧
  (∀ (s : State) (dt : Nat) (ch : Fin 64) (r : DmaRun), s.dmaState ch = 1 → (s.dmaCh ch).run = some r → r.loaded = true →
    r.host = true → r.tries = s.fld Reg.dmagRetry 3 0 → (s.dmaCh ch).pend = false → (∀ d < 64, s.triggered 2 ch d = false) →
    ∃ t, exec (.unitFailure dt ch 1) s = .next t ∧ t.dmaState ch = 0 ∧ t.fld (Reg.dmaStat ch) 19 16 = 1 ∧
      t.bit (Reg.dmaStat ch) 2 = true ∧ SameMemory s t) ∧
  (∀ (s : State) (dt : Nat) (ch : Fin 64) (r : DmaRun), s.dmaState ch = 1 → (s.dmaCh ch).run = some r → r.loaded = true →
    r.total ≤ r.acc → r.host = true → (∀ cv < 4, (s.cv cv).comp = none) → (s.dmaCh ch).pend = false →
    (∀ d < 64, s.triggered 2 ch d = false) → s.bit (Reg.dmaNextValid ch) 0 = false →
    ∃ u, exec (.descriptorEnd dt ch) s = .next u.readTurn.settle ∧
      Sent.host (r.addr + 56) (leBytes 4 (r.miss.getD 0) ++ leBytes 4 (2 ^ 31 + if r.miss.isSome then 2 ^ 30 else 0)) ∈ u.tx ∧
      u.fld (Reg.dmaStat ch) 31 24 = (s.fld (Reg.dmaStat ch) 31 24 + if r.flags.testBit 5 then 1 else 0) % 256 ∧
      u.bit (Reg.dmaStat ch) 0 = (s.bit (Reg.dmaStat ch) 0 || r.flags.testBit 7) ∧ u.fld (Reg.dmaStat ch) 19 16 = 0 ∧
      (r.flags.testBit 4 = false → u.dmaState ch = 0 ∧ (u.dmaCh ch).run = none) ∧
      (r.flags.testBit 4 = true → s.bit (Reg.dmaTrig ch) 9 = false →
        u.dmaState ch = 1 ∧ (u.dmaCh ch).run = some { host := true, addr := r.next, serial := (s.dmaCh ch).loads + 1 }) ∧
      SameRegs s u [Reg.dmaStat ch] ∧ SameMemory s u)

/-- R299, R302: a reservation is asked for, and granted by the Ward's verdict on what stands with its rate added, or refused with its
code; a release gives a grant back; SPARES withholds idle channels from DMA55 downward, and not one that runs. -/
def Obligations.ReservationsAndSpares : Prop :=
  (∀ (s : State) (dt req : Nat) (v : Word), s.bit Reg.dmagRsvBw 31 = false → 1 ≤ bitsOf v.toNat 23 8 → bitsOf v.toNat 25 24 = 1 →
    ∃ t, exec (.reserve dt req v) s = .next t ∧ t.bit Reg.dmagRsvBw 31 = true ∧ t.fld Reg.dmagRsvBw 23 0 = v.toNat % 2 ^ 24 ∧
      t.rsvReq = some (v.toNat % 64, bitsOf v.toNat 7 6, bitsOf v.toNat 23 8, s.latch.armed.map (·.seq)) ∧
      SameRegs s t [Reg.dmagRsvBw] ∧ SameMemory s t) ∧
  (∀ (s : State) (dt req : Nat) (v : Word) (c : Instr), c = .reserve dt req v ∨ c = .rsvRelease dt req v →
    s.bit Reg.dmagRsvBw 31 = true →
    ∃ t, exec c s = .next t ∧ t.fld (pgViol 0x110) 14 12 = 3 ∧ OnlyRegs s t [pgViol 0x110, pgStat 0x110]) ∧
  (∀ (s : State) (dt req ch : Nat) (v : Word), s.bit Reg.dmagRsvBw 31 = false → 1 ≤ bitsOf v.toNat 23 8 →
    bitsOf v.toNat 25 24 = 2 → ch = v.toNat % 64 →
    ∃ t, exec (.rsvRelease dt req v) s = .next t ∧ t.rsv = s.rsv.filter (·.1 ≠ ch) ∧ t.bit (Reg.dmaCtrl ch) 2 = false ∧
      SameMemory s t) ∧
  (∀ (s : State) (dt ch ilv rate code : Nat) (before : List Nat) (st base : State), s.rsvReq = some (ch, ilv, rate, before) →
    ch < 64 → (∀ c ∈ s.latch.armed, c.seq ∉ before) → st = (s.tick dt).standing →
    base = (((s.tick dt).candidates st s.latch.accepted).getLast?).getD st →
    code = (({ base with rsv := addGrant base.rsv (ch, ilv, rate) }).evaluate none (fun _ => 0) (fun _ => false)).code →
    ∃ t, exec (.reservationVerdict dt) s = .next t ∧ t.rsvReq = none ∧ t.bit Reg.dmagRsvBw 31 = false ∧
      t.fld Reg.dmagRsvBw 29 26 = code % 16 ∧
      (code = 0 → t.rsv = addGrant s.rsv (ch, ilv, rate) ∧ t.bit (Reg.dmaCtrl ch) 2 = true ∧ t.bit Reg.dmagStat 0 = true) ∧
      (code ≠ 0 → t.rsv = s.rsv ∧ t.bit Reg.dmagStat 1 = true ∧ SameRegs s t [Reg.dmagRsvBw, Reg.dmagStat]) ∧ SameMemory s t) ∧
  (∀ (s : State) (dt req n : Nat) (v : Word), n = v.toNat % 16 → n ≤ 8 →
    (∀ k < 8, (s.dmaState (55 - k) = 0 ∨ s.dmaState (55 - k) = 3) ∧ s.servedBy (resKey 5 (55 - k)) = none ∧
      s.isRetired (resKey 5 (55 - k)) = false) →
    ∃ t, exec (.sparesWrite dt req v) s = .next t ∧ t.fld Reg.dmagCtrl 3 0 = n ∧ t.bit Reg.dmagCtrl 4 = v.getLsbD 4 ∧
      (∀ k < 8, t.dmaState (55 - k) = if k < n then 3 else 0) ∧ t.fld Reg.dmagSpareMap 15 8 = n ∧ SameMemory s t) ∧
  (∀ (s : State) (dt req : Nat) (v : Word), s.dmaState 55 = 1 → s.fld Reg.dmagCtrl 3 0 = 0 → 1 ≤ v.toNat % 16 → v.toNat % 16 ≤ 8 →
    ∃ t, exec (.sparesWrite dt req v) s = .next t ∧ t.fld Reg.dmagCtrl 3 0 = 0 ∧ t.fld (pgViol 0x110) 14 12 = 3 ∧
      OnlyRegs s t [Reg.dmagCtrl, pgViol 0x110, pgStat 0x110])

/-! ### The Turnkey (R391-R406) -/

/-- R391-R401: the phases of bring-up follow each other; phase 2 takes the newer valid image, phase 4 locks MTRN and starts the
enumeration of the head ports, phase 5 releases FAULT_N, and phase 6 ends at the first doorbell; a head port's turn ends when its chain
is quiet or its link stays down; with no doorbell in DEFAULT_WAIT default behaviour starts (shown for a wall without tiles). -/
def Obligations.TurnkeyBringsUp : Prop :=
  (∀ (s : State) (dt sizes : Nat) (copies life : List (List Byte)) (dimms : List Dimm), s.phase = 1 →
    s.fld Reg.gpioStraps 1 0 = 1 ∨ s.fld Reg.gpioStraps 1 0 = 2 →
    ∃ t, exec (.bringUpPhase dt copies sizes life dimms) s = .next t ∧ t.phase = 2 ∧
      t.turnkey.phases = s.turnkey.phases ||| 2 ∧ SameRegs s t [Reg.mboxStat] ∧ SameMemory s t) ∧
  (∀ (s : State) (dt sizes : Nat) (a b : List Byte) (life : List (List Byte)) (dimms : List Dimm), s.phase = 2 →
    (∀ x ∈ ({ s with turnkey := { s.turnkey with image := imgNewer a b } }).sections, x.type ≠ 1) →
    ∃ t, exec (.bringUpPhase dt [a, b] sizes life dimms) s = .next t ∧ t.phase = 3 ∧ t.turnkey.image = imgNewer a b ∧
      t.fld Reg.xspiMode 28 16 = sizes % 2 ^ 13 ∧ t.bit Reg.pcieStat 9 = (s.bit Reg.pcieStat 9 || s.pcie.perst) ∧
      SameRegs s t [Reg.mboxStat, Reg.xspiMode, Reg.pcieStat] ∧ SameMemory s t) ∧
  (∀ (s : State) (dt sizes : Nat) (copies life : List (List Byte)), s.phase = 3 → s.turnkey.cause = 0 →
    ∃ t, exec (.bringUpPhase dt copies sizes life []) s = .next t ∧ t.phase = 4 ∧ SameRegs s t [Reg.mboxStat] ∧ SameMemory s t) ∧
  (∀ (s : State) (dt sizes : Nat) (copies life : List (List Byte)), s.phase = 4 → s.turnkey.cause = 2 → s.turnkey.image = [] →
    (∀ c < 8, s.bit (Reg.mcCtrl c) 0 = false) → (∀ k < 4, s.rn (Reg.memIlv k) % 256 = 0) →
    ∃ t, exec (.bringUpPhase dt copies sizes life []) s = .next t ∧ t.phase = 5 ∧ t.locked 0x109 = true ∧
      t.turnkey.enum = some (0, (s.now + dt) % 2 ^ 64) ∧ t.turnkey.ports = (List.range 64).drop 1 ∧ SameMemory s t) ∧
  (∀ (s : State) (dt sizes : Nat) (copies life : List (List Byte)) (dimms : List Dimm), s.phase = 5 → s.turnkey.enum = none →
    s.fld Reg.gpioStraps 1 0 ≠ 2 →
    ∃ t, exec (.bringUpPhase dt copies sizes life dimms) s = .next t ∧ t.phase = 6 ∧ t.faults.bringUp = false ∧
      t.turnkey.waitFrom = some ((s.now + dt) % 2 ^ 64) ∧ SameRegs s t [Reg.mboxStat] ∧ SameMemory s t) ∧
  (∀ (s : State) (dt sizes : Nat) (copies life : List (List Byte)) (dimms : List Dimm), s.phase = 6 →
    ∃ t, exec (.bringUpPhase dt copies sizes life dimms) s = .next t ∧
      t.phase = (if s.turnkey.rung || !s.imgFlags.testBit 1 then 7 else 6) ∧ SameRegs s t [Reg.mboxStat] ∧ SameMemory s t) ∧
  (∀ (s : State) (dt since : Nat) (p : Fin 64), s.turnkey.enum = some (p.val, since) → s.turnkey.ports = [] →
    s.turnkey.enumReq = none → (s.prt p).up = true → (s.prt p).quiet + 150000000 ≤ (s.now + dt) % 2 ^ 64 →
    ∃ t, exec (.enumeratePortStep dt p none) s = .next t ∧ t.turnkey.enum = none ∧
      t.turnkey.taken = s.turnkey.taken.filter (· ≠ p.val) ++ [p.val] ∧ t.bit Reg.mboxStat 3 = true ∧
      t.fld Reg.mboxStat 15 8 = 3 ∧ SameRegs s t [Reg.mboxStat] ∧ SameMemory s t) ∧
  (∀ (s : State) (dt since : Nat) (p : Fin 64), s.turnkey.enum = some (p.val, since) → s.turnkey.ports = [] →
    s.turnkey.enumReq = none → (s.prt p).up = false → since + 50000000 ≤ (s.now + dt) % 2 ^ 64 →
    ∃ t, exec (.enumeratePortStep dt p none) s = .next t ∧ t.turnkey.enum = none ∧ t.turnkey.taken = s.turnkey.taken ∧
      t.bit (Reg.prtCtrl p) 0 = false ∧ t.bit Reg.mboxStat 3 = true ∧ t.fld Reg.mboxStat 15 8 = 3 ∧
      SameRegs s t [Reg.prtCtrl p, Reg.mboxStat, pgViol (0xA0 + p), pgStat (0xA0 + p)] ∧ SameMemory s t) ∧
  (∀ (s : State) (dt t0 : Nat), s.phase = 6 → s.imgFlags.testBit 1 = true → s.fld Reg.gpioStraps 1 0 ≠ 2 →
    s.turnkey.rung = false → s.turnkey.waitFrom = some t0 → t0 + s.imgWait * 1000000000 ≤ (s.now + dt) % 2 ^ 64 → s.tiles = [] →
    ∃ t, exec (.defaultWaitExpiry dt) s = .next t ∧ t.phase = 7 ∧ t.bit Reg.mboxStat 30 = true ∧ t.bit Reg.mboxStat 3 = true ∧
      t.fld Reg.mboxStat 15 8 = 1 ∧ SameRegs s t [Reg.mboxStat] ∧ SameMemory s t) ∧
  (∀ (s : State) (dt k : Nat) (x : Nat × Nat × Nat), s.turnkey.content[s.turnkey.item]? = some x →
    s.bit Reg.mboxStat 30 = true → s.turnkey.itemAt + x.2.2 * 1000000 ≤ (s.now + dt) % 2 ^ 64 → s.bit (Reg.latchLt 3) 31 = false →
    s.heldMask.testBit 15 = false → k = (s.turnkey.item + 1) % s.turnkey.content.length →
    ∃ t, exec (.contentChange dt) s = .next t ∧ t.turnkey.item = k ∧ t.turnkey.itemAt = (s.now + dt) % 2 ^ 64 ∧
      t.turnkey.content = s.turnkey.content)

/-- R398, R404, R405: the Turnkey answers VERSION, BOOT_STATUS, ENUMERATE, AUTOMAP, STOP_DEFAULT, START_DEFAULT and RETRAIN with the
request's identifier and a STATUS, clears BUSY and sets DONE (and ERR for a STATUS other than 0); a command that no waiting
request names changes nothing. AUTOMAP and START_DEFAULT are shown for a wall without tiles, whose outcome is the model's choice
(notes/assumptions/109, 110). -/
def Obligations.TurnkeyAnswers : Prop :=
  (∀ (s : State) (dt : Nat), s.mboxCmd 0x01 = true →
    ∃ t, exec (.version dt) s = .next t ∧ t.rn (Reg.mboxRsp 0) = s.mboxId * 65536 ∧ t.reg (Reg.mboxRsp 1) = Config.romVersion ∧
      t.rn (Reg.mboxRsp 2) = leAt s.turnkey.image 8 4 ∧ t.bit Reg.mboxStat 31 = false ∧ t.bit Reg.mboxStat 0 = true ∧
      OnlyRegs s t [Reg.mboxRsp 0, Reg.mboxRsp 1, Reg.mboxRsp 2, Reg.mboxStat]) ∧
  (∀ (s : State) (dt : Nat), s.mboxCmd 0x02 = true →
    ∃ t, exec (.bootStatus dt) s = .next t ∧ t.rn (Reg.mboxRsp 0) = s.mboxId * 65536 ∧
      t.rn (Reg.mboxRsp 1) = s.turnkey.phases % 2 ^ 32 ∧ t.rn (Reg.mboxRsp 2) = s.turnkey.failed % 2 ^ 32 ∧
      t.rn (Reg.mboxRsp 3) = s.turnkey.badChan % 2 ^ 32 ∧ t.bit Reg.mboxStat 31 = false ∧ t.bit Reg.mboxStat 0 = true ∧
      OnlyRegs s t [Reg.mboxRsp 0, Reg.mboxRsp 1, Reg.mboxRsp 2, Reg.mboxRsp 3, Reg.mboxStat]) ∧
  (∀ (s : State) (dt : Nat), s.mboxCmd 0x10 = true → s.turnkey.enumReq = none → s.turnkey.enum.isSome = true →
    ∃ t, exec (.enumerate dt) s = .next t ∧ t.rn (Reg.mboxRsp 0) = 3 + s.mboxId * 65536 ∧ t.bit Reg.mboxStat 31 = false ∧
      t.bit Reg.mboxStat 0 = true ∧ t.bit Reg.mboxStat 1 = true ∧ OnlyRegs s t [Reg.mboxRsp 0, Reg.mboxStat]) ∧
  (∀ (s : State) (dt p : Nat) (l : List Nat), s.mboxCmd 0x10 = true → s.turnkey.enumReq = none → s.turnkey.enum = none →
    ((List.range 64).filter (s.rn (Reg.mboxReq 1) + s.rn (Reg.mboxReq 2) * 2 ^ 32).testBit) = p :: l →
    ∃ t, exec (.enumerate dt) s = .next t ∧ t.turnkey.enum = some (p, (s.now + dt) % 2 ^ 64) ∧ t.turnkey.ports = l ∧
      t.turnkey.enumReq = some s.mboxId ∧ t.bit Reg.mboxStat 31 = true ∧ SameMemory s t) ∧
  (∀ (s : State) (dt : Nat), s.mboxCmd 0x11 = true → s.tiles = [] → (∀ c ∈ s.latch.armed, c.seq ≠ s.nextSeq) →
    ∃ t, exec (.automap dt) s = .next t ∧ t.rn (Reg.mboxRsp 0) = s.mboxId * 65536 ∧ t.rn (Reg.mboxRsp 1) = 0 ∧
      t.bit Reg.mboxStat 31 = false ∧ t.bit Reg.mboxStat 0 = true ∧
      SameRegs s t [Reg.mboxRsp 0, Reg.mboxRsp 1, Reg.mboxStat] ∧ SameMemory s t) ∧
  (∀ (s : State) (dt : Nat), s.mboxCmd 0x20 = true → s.busyMask.testBit 15 = false →
    ∃ t, exec (.stopDefault dt) s = .next t ∧ t.bit Reg.mboxStat 30 = false ∧ t.turnkey.content = [] ∧
      (s.bit Reg.mboxStat 30 = true → t.bit Reg.mboxStat 3 = true ∧ t.fld Reg.mboxStat 15 8 = 2) ∧
      t.rn (Reg.mboxRsp 0) = s.mboxId * 65536 ∧ t.bit Reg.mboxStat 31 = false ∧ t.bit Reg.mboxStat 0 = true ∧
      SameRegs s t [Reg.mboxRsp 0, Reg.mboxStat] ∧ SameMemory s t) ∧
  (∀ (s : State) (dt : Nat), s.mboxCmd 0x21 = true → s.tiles = [] →
    ∃ t, exec (.startDefault dt) s = .next t ∧ t.bit Reg.mboxStat 31 = false ∧ t.bit Reg.mboxStat 0 = true ∧
      (s.phase < 6 → t.rn (Reg.mboxRsp 0) = 3 + s.mboxId * 65536 ∧ t.bit Reg.mboxStat 1 = true) ∧
      (6 ≤ s.phase → t.rn (Reg.mboxRsp 0) = s.mboxId * 65536 ∧ t.bit Reg.mboxStat 30 = true) ∧
      (6 ≤ s.phase → s.bit Reg.mboxStat 30 = false → t.phase = 7 ∧ t.bit Reg.mboxStat 3 = true ∧ t.fld Reg.mboxStat 15 8 = 1) ∧
      SameRegs s t [Reg.mboxRsp 0, Reg.mboxStat] ∧ SameMemory s t) ∧
  (∀ (s : State) (dt : Nat) (dimms : List Dimm), s.mboxCmd 0x30 = true →
    ∃ t, exec (.retrain dt dimms) s = .next t ∧ t.bit Reg.mboxStat 31 = false ∧ t.bit Reg.mboxStat 0 = true ∧
      (256 ≤ s.rn (Reg.mboxReq 1) → t.rn (Reg.mboxRsp 0) = 2 + s.mboxId * 65536) ∧
      (s.rn (Reg.mboxReq 1) < 256 → (s.tick dt).anyAdmitted = true → t.rn (Reg.mboxRsp 0) = 3 + s.mboxId * 65536) ∧
      (s.rn (Reg.mboxReq 1) < 256 → (s.tick dt).anyAdmitted = false → t.rn (Reg.mboxRsp 0) = s.mboxId * 65536 ∧
        t.turnkey.cacheSlot = 1 - s.turnkey.cacheSlot) ∧
      SameRegs s t [Reg.mboxRsp 0, Reg.mboxStat, Reg.mtrnTrained] ∧ SameMemory s t) ∧
  (∀ (s : State) (dt : Nat) (c : Instr × Nat),
    c ∈ [(.version dt, 0x01), (.bootStatus dt, 0x02), (.enumerate dt, 0x10), (.automap dt, 0x11), (.stopDefault dt, 0x20),
      (.startDefault dt, 0x21), (.retrain dt [], 0x30)] → s.mboxCmd c.2 = false →
    ∃ t, exec c.1 s = .next t ∧ OnlyRegs s t [])
end

