-- ==== Sys2Proof/Laws/Bytes.lean ====
section
/-! SUPPORT. What reading back bytes and CRCs gives (R191, R197). -/

namespace Sys2Proof.Machine
open Sys2Proof

@[simp] theorem leBytes_length (n x : Nat) : (leBytes n x).length = n := by simp [leBytes]

@[simp] theorem beBytes_length (n x : Nat) : (beBytes n x).length = n := by simp [beBytes]

/-- Four little-endian bytes read back the number. -/
theorem ofLe_leBytes_four (x : Nat) (h : x < 2 ^ 32) : ofLe (leBytes 4 x) = x := by
  simp [leBytes, List.range, List.range.loop, ofLe, Nat.shiftRight_eq_div_pow]
  omega

/-- A slice that is the middle of three parts. -/
theorem sliceB_middle (a b c : List Byte) : sliceB (a ++ (b ++ c)) a.length b.length = b := by
  apply List.ext_getElem
  · simp [sliceB]
  · intro k h1 h2
    have h3 : ¬ a.length + k < a.length := by omega
    simp [sliceB, List.getD_eq_getElem?_getD, List.getElem?_append, h2, h3]

/-- A step of a reflected CRC stays in 32 bits. -/
theorem crcByte_lt (poly c : Nat) (b : Byte) (hp : poly < 2 ^ 32) (hc : c < 2 ^ 32) : crcByte poly c b < 2 ^ 32 := by
  have start : c ^^^ b.toNat < 2 ^ 32 := Nat.xor_lt_two_pow hc (Nat.lt_trans b.isLt (by decide))
  refine List.foldlRecOn (motive := (· < 2 ^ 32)) _ _ start fun d small _ _ => ?_
  have half : d / 2 < 2 ^ 32 := Nat.lt_of_le_of_lt (Nat.div_le_self ..) small
  by_cases odd : d % 2 = 1
  · rw [if_pos odd]; exact Nat.xor_lt_two_pow half hp
  · rw [if_neg odd]; exact half

/-- A reflected CRC is a 32-bit number. -/
theorem crcRefl_lt (poly : Nat) (l : List Byte) (hp : poly < 2 ^ 32) : crcRefl poly l < 2 ^ 32 := by
  exact Nat.xor_lt_two_pow (List.foldlRecOn (motive := (· < 2 ^ 32)) _ _ (by decide) fun c small b _ => crcByte_lt poly c b hp small)
    (by decide)

theorem crc32_lt (l : List Byte) : crc32 l < 2 ^ 32 := crcRefl_lt _ l (by decide)

theorem crc32c_lt (l : List Byte) : crc32c l < 2 ^ 32 := crcRefl_lt _ l (by decide)

end Sys2Proof.Machine
end

