-- ==== Sys2Proof/Laws/Sparse.lean ====
section
/-! SUPPORT. Sparse tables: a read after a write, and the canonical form that every table operation keeps. -/
namespace Sys2Proof.Machine

variable {α : Type}

/-! ### Reading after writing -/

theorem mget_mdrop_same (m : Sparse α) (k : Nat) (d : α) : mget (mdrop m k) k d = d := by
  induction m with
  | nil => rfl
  | cons x r ih =>
    simp only [mdrop]
    split
    · exact ih
    · next h => simp [mget, h, ih]

theorem mget_mdrop_other (m : Sparse α) {j k : Nat} (d : α) (h : j ≠ k) : mget (mdrop m k) j d = mget m j d := by
  induction m with
  | nil => rfl
  | cons x r ih =>
    simp only [mdrop]
    split
    · next e => rw [ih]; simp only [mget]; rw [if_neg (by omega)]
    · simp only [mget, ih]

theorem mget_mput_other (m : Sparse α) {j k : Nat} (d v : α) (h : j ≠ k) : mget (mput m k v) j d = mget m j d := by
  induction m with
  | nil => simp [mput, mget, Ne.symm h]
  | cons x r ih =>
    simp only [mput]
    split
    · simp [mget, Ne.symm h]
    · simp only [mget, ih]

theorem mget_mput_mdrop (m : Sparse α) (k : Nat) (d v : α) : mget (mput (mdrop m k) k v) k d = v := by
  induction m with
  | nil => simp [mdrop, mput, mget]
  | cons x r ih =>
    simp only [mdrop]
    split
    · exact ih
    · next h =>
      simp only [mput]
      split
      · simp [mget]
      · simp [mget, h, ih]

/-- A read gives what was written last. -/
@[simp] theorem mget_mset_same [DecidableEq α] (m : Sparse α) (k : Nat) (d v : α) : mget (mset m k d v) k d = v := by
  simp only [mset]
  split
  · next h => rw [h, mget_mdrop_same]
  · exact mget_mput_mdrop m k d v

/-- A write leaves every other entry alone. -/
theorem mget_mset_other [DecidableEq α] (m : Sparse α) {j k : Nat} (d e v : α) (h : j ≠ k) :
    mget (mset m k d v) j e = mget m j e := by
  simp only [mset]
  split
  · exact mget_mdrop_other m e h
  · rw [mget_mput_other _ _ _ h, mget_mdrop_other _ _ h]

/-! ### The canonical form -/

theorem mem_mdrop {m : Sparse α} {k : Nat} {x : Nat × α} : x ∈ mdrop m k ↔ x ∈ m ∧ x.1 ≠ k := by
  induction m with
  | nil => simp [mdrop]
  | cons y r ih =>
    simp only [mdrop]
    split
    · next e =>
      rw [ih, List.mem_cons]
      constructor
      · rintro ⟨h, hk⟩; exact ⟨Or.inr h, hk⟩
      · rintro ⟨rfl | h, hk⟩
        · exact absurd e hk
        · exact ⟨h, hk⟩
    · next e =>
      rw [List.mem_cons, ih, List.mem_cons]
      constructor
      · rintro (rfl | ⟨h, hk⟩)
        · exact ⟨Or.inl rfl, e⟩
        · exact ⟨Or.inr h, hk⟩
      · rintro ⟨rfl | h, hk⟩
        · exact Or.inl rfl
        · exact Or.inr ⟨h, hk⟩

theorem mem_mput {m : Sparse α} {k : Nat} {v : α} {x : Nat × α} : x ∈ mput m k v ↔ x = (k, v) ∨ x ∈ m := by
  induction m with
  | nil => simp [mput]
  | cons y r ih =>
    simp only [mput]
    split
    · simp
    · rw [List.mem_cons, ih, List.mem_cons]; exact or_left_comm

theorem mdrop_rising {m : Sparse α} (k : Nat) (h : m.Pairwise (fun a b => a.1 < b.1)) :
    (mdrop m k).Pairwise (fun a b => a.1 < b.1) := by
  induction m with
  | nil => exact h
  | cons y r ih =>
    rw [List.pairwise_cons] at h
    simp only [mdrop]
    split
    · exact ih h.2
    · exact List.pairwise_cons.2 ⟨fun z hz => h.1 z (mem_mdrop.1 hz).1, ih h.2⟩

theorem mput_rising {m : Sparse α} {k : Nat} (v : α) (hk : ∀ x ∈ m, x.1 ≠ k) (h : m.Pairwise (fun a b => a.1 < b.1)) :
    (mput m k v).Pairwise (fun a b => a.1 < b.1) := by
  induction m with
  | nil => simp [mput]
  | cons y r ih =>
    have hc := List.pairwise_cons.1 h
    simp only [mput]
    split
    · next lt =>
      refine List.pairwise_cons.2 ⟨fun z hz => ?_, h⟩
      rcases List.mem_cons.1 hz with rfl | hz
      · exact lt
      · exact Nat.lt_trans lt (hc.1 z hz)
    · next ge =>
      refine List.pairwise_cons.2 ⟨fun z hz => ?_, ih (fun x hx => hk x (List.mem_cons_of_mem _ hx)) hc.2⟩
      rcases mem_mput.1 hz with rfl | hz
      · have := hk y List.mem_cons_self; simp only; omega
      · exact hc.1 z hz

/-- Setting an entry keeps the canonical form. -/
theorem mset_wf [DecidableEq α] {d : Nat → α} {m : Sparse α} (k : Nat) (v : α) (h : Sparse.wf d m) :
    Sparse.wf d (mset m k (d k) v) := by
  simp only [mset]
  split
  · exact ⟨mdrop_rising k h.1, fun x hx => h.2 x (mem_mdrop.1 hx).1⟩
  · next hv =>
    refine ⟨mput_rising v (fun x hx => (mem_mdrop.1 hx).2) (mdrop_rising k h.1), fun x hx => ?_⟩
    rcases mem_mput.1 hx with rfl | hx
    · exact hv
    · exact h.2 x (mem_mdrop.1 hx).1

/-- Leaving entries out keeps the canonical form. -/
theorem filter_wf {d : Nat → α} {m : Sparse α} (p : Nat × α → Bool) (h : Sparse.wf d m) : Sparse.wf d (m.filter p) :=
  ⟨h.1.sublist List.filter_sublist, fun x hx => h.2 x (List.mem_filter.1 hx).1⟩

/-- The nonzero bytes of a run, with their addresses. -/
theorem run_mem {l : List Byte} {a : Nat} {x : Host.Cell}
    (hx : x ∈ (l.zipIdx a).filterMap fun y => if y.1 = 0 then none else some (y.2, y.1)) :
    a ≤ x.1 ∧ x.1 < a + l.length ∧ x.2 ≠ 0 := by
  obtain ⟨y, hy, h⟩ := List.mem_filterMap.1 hx
  split at h
  · cases h
  · next hne =>
    cases h
    have := List.mem_zipIdx hy
    exact ⟨this.1, this.2.1, hne⟩

theorem run_rising (l : List Byte) (a : Nat) :
    ((l.zipIdx a).filterMap fun y => if y.1 = 0 then none else some (y.2, y.1)).Pairwise (fun (p q : Host.Cell) => p.1 < q.1) := by
  induction l generalizing a with
  | nil => simp
  | cons b r ih =>
    rw [List.zipIdx_cons, List.filterMap_cons]
    split
    · exact ih (a + 1)
    · next c hc =>
      refine List.pairwise_cons.2 ⟨fun z hz => ?_, ih (a + 1)⟩
      have hz := run_mem hz
      split at hc
      · cases hc
      · cases hc; simp only; omega

/-- Writing a run of bytes keeps the canonical form. -/
theorem mrun_wf {m : List Host.Cell} (a : Nat) (l : List Byte) (h : Memory.wf m) : Memory.wf (mrun m a l) := by
  have lo := filter_wf (fun c => c.1 < a) h
  have hi := filter_wf (fun c => a + l.length ≤ c.1) h
  refine ⟨?_, fun x hx => ?_⟩
  · refine List.pairwise_append.2 ⟨List.pairwise_append.2 ⟨lo.1, run_rising l a, fun x hx y hy => ?_⟩, hi.1, fun x hx y hy => ?_⟩
    · have hx := (List.mem_filter.1 hx).2
      have hy := run_mem hy
      simp only [decide_eq_true_eq] at hx
      omega
    · have hy := (List.mem_filter.1 hy).2
      simp only [decide_eq_true_eq] at hy
      rcases List.mem_append.1 hx with hx | hx
      · have hx := (List.mem_filter.1 hx).2
        simp only [decide_eq_true_eq] at hx
        omega
      · have hx := run_mem hx
        omega
  · rcases List.mem_append.1 hx with hx | hx
    · rcases List.mem_append.1 hx with hx | hx
      · exact lo.2 x hx
      · exact (run_mem hx).2.2
    · exact hi.2 x hx

end Sys2Proof.Machine
end

