-- ==== Sys2Proof/Laws/State.lean ====
section
/-! SUPPORT. The fields of State: which small update writes each, and that every other one leaves it. -/
namespace Sys2Proof.Machine

variable (s : State) (off hi lo x n : Nat) (w : Word) (c : Bool) (cv : Canvas) (ly : Layer) (pt : Port) (tl : Tile) (bk : Bank)
  (by_ : Byte) (pl : Pll) (fl : Flow)

/-! ### Updates that do not unfold to one record update -/

/-- Setting a bit on a condition changes the register homes alone. -/
theorem State.setBitIf_eq : s.setBitIf c off x = { s with regs := (s.setBitIf c off x).regs } := by
  cases c <;> rfl

/-- A count changes the register homes alone. -/
theorem State.incr_eq : s.incr off = { s with regs := (s.incr off).regs } := by
  rw [State.incr]
  by_cases full : s.rn off = 0xFFFFFFFF
  · rw [if_pos full]
  · rw [if_neg full]; rfl

/-- A fold over instances keeps what each of its steps keeps. -/
theorem State.each_keeps {β : Type} (get : State → β) (f : Nat → State → State) (same : ∀ k t, get (f k t) = get t) (l : List Nat) :
    ∀ t : State, get (t.each l f) = get t :=
  List.rec (fun _ => rfl) (fun k _ rest t => (rest (f k t)).trans (same k t)) l

/-- R388: pulses change what pins drive and what goes out, nothing else. -/
theorem State.pulse_eq (func : Nat) : s.pulse func = { s with pulses := (s.pulse func).pulses, tx := (s.pulse func).tx } := by
  rw [State.pulse, State.each]
  generalize (List.range 16).filter _ = pins
  revert s
  induction pins with
  | nil => exact fun _ => rfl
  | cons _ _ rest => exact fun _ => rest _

/-- R8, R388: time that passes changes wall time, pulses and what goes out, nothing else. -/
theorem State.tick_eq : s.tick n =
    { s with now := (s.now + n) % 2 ^ 64, pulses := (s.tick n).pulses, tx := (s.tick n).tx } := by
  dsimp only [State.tick]
  by_cases whole : (s.now + n) % 2 ^ 64 / 1000000000 = s.now / 1000000000
  · rw [if_pos whole]
  · rw [if_neg whole, State.pulse_eq _ 8]

/-! ### `pending` -/

@[simp] theorem State.setFld_pending : (s.setFld off hi lo x).pending = s.pending := rfl
@[simp] theorem State.setReg_pending : (s.setReg off w).pending = s.pending := rfl
@[simp] theorem State.setRn_pending : (s.setRn off x).pending = s.pending := rfl
@[simp] theorem State.drawn_pending : s.drawn.pending = s.pending := rfl
@[simp] theorem State.setCv_pending : (s.setCv n cv).pending = s.pending := rfl
@[simp] theorem State.setLay_pending : (s.setLay n ly).pending = s.pending := rfl
@[simp] theorem State.setBitIf_pending : (s.setBitIf c off x).pending = s.pending := congrArg (·.pending) (s.setBitIf_eq off x c)
@[simp] theorem State.setBit_pending : (s.setBit off x).pending = s.pending := rfl
@[simp] theorem State.clrBit_pending : (s.clrBit off x).pending = s.pending := rfl
@[simp] theorem State.settle_pending : s.settle.pending = s.pending := rfl
@[simp] theorem State.setPrt_pending : (s.setPrt n pt).pending = s.pending := rfl
@[simp] theorem State.setTile_pending : (s.setTile n tl).pending = s.pending := rfl
@[simp] theorem State.incr_pending : (s.incr off).pending = s.pending := congrArg (·.pending) (s.incr_eq off)
@[simp] theorem State.setBank_pending : (s.setBank n bk).pending = s.pending := rfl
@[simp] theorem State.setVb_pending : (s.setVb n by_).pending = s.pending := rfl
@[simp] theorem State.dropShadow_pending : (s.dropShadow off).pending = s.pending := rfl
@[simp] theorem State.setShadow_pending : (s.setShadow off w).pending = s.pending := rfl
@[simp] theorem State.tick_pending : (s.tick n).pending = s.pending := congrArg (·.pending) (s.tick_eq n)
@[simp] theorem State.setPll_pending : (s.setPll n pl).pending = s.pending := rfl
@[simp] theorem State.setFlw_pending : (s.setFlw n fl).pending = s.pending := rfl

/-! ### `now` -/

@[simp] theorem State.setBit_now : (s.setBit off x).now = s.now := rfl
@[simp] theorem State.clrBit_now : (s.clrBit off x).now = s.now := rfl
@[simp] theorem State.settle_now : s.settle.now = s.now := rfl
@[simp] theorem State.setPrt_now : (s.setPrt n pt).now = s.now := rfl
@[simp] theorem State.setTile_now : (s.setTile n tl).now = s.now := rfl
@[simp] theorem State.incr_now : (s.incr off).now = s.now := congrArg (·.now) (s.incr_eq off)
@[simp] theorem State.setBank_now : (s.setBank n bk).now = s.now := rfl
@[simp] theorem State.setVb_now : (s.setVb n by_).now = s.now := rfl
@[simp] theorem State.dropShadow_now : (s.dropShadow off).now = s.now := rfl
@[simp] theorem State.setShadow_now : (s.setShadow off w).now = s.now := rfl
@[simp] theorem State.tick_now : (s.tick n).now = (s.now + n) % 2 ^ 64 := congrArg (·.now) (s.tick_eq n)
@[simp] theorem State.setPll_now : (s.setPll n pl).now = s.now := rfl
@[simp] theorem State.setFlw_now : (s.setFlw n fl).now = s.now := rfl
@[simp] theorem State.setFld_now : (s.setFld off hi lo x).now = s.now := rfl
@[simp] theorem State.setReg_now : (s.setReg off w).now = s.now := rfl
@[simp] theorem State.setRn_now : (s.setRn off x).now = s.now := rfl
@[simp] theorem State.drawn_now : s.drawn.now = s.now := rfl
@[simp] theorem State.setCv_now : (s.setCv n cv).now = s.now := rfl
@[simp] theorem State.setLay_now : (s.setLay n ly).now = s.now := rfl
@[simp] theorem State.setBitIf_now : (s.setBitIf c off x).now = s.now := congrArg (·.now) (s.setBitIf_eq off x c)

/-! ### `free` -/

@[simp] theorem State.setVb_free : (s.setVb n by_).free = s.free := rfl
@[simp] theorem State.dropShadow_free : (s.dropShadow off).free = s.free := rfl
@[simp] theorem State.setShadow_free : (s.setShadow off w).free = s.free := rfl
@[simp] theorem State.tick_free : (s.tick n).free = s.free := congrArg (·.free) (s.tick_eq n)
@[simp] theorem State.setPll_free : (s.setPll n pl).free = s.free := rfl
@[simp] theorem State.setFlw_free : (s.setFlw n fl).free = s.free := rfl
@[simp] theorem State.setFld_free : (s.setFld off hi lo x).free = s.free := rfl
@[simp] theorem State.setReg_free : (s.setReg off w).free = s.free := rfl
@[simp] theorem State.setRn_free : (s.setRn off x).free = s.free := rfl
@[simp] theorem State.drawn_free : s.drawn.free = s.free + 1 := rfl
@[simp] theorem State.setCv_free : (s.setCv n cv).free = s.free := rfl
@[simp] theorem State.setLay_free : (s.setLay n ly).free = s.free := rfl
@[simp] theorem State.setBitIf_free : (s.setBitIf c off x).free = s.free := congrArg (·.free) (s.setBitIf_eq off x c)
@[simp] theorem State.setBit_free : (s.setBit off x).free = s.free := rfl
@[simp] theorem State.clrBit_free : (s.clrBit off x).free = s.free := rfl
@[simp] theorem State.settle_free : s.settle.free = s.free := rfl
@[simp] theorem State.setPrt_free : (s.setPrt n pt).free = s.free := rfl
@[simp] theorem State.setTile_free : (s.setTile n tl).free = s.free := rfl
@[simp] theorem State.incr_free : (s.incr off).free = s.free := congrArg (·.free) (s.incr_eq off)
@[simp] theorem State.setBank_free : (s.setBank n bk).free = s.free := rfl

/-! ### `bus` -/

@[simp] theorem State.setReg_bus : (s.setReg off w).bus = s.bus := rfl
@[simp] theorem State.setRn_bus : (s.setRn off x).bus = s.bus := rfl
@[simp] theorem State.drawn_bus : s.drawn.bus = s.bus := rfl
@[simp] theorem State.setCv_bus : (s.setCv n cv).bus = s.bus := rfl
@[simp] theorem State.setLay_bus : (s.setLay n ly).bus = s.bus := rfl
@[simp] theorem State.setBitIf_bus : (s.setBitIf c off x).bus = s.bus := congrArg (·.bus) (s.setBitIf_eq off x c)
@[simp] theorem State.setBit_bus : (s.setBit off x).bus = s.bus := rfl
@[simp] theorem State.clrBit_bus : (s.clrBit off x).bus = s.bus := rfl
@[simp] theorem State.settle_bus : s.settle.bus = s.bus := rfl
@[simp] theorem State.setPrt_bus : (s.setPrt n pt).bus = s.bus := rfl
@[simp] theorem State.setTile_bus : (s.setTile n tl).bus = s.bus := rfl
@[simp] theorem State.incr_bus : (s.incr off).bus = s.bus := congrArg (·.bus) (s.incr_eq off)
@[simp] theorem State.setBank_bus : (s.setBank n bk).bus = s.bus := rfl
@[simp] theorem State.setVb_bus : (s.setVb n by_).bus = s.bus := rfl
@[simp] theorem State.dropShadow_bus : (s.dropShadow off).bus = s.bus := rfl
@[simp] theorem State.setShadow_bus : (s.setShadow off w).bus = s.bus := rfl
@[simp] theorem State.tick_bus : (s.tick n).bus = s.bus := congrArg (·.bus) (s.tick_eq n)
@[simp] theorem State.setPll_bus : (s.setPll n pl).bus = s.bus := rfl
@[simp] theorem State.setFlw_bus : (s.setFlw n fl).bus = s.bus := rfl
@[simp] theorem State.setFld_bus : (s.setFld off hi lo x).bus = s.bus := rfl

/-! ### `regs` -/

@[simp] theorem State.settle_regs : s.settle.regs = s.regs := rfl
@[simp] theorem State.setPrt_regs : (s.setPrt n pt).regs = s.regs := rfl
@[simp] theorem State.setTile_regs : (s.setTile n tl).regs = s.regs := rfl
@[simp] theorem State.setBank_regs : (s.setBank n bk).regs = s.regs := rfl
@[simp] theorem State.setVb_regs : (s.setVb n by_).regs = s.regs := rfl
@[simp] theorem State.dropShadow_regs : (s.dropShadow off).regs = s.regs := rfl
@[simp] theorem State.setShadow_regs : (s.setShadow off w).regs = s.regs := rfl
@[simp] theorem State.tick_regs : (s.tick n).regs = s.regs := congrArg (·.regs) (s.tick_eq n)
@[simp] theorem State.setPll_regs : (s.setPll n pl).regs = s.regs := rfl
@[simp] theorem State.setFlw_regs : (s.setFlw n fl).regs = s.regs := rfl
@[simp] theorem State.setReg_regs : (s.setReg off w).regs = mset s.regs off (resetWord off) w := rfl
@[simp] theorem State.drawn_regs : s.drawn.regs = s.regs := rfl
@[simp] theorem State.setCv_regs : (s.setCv n cv).regs = s.regs := rfl
@[simp] theorem State.setLay_regs : (s.setLay n ly).regs = s.regs := rfl

/-! ### `shadow` -/

@[simp] theorem State.tick_shadow : (s.tick n).shadow = s.shadow := congrArg (·.shadow) (s.tick_eq n)
@[simp] theorem State.setPll_shadow : (s.setPll n pl).shadow = s.shadow := rfl
@[simp] theorem State.setFlw_shadow : (s.setFlw n fl).shadow = s.shadow := rfl
@[simp] theorem State.setFld_shadow : (s.setFld off hi lo x).shadow = s.shadow := rfl
@[simp] theorem State.setReg_shadow : (s.setReg off w).shadow = s.shadow := rfl
@[simp] theorem State.setRn_shadow : (s.setRn off x).shadow = s.shadow := rfl
@[simp] theorem State.drawn_shadow : s.drawn.shadow = s.shadow := rfl
@[simp] theorem State.setCv_shadow : (s.setCv n cv).shadow = s.shadow := rfl
@[simp] theorem State.setLay_shadow : (s.setLay n ly).shadow = s.shadow := rfl
@[simp] theorem State.setBitIf_shadow : (s.setBitIf c off x).shadow = s.shadow := congrArg (·.shadow) (s.setBitIf_eq off x c)
@[simp] theorem State.setBit_shadow : (s.setBit off x).shadow = s.shadow := rfl
@[simp] theorem State.clrBit_shadow : (s.clrBit off x).shadow = s.shadow := rfl
@[simp] theorem State.settle_shadow : s.settle.shadow = s.shadow := rfl
@[simp] theorem State.setPrt_shadow : (s.setPrt n pt).shadow = s.shadow := rfl
@[simp] theorem State.setTile_shadow : (s.setTile n tl).shadow = s.shadow := rfl
@[simp] theorem State.incr_shadow : (s.incr off).shadow = s.shadow := congrArg (·.shadow) (s.incr_eq off)
@[simp] theorem State.setBank_shadow : (s.setBank n bk).shadow = s.shadow := rfl
@[simp] theorem State.setVb_shadow : (s.setVb n by_).shadow = s.shadow := rfl

/-! ### `loHeld` -/

@[simp] theorem State.setRn_loHeld : (s.setRn off x).loHeld = s.loHeld := rfl
@[simp] theorem State.drawn_loHeld : s.drawn.loHeld = s.loHeld := rfl
@[simp] theorem State.setCv_loHeld : (s.setCv n cv).loHeld = s.loHeld := rfl
@[simp] theorem State.setLay_loHeld : (s.setLay n ly).loHeld = s.loHeld := rfl
@[simp] theorem State.setBitIf_loHeld : (s.setBitIf c off x).loHeld = s.loHeld := congrArg (·.loHeld) (s.setBitIf_eq off x c)
@[simp] theorem State.setBit_loHeld : (s.setBit off x).loHeld = s.loHeld := rfl
@[simp] theorem State.clrBit_loHeld : (s.clrBit off x).loHeld = s.loHeld := rfl
@[simp] theorem State.settle_loHeld : s.settle.loHeld = s.loHeld := rfl
@[simp] theorem State.setPrt_loHeld : (s.setPrt n pt).loHeld = s.loHeld := rfl
@[simp] theorem State.setTile_loHeld : (s.setTile n tl).loHeld = s.loHeld := rfl
@[simp] theorem State.incr_loHeld : (s.incr off).loHeld = s.loHeld := congrArg (·.loHeld) (s.incr_eq off)
@[simp] theorem State.setBank_loHeld : (s.setBank n bk).loHeld = s.loHeld := rfl
@[simp] theorem State.setVb_loHeld : (s.setVb n by_).loHeld = s.loHeld := rfl
@[simp] theorem State.dropShadow_loHeld : (s.dropShadow off).loHeld = s.loHeld := rfl
@[simp] theorem State.setShadow_loHeld : (s.setShadow off w).loHeld = s.loHeld := rfl
@[simp] theorem State.tick_loHeld : (s.tick n).loHeld = s.loHeld := congrArg (·.loHeld) (s.tick_eq n)
@[simp] theorem State.setPll_loHeld : (s.setPll n pl).loHeld = s.loHeld := rfl
@[simp] theorem State.setFlw_loHeld : (s.setFlw n fl).loHeld = s.loHeld := rfl
@[simp] theorem State.setFld_loHeld : (s.setFld off hi lo x).loHeld = s.loHeld := rfl
@[simp] theorem State.setReg_loHeld : (s.setReg off w).loHeld = s.loHeld := rfl

/-! ### `hiSnap` -/

@[simp] theorem State.settle_hiSnap : s.settle.hiSnap = s.hiSnap := rfl
@[simp] theorem State.setPrt_hiSnap : (s.setPrt n pt).hiSnap = s.hiSnap := rfl
@[simp] theorem State.setTile_hiSnap : (s.setTile n tl).hiSnap = s.hiSnap := rfl
@[simp] theorem State.incr_hiSnap : (s.incr off).hiSnap = s.hiSnap := congrArg (·.hiSnap) (s.incr_eq off)
@[simp] theorem State.setBank_hiSnap : (s.setBank n bk).hiSnap = s.hiSnap := rfl
@[simp] theorem State.setVb_hiSnap : (s.setVb n by_).hiSnap = s.hiSnap := rfl
@[simp] theorem State.dropShadow_hiSnap : (s.dropShadow off).hiSnap = s.hiSnap := rfl
@[simp] theorem State.setShadow_hiSnap : (s.setShadow off w).hiSnap = s.hiSnap := rfl
@[simp] theorem State.tick_hiSnap : (s.tick n).hiSnap = s.hiSnap := congrArg (·.hiSnap) (s.tick_eq n)
@[simp] theorem State.setPll_hiSnap : (s.setPll n pl).hiSnap = s.hiSnap := rfl
@[simp] theorem State.setFlw_hiSnap : (s.setFlw n fl).hiSnap = s.hiSnap := rfl
@[simp] theorem State.setFld_hiSnap : (s.setFld off hi lo x).hiSnap = s.hiSnap := rfl
@[simp] theorem State.setReg_hiSnap : (s.setReg off w).hiSnap = s.hiSnap := rfl
@[simp] theorem State.setRn_hiSnap : (s.setRn off x).hiSnap = s.hiSnap := rfl
@[simp] theorem State.drawn_hiSnap : s.drawn.hiSnap = s.hiSnap := rfl
@[simp] theorem State.setCv_hiSnap : (s.setCv n cv).hiSnap = s.hiSnap := rfl
@[simp] theorem State.setLay_hiSnap : (s.setLay n ly).hiSnap = s.hiSnap := rfl
@[simp] theorem State.setBitIf_hiSnap : (s.setBitIf c off x).hiSnap = s.hiSnap := congrArg (·.hiSnap) (s.setBitIf_eq off x c)
@[simp] theorem State.setBit_hiSnap : (s.setBit off x).hiSnap = s.hiSnap := rfl
@[simp] theorem State.clrBit_hiSnap : (s.clrBit off x).hiSnap = s.hiSnap := rfl

/-! ### `testCtl` -/

@[simp] theorem State.setShadow_testCtl : (s.setShadow off w).testCtl = s.testCtl := rfl
@[simp] theorem State.tick_testCtl : (s.tick n).testCtl = s.testCtl := congrArg (·.testCtl) (s.tick_eq n)
@[simp] theorem State.setPll_testCtl : (s.setPll n pl).testCtl = s.testCtl := rfl
@[simp] theorem State.setFlw_testCtl : (s.setFlw n fl).testCtl = s.testCtl := rfl
@[simp] theorem State.setFld_testCtl : (s.setFld off hi lo x).testCtl = s.testCtl := rfl
@[simp] theorem State.setReg_testCtl : (s.setReg off w).testCtl = s.testCtl := rfl
@[simp] theorem State.setRn_testCtl : (s.setRn off x).testCtl = s.testCtl := rfl
@[simp] theorem State.drawn_testCtl : s.drawn.testCtl = s.testCtl := rfl
@[simp] theorem State.setCv_testCtl : (s.setCv n cv).testCtl = s.testCtl := rfl
@[simp] theorem State.setLay_testCtl : (s.setLay n ly).testCtl = s.testCtl := rfl
@[simp] theorem State.setBitIf_testCtl : (s.setBitIf c off x).testCtl = s.testCtl := congrArg (·.testCtl) (s.setBitIf_eq off x c)
@[simp] theorem State.setBit_testCtl : (s.setBit off x).testCtl = s.testCtl := rfl
@[simp] theorem State.clrBit_testCtl : (s.clrBit off x).testCtl = s.testCtl := rfl
@[simp] theorem State.settle_testCtl : s.settle.testCtl = s.testCtl := rfl
@[simp] theorem State.setPrt_testCtl : (s.setPrt n pt).testCtl = s.testCtl := rfl
@[simp] theorem State.setTile_testCtl : (s.setTile n tl).testCtl = s.testCtl := rfl
@[simp] theorem State.incr_testCtl : (s.incr off).testCtl = s.testCtl := congrArg (·.testCtl) (s.incr_eq off)
@[simp] theorem State.setBank_testCtl : (s.setBank n bk).testCtl = s.testCtl := rfl
@[simp] theorem State.setVb_testCtl : (s.setVb n by_).testCtl = s.testCtl := rfl
@[simp] theorem State.dropShadow_testCtl : (s.dropShadow off).testCtl = s.testCtl := rfl

/-! ### `coef` -/

@[simp] theorem State.drawn_coef : s.drawn.coef = s.coef := rfl
@[simp] theorem State.setCv_coef : (s.setCv n cv).coef = s.coef := rfl
@[simp] theorem State.setLay_coef : (s.setLay n ly).coef = s.coef := rfl
@[simp] theorem State.setBitIf_coef : (s.setBitIf c off x).coef = s.coef := congrArg (·.coef) (s.setBitIf_eq off x c)
@[simp] theorem State.setBit_coef : (s.setBit off x).coef = s.coef := rfl
@[simp] theorem State.clrBit_coef : (s.clrBit off x).coef = s.coef := rfl
@[simp] theorem State.settle_coef : s.settle.coef = s.coef := rfl
@[simp] theorem State.setPrt_coef : (s.setPrt n pt).coef = s.coef := rfl
@[simp] theorem State.setTile_coef : (s.setTile n tl).coef = s.coef := rfl
@[simp] theorem State.incr_coef : (s.incr off).coef = s.coef := congrArg (·.coef) (s.incr_eq off)
@[simp] theorem State.setBank_coef : (s.setBank n bk).coef = s.coef := rfl
@[simp] theorem State.setVb_coef : (s.setVb n by_).coef = s.coef := rfl
@[simp] theorem State.dropShadow_coef : (s.dropShadow off).coef = s.coef := rfl
@[simp] theorem State.setShadow_coef : (s.setShadow off w).coef = s.coef := rfl
@[simp] theorem State.tick_coef : (s.tick n).coef = s.coef := congrArg (·.coef) (s.tick_eq n)
@[simp] theorem State.setPll_coef : (s.setPll n pl).coef = s.coef := rfl
@[simp] theorem State.setFlw_coef : (s.setFlw n fl).coef = s.coef := rfl
@[simp] theorem State.setFld_coef : (s.setFld off hi lo x).coef = s.coef := rfl
@[simp] theorem State.setReg_coef : (s.setReg off w).coef = s.coef := rfl
@[simp] theorem State.setRn_coef : (s.setRn off x).coef = s.coef := rfl

/-! ### `tone` -/

@[simp] theorem State.setPrt_tone : (s.setPrt n pt).tone = s.tone := rfl
@[simp] theorem State.setTile_tone : (s.setTile n tl).tone = s.tone := rfl
@[simp] theorem State.incr_tone : (s.incr off).tone = s.tone := congrArg (·.tone) (s.incr_eq off)
@[simp] theorem State.setBank_tone : (s.setBank n bk).tone = s.tone := rfl
@[simp] theorem State.setVb_tone : (s.setVb n by_).tone = s.tone := rfl
@[simp] theorem State.dropShadow_tone : (s.dropShadow off).tone = s.tone := rfl
@[simp] theorem State.setShadow_tone : (s.setShadow off w).tone = s.tone := rfl
@[simp] theorem State.tick_tone : (s.tick n).tone = s.tone := congrArg (·.tone) (s.tick_eq n)
@[simp] theorem State.setPll_tone : (s.setPll n pl).tone = s.tone := rfl
@[simp] theorem State.setFlw_tone : (s.setFlw n fl).tone = s.tone := rfl
@[simp] theorem State.setFld_tone : (s.setFld off hi lo x).tone = s.tone := rfl
@[simp] theorem State.setReg_tone : (s.setReg off w).tone = s.tone := rfl
@[simp] theorem State.setRn_tone : (s.setRn off x).tone = s.tone := rfl
@[simp] theorem State.drawn_tone : s.drawn.tone = s.tone := rfl
@[simp] theorem State.setCv_tone : (s.setCv n cv).tone = s.tone := rfl
@[simp] theorem State.setLay_tone : (s.setLay n ly).tone = s.tone := rfl
@[simp] theorem State.setBitIf_tone : (s.setBitIf c off x).tone = s.tone := congrArg (·.tone) (s.setBitIf_eq off x c)
@[simp] theorem State.setBit_tone : (s.setBit off x).tone = s.tone := rfl
@[simp] theorem State.clrBit_tone : (s.clrBit off x).tone = s.tone := rfl
@[simp] theorem State.settle_tone : s.settle.tone = s.tone := rfl

/-! ### `lut` -/

@[simp] theorem State.tick_lut : (s.tick n).lut = s.lut := congrArg (·.lut) (s.tick_eq n)
@[simp] theorem State.setPll_lut : (s.setPll n pl).lut = s.lut := rfl
@[simp] theorem State.setFlw_lut : (s.setFlw n fl).lut = s.lut := rfl
@[simp] theorem State.setFld_lut : (s.setFld off hi lo x).lut = s.lut := rfl
@[simp] theorem State.setReg_lut : (s.setReg off w).lut = s.lut := rfl
@[simp] theorem State.setRn_lut : (s.setRn off x).lut = s.lut := rfl
@[simp] theorem State.drawn_lut : s.drawn.lut = s.lut := rfl
@[simp] theorem State.setCv_lut : (s.setCv n cv).lut = s.lut := rfl
@[simp] theorem State.setLay_lut : (s.setLay n ly).lut = s.lut := rfl
@[simp] theorem State.setBitIf_lut : (s.setBitIf c off x).lut = s.lut := congrArg (·.lut) (s.setBitIf_eq off x c)
@[simp] theorem State.setBit_lut : (s.setBit off x).lut = s.lut := rfl
@[simp] theorem State.clrBit_lut : (s.clrBit off x).lut = s.lut := rfl
@[simp] theorem State.settle_lut : s.settle.lut = s.lut := rfl
@[simp] theorem State.setPrt_lut : (s.setPrt n pt).lut = s.lut := rfl
@[simp] theorem State.setTile_lut : (s.setTile n tl).lut = s.lut := rfl
@[simp] theorem State.incr_lut : (s.incr off).lut = s.lut := congrArg (·.lut) (s.incr_eq off)
@[simp] theorem State.setBank_lut : (s.setBank n bk).lut = s.lut := rfl
@[simp] theorem State.setVb_lut : (s.setVb n by_).lut = s.lut := rfl
@[simp] theorem State.dropShadow_lut : (s.dropShadow off).lut = s.lut := rfl
@[simp] theorem State.setShadow_lut : (s.setShadow off w).lut = s.lut := rfl

/-! ### `sched` -/

@[simp] theorem State.setCv_sched : (s.setCv n cv).sched = s.sched := rfl
@[simp] theorem State.setLay_sched : (s.setLay n ly).sched = s.sched := rfl
@[simp] theorem State.setBitIf_sched : (s.setBitIf c off x).sched = s.sched := congrArg (·.sched) (s.setBitIf_eq off x c)
@[simp] theorem State.setBit_sched : (s.setBit off x).sched = s.sched := rfl
@[simp] theorem State.clrBit_sched : (s.clrBit off x).sched = s.sched := rfl
@[simp] theorem State.settle_sched : s.settle.sched = s.sched := rfl
@[simp] theorem State.setPrt_sched : (s.setPrt n pt).sched = s.sched := rfl
@[simp] theorem State.setTile_sched : (s.setTile n tl).sched = s.sched := rfl
@[simp] theorem State.incr_sched : (s.incr off).sched = s.sched := congrArg (·.sched) (s.incr_eq off)
@[simp] theorem State.setBank_sched : (s.setBank n bk).sched = s.sched := rfl
@[simp] theorem State.setVb_sched : (s.setVb n by_).sched = s.sched := rfl
@[simp] theorem State.dropShadow_sched : (s.dropShadow off).sched = s.sched := rfl
@[simp] theorem State.setShadow_sched : (s.setShadow off w).sched = s.sched := rfl
@[simp] theorem State.tick_sched : (s.tick n).sched = s.sched := congrArg (·.sched) (s.tick_eq n)
@[simp] theorem State.setPll_sched : (s.setPll n pl).sched = s.sched := rfl
@[simp] theorem State.setFlw_sched : (s.setFlw n fl).sched = s.sched := rfl
@[simp] theorem State.setFld_sched : (s.setFld off hi lo x).sched = s.sched := rfl
@[simp] theorem State.setReg_sched : (s.setReg off w).sched = s.sched := rfl
@[simp] theorem State.setRn_sched : (s.setRn off x).sched = s.sched := rfl
@[simp] theorem State.drawn_sched : s.drawn.sched = s.sched := rfl

/-! ### `schedSh` -/

@[simp] theorem State.setTile_schedSh : (s.setTile n tl).schedSh = s.schedSh := rfl
@[simp] theorem State.incr_schedSh : (s.incr off).schedSh = s.schedSh := congrArg (·.schedSh) (s.incr_eq off)
@[simp] theorem State.setBank_schedSh : (s.setBank n bk).schedSh = s.schedSh := rfl
@[simp] theorem State.setVb_schedSh : (s.setVb n by_).schedSh = s.schedSh := rfl
@[simp] theorem State.dropShadow_schedSh : (s.dropShadow off).schedSh = s.schedSh := rfl
@[simp] theorem State.setShadow_schedSh : (s.setShadow off w).schedSh = s.schedSh := rfl
@[simp] theorem State.tick_schedSh : (s.tick n).schedSh = s.schedSh := congrArg (·.schedSh) (s.tick_eq n)
@[simp] theorem State.setPll_schedSh : (s.setPll n pl).schedSh = s.schedSh := rfl
@[simp] theorem State.setFlw_schedSh : (s.setFlw n fl).schedSh = s.schedSh := rfl
@[simp] theorem State.setFld_schedSh : (s.setFld off hi lo x).schedSh = s.schedSh := rfl
@[simp] theorem State.setReg_schedSh : (s.setReg off w).schedSh = s.schedSh := rfl
@[simp] theorem State.setRn_schedSh : (s.setRn off x).schedSh = s.schedSh := rfl
@[simp] theorem State.drawn_schedSh : s.drawn.schedSh = s.schedSh := rfl
@[simp] theorem State.setCv_schedSh : (s.setCv n cv).schedSh = s.schedSh := rfl
@[simp] theorem State.setLay_schedSh : (s.setLay n ly).schedSh = s.schedSh := rfl
@[simp] theorem State.setBitIf_schedSh : (s.setBitIf c off x).schedSh = s.schedSh := congrArg (·.schedSh) (s.setBitIf_eq off x c)
@[simp] theorem State.setBit_schedSh : (s.setBit off x).schedSh = s.schedSh := rfl
@[simp] theorem State.clrBit_schedSh : (s.clrBit off x).schedSh = s.schedSh := rfl
@[simp] theorem State.settle_schedSh : s.settle.schedSh = s.schedSh := rfl
@[simp] theorem State.setPrt_schedSh : (s.setPrt n pt).schedSh = s.schedSh := rfl

/-! ### `shapers` -/

@[simp] theorem State.setPll_shapers : (s.setPll n pl).shapers = s.shapers := rfl
@[simp] theorem State.setFlw_shapers : (s.setFlw n fl).shapers = s.shapers := rfl
@[simp] theorem State.setFld_shapers : (s.setFld off hi lo x).shapers = s.shapers := rfl
@[simp] theorem State.setReg_shapers : (s.setReg off w).shapers = s.shapers := rfl
@[simp] theorem State.setRn_shapers : (s.setRn off x).shapers = s.shapers := rfl
@[simp] theorem State.drawn_shapers : s.drawn.shapers = s.shapers := rfl
@[simp] theorem State.setCv_shapers : (s.setCv n cv).shapers = s.shapers := rfl
@[simp] theorem State.setLay_shapers : (s.setLay n ly).shapers = s.shapers := rfl
@[simp] theorem State.setBitIf_shapers : (s.setBitIf c off x).shapers = s.shapers := congrArg (·.shapers) (s.setBitIf_eq off x c)
@[simp] theorem State.setBit_shapers : (s.setBit off x).shapers = s.shapers := rfl
@[simp] theorem State.clrBit_shapers : (s.clrBit off x).shapers = s.shapers := rfl
@[simp] theorem State.settle_shapers : s.settle.shapers = s.shapers := rfl
@[simp] theorem State.setPrt_shapers : (s.setPrt n pt).shapers = s.shapers := rfl
@[simp] theorem State.setTile_shapers : (s.setTile n tl).shapers = s.shapers := rfl
@[simp] theorem State.incr_shapers : (s.incr off).shapers = s.shapers := congrArg (·.shapers) (s.incr_eq off)
@[simp] theorem State.setBank_shapers : (s.setBank n bk).shapers = s.shapers := rfl
@[simp] theorem State.setVb_shapers : (s.setVb n by_).shapers = s.shapers := rfl
@[simp] theorem State.dropShadow_shapers : (s.dropShadow off).shapers = s.shapers := rfl
@[simp] theorem State.setShadow_shapers : (s.setShadow off w).shapers = s.shapers := rfl
@[simp] theorem State.tick_shapers : (s.tick n).shapers = s.shapers := congrArg (·.shapers) (s.tick_eq n)

/-! ### `shaperSh` -/

@[simp] theorem State.setLay_shaperSh : (s.setLay n ly).shaperSh = s.shaperSh := rfl
@[simp] theorem State.setBitIf_shaperSh : (s.setBitIf c off x).shaperSh = s.shaperSh := congrArg (·.shaperSh) (s.setBitIf_eq off x c)
@[simp] theorem State.setBit_shaperSh : (s.setBit off x).shaperSh = s.shaperSh := rfl
@[simp] theorem State.clrBit_shaperSh : (s.clrBit off x).shaperSh = s.shaperSh := rfl
@[simp] theorem State.settle_shaperSh : s.settle.shaperSh = s.shaperSh := rfl
@[simp] theorem State.setPrt_shaperSh : (s.setPrt n pt).shaperSh = s.shaperSh := rfl
@[simp] theorem State.setTile_shaperSh : (s.setTile n tl).shaperSh = s.shaperSh := rfl
@[simp] theorem State.incr_shaperSh : (s.incr off).shaperSh = s.shaperSh := congrArg (·.shaperSh) (s.incr_eq off)
@[simp] theorem State.setBank_shaperSh : (s.setBank n bk).shaperSh = s.shaperSh := rfl
@[simp] theorem State.setVb_shaperSh : (s.setVb n by_).shaperSh = s.shaperSh := rfl
@[simp] theorem State.dropShadow_shaperSh : (s.dropShadow off).shaperSh = s.shaperSh := rfl
@[simp] theorem State.setShadow_shaperSh : (s.setShadow off w).shaperSh = s.shaperSh := rfl
@[simp] theorem State.tick_shaperSh : (s.tick n).shaperSh = s.shaperSh := congrArg (·.shaperSh) (s.tick_eq n)
@[simp] theorem State.setPll_shaperSh : (s.setPll n pl).shaperSh = s.shaperSh := rfl
@[simp] theorem State.setFlw_shaperSh : (s.setFlw n fl).shaperSh = s.shaperSh := rfl
@[simp] theorem State.setFld_shaperSh : (s.setFld off hi lo x).shaperSh = s.shaperSh := rfl
@[simp] theorem State.setReg_shaperSh : (s.setReg off w).shaperSh = s.shaperSh := rfl
@[simp] theorem State.setRn_shaperSh : (s.setRn off x).shaperSh = s.shaperSh := rfl
@[simp] theorem State.drawn_shaperSh : s.drawn.shaperSh = s.shaperSh := rfl
@[simp] theorem State.setCv_shaperSh : (s.setCv n cv).shaperSh = s.shaperSh := rfl

/-! ### `latch` -/

@[simp] theorem State.incr_latch : (s.incr off).latch = s.latch := congrArg (·.latch) (s.incr_eq off)
@[simp] theorem State.setBank_latch : (s.setBank n bk).latch = s.latch := rfl
@[simp] theorem State.setVb_latch : (s.setVb n by_).latch = s.latch := rfl
@[simp] theorem State.dropShadow_latch : (s.dropShadow off).latch = s.latch := rfl
@[simp] theorem State.setShadow_latch : (s.setShadow off w).latch = s.latch := rfl
@[simp] theorem State.tick_latch : (s.tick n).latch = s.latch := congrArg (·.latch) (s.tick_eq n)
@[simp] theorem State.setPll_latch : (s.setPll n pl).latch = s.latch := rfl
@[simp] theorem State.setFlw_latch : (s.setFlw n fl).latch = s.latch := rfl
@[simp] theorem State.setFld_latch : (s.setFld off hi lo x).latch = s.latch := rfl
@[simp] theorem State.setReg_latch : (s.setReg off w).latch = s.latch := rfl
@[simp] theorem State.setRn_latch : (s.setRn off x).latch = s.latch := rfl
@[simp] theorem State.drawn_latch : s.drawn.latch = s.latch := rfl
@[simp] theorem State.setCv_latch : (s.setCv n cv).latch = s.latch := rfl
@[simp] theorem State.setLay_latch : (s.setLay n ly).latch = s.latch := rfl
@[simp] theorem State.setBitIf_latch : (s.setBitIf c off x).latch = s.latch := congrArg (·.latch) (s.setBitIf_eq off x c)
@[simp] theorem State.setBit_latch : (s.setBit off x).latch = s.latch := rfl
@[simp] theorem State.clrBit_latch : (s.clrBit off x).latch = s.latch := rfl
@[simp] theorem State.settle_latch : s.settle.latch = s.latch := rfl
@[simp] theorem State.setPrt_latch : (s.setPrt n pt).latch = s.latch := rfl
@[simp] theorem State.setTile_latch : (s.setTile n tl).latch = s.latch := rfl

/-! ### `ward` -/

@[simp] theorem State.setFlw_ward : (s.setFlw n fl).ward = s.ward := rfl
@[simp] theorem State.setFld_ward : (s.setFld off hi lo x).ward = s.ward := rfl
@[simp] theorem State.setReg_ward : (s.setReg off w).ward = s.ward := rfl
@[simp] theorem State.setRn_ward : (s.setRn off x).ward = s.ward := rfl
@[simp] theorem State.drawn_ward : s.drawn.ward = s.ward := rfl
@[simp] theorem State.setCv_ward : (s.setCv n cv).ward = s.ward := rfl
@[simp] theorem State.setLay_ward : (s.setLay n ly).ward = s.ward := rfl
@[simp] theorem State.setBitIf_ward : (s.setBitIf c off x).ward = s.ward := congrArg (·.ward) (s.setBitIf_eq off x c)
@[simp] theorem State.setBit_ward : (s.setBit off x).ward = s.ward := rfl
@[simp] theorem State.clrBit_ward : (s.clrBit off x).ward = s.ward := rfl
@[simp] theorem State.settle_ward : s.settle.ward = s.ward := rfl
@[simp] theorem State.setPrt_ward : (s.setPrt n pt).ward = s.ward := rfl
@[simp] theorem State.setTile_ward : (s.setTile n tl).ward = s.ward := rfl
@[simp] theorem State.incr_ward : (s.incr off).ward = s.ward := congrArg (·.ward) (s.incr_eq off)
@[simp] theorem State.setBank_ward : (s.setBank n bk).ward = s.ward := rfl
@[simp] theorem State.setVb_ward : (s.setVb n by_).ward = s.ward := rfl
@[simp] theorem State.dropShadow_ward : (s.dropShadow off).ward = s.ward := rfl
@[simp] theorem State.setShadow_ward : (s.setShadow off w).ward = s.ward := rfl
@[simp] theorem State.tick_ward : (s.tick n).ward = s.ward := congrArg (·.ward) (s.tick_eq n)
@[simp] theorem State.setPll_ward : (s.setPll n pl).ward = s.ward := rfl

/-! ### `canvases` -/

@[simp] theorem State.setBitIf_canvases : (s.setBitIf c off x).canvases = s.canvases := congrArg (·.canvases) (s.setBitIf_eq off x c)
@[simp] theorem State.setBit_canvases : (s.setBit off x).canvases = s.canvases := rfl
@[simp] theorem State.clrBit_canvases : (s.clrBit off x).canvases = s.canvases := rfl
@[simp] theorem State.settle_canvases : s.settle.canvases = s.canvases := rfl
@[simp] theorem State.setPrt_canvases : (s.setPrt n pt).canvases = s.canvases := rfl
@[simp] theorem State.setTile_canvases : (s.setTile n tl).canvases = s.canvases := rfl
@[simp] theorem State.incr_canvases : (s.incr off).canvases = s.canvases := congrArg (·.canvases) (s.incr_eq off)
@[simp] theorem State.setBank_canvases : (s.setBank n bk).canvases = s.canvases := rfl
@[simp] theorem State.setVb_canvases : (s.setVb n by_).canvases = s.canvases := rfl
@[simp] theorem State.dropShadow_canvases : (s.dropShadow off).canvases = s.canvases := rfl
@[simp] theorem State.setShadow_canvases : (s.setShadow off w).canvases = s.canvases := rfl
@[simp] theorem State.tick_canvases : (s.tick n).canvases = s.canvases := congrArg (·.canvases) (s.tick_eq n)
@[simp] theorem State.setPll_canvases : (s.setPll n pl).canvases = s.canvases := rfl
@[simp] theorem State.setFlw_canvases : (s.setFlw n fl).canvases = s.canvases := rfl
@[simp] theorem State.setFld_canvases : (s.setFld off hi lo x).canvases = s.canvases := rfl
@[simp] theorem State.setReg_canvases : (s.setReg off w).canvases = s.canvases := rfl
@[simp] theorem State.setRn_canvases : (s.setRn off x).canvases = s.canvases := rfl
@[simp] theorem State.drawn_canvases : s.drawn.canvases = s.canvases := rfl
@[simp] theorem State.setCv_canvases : (s.setCv n cv).canvases = mset s.canvases n {} cv := rfl
@[simp] theorem State.setLay_canvases : (s.setLay n ly).canvases = s.canvases := rfl

/-! ### `layers` -/

@[simp] theorem State.setBank_layers : (s.setBank n bk).layers = s.layers := rfl
@[simp] theorem State.setVb_layers : (s.setVb n by_).layers = s.layers := rfl
@[simp] theorem State.dropShadow_layers : (s.dropShadow off).layers = s.layers := rfl
@[simp] theorem State.setShadow_layers : (s.setShadow off w).layers = s.layers := rfl
@[simp] theorem State.tick_layers : (s.tick n).layers = s.layers := congrArg (·.layers) (s.tick_eq n)
@[simp] theorem State.setPll_layers : (s.setPll n pl).layers = s.layers := rfl
@[simp] theorem State.setFlw_layers : (s.setFlw n fl).layers = s.layers := rfl
@[simp] theorem State.setFld_layers : (s.setFld off hi lo x).layers = s.layers := rfl
@[simp] theorem State.setReg_layers : (s.setReg off w).layers = s.layers := rfl
@[simp] theorem State.setRn_layers : (s.setRn off x).layers = s.layers := rfl
@[simp] theorem State.drawn_layers : s.drawn.layers = s.layers := rfl
@[simp] theorem State.setCv_layers : (s.setCv n cv).layers = s.layers := rfl
@[simp] theorem State.setLay_layers : (s.setLay n ly).layers = mset s.layers n {} ly := rfl
@[simp] theorem State.setBitIf_layers : (s.setBitIf c off x).layers = s.layers := congrArg (·.layers) (s.setBitIf_eq off x c)
@[simp] theorem State.setBit_layers : (s.setBit off x).layers = s.layers := rfl
@[simp] theorem State.clrBit_layers : (s.clrBit off x).layers = s.layers := rfl
@[simp] theorem State.settle_layers : s.settle.layers = s.layers := rfl
@[simp] theorem State.setPrt_layers : (s.setPrt n pt).layers = s.layers := rfl
@[simp] theorem State.setTile_layers : (s.setTile n tl).layers = s.layers := rfl
@[simp] theorem State.incr_layers : (s.incr off).layers = s.layers := congrArg (·.layers) (s.incr_eq off)

/-! ### `vault` -/

@[simp] theorem State.setFld_vault : (s.setFld off hi lo x).vault = s.vault := rfl
@[simp] theorem State.setReg_vault : (s.setReg off w).vault = s.vault := rfl
@[simp] theorem State.setRn_vault : (s.setRn off x).vault = s.vault := rfl
@[simp] theorem State.drawn_vault : s.drawn.vault = s.vault := rfl
@[simp] theorem State.setCv_vault : (s.setCv n cv).vault = s.vault := rfl
@[simp] theorem State.setLay_vault : (s.setLay n ly).vault = s.vault := rfl
@[simp] theorem State.setBitIf_vault : (s.setBitIf c off x).vault = s.vault := congrArg (·.vault) (s.setBitIf_eq off x c)
@[simp] theorem State.setBit_vault : (s.setBit off x).vault = s.vault := rfl
@[simp] theorem State.clrBit_vault : (s.clrBit off x).vault = s.vault := rfl
@[simp] theorem State.settle_vault : s.settle.vault = s.vault := rfl
@[simp] theorem State.setPrt_vault : (s.setPrt n pt).vault = s.vault := rfl
@[simp] theorem State.setTile_vault : (s.setTile n tl).vault = s.vault := rfl
@[simp] theorem State.incr_vault : (s.incr off).vault = s.vault := congrArg (·.vault) (s.incr_eq off)
@[simp] theorem State.setVb_bytes : (s.setVb n by_).vault.bytes = mset s.vault.bytes n 0 by_ := rfl
@[simp] theorem State.dropShadow_vault : (s.dropShadow off).vault = s.vault := rfl
@[simp] theorem State.setShadow_vault : (s.setShadow off w).vault = s.vault := rfl
@[simp] theorem State.tick_vault : (s.tick n).vault = s.vault := congrArg (·.vault) (s.tick_eq n)
@[simp] theorem State.setPll_vault : (s.setPll n pl).vault = s.vault := rfl
@[simp] theorem State.setFlw_vault : (s.setFlw n fl).vault = s.vault := rfl

/-! ### `lamp` -/

@[simp] theorem State.setBit_lamp : (s.setBit off x).lamp = s.lamp := rfl
@[simp] theorem State.clrBit_lamp : (s.clrBit off x).lamp = s.lamp := rfl
@[simp] theorem State.settle_lamp : s.settle.lamp = s.lamp := rfl
@[simp] theorem State.setPrt_lamp : (s.setPrt n pt).lamp = s.lamp := rfl
@[simp] theorem State.setTile_lamp : (s.setTile n tl).lamp = s.lamp := rfl
@[simp] theorem State.incr_lamp : (s.incr off).lamp = s.lamp := congrArg (·.lamp) (s.incr_eq off)
@[simp] theorem State.setBank_lamp : (s.setBank n bk).lamp = s.lamp := rfl
@[simp] theorem State.setVb_lamp : (s.setVb n by_).lamp = s.lamp := rfl
@[simp] theorem State.dropShadow_lamp : (s.dropShadow off).lamp = s.lamp := rfl
@[simp] theorem State.setShadow_lamp : (s.setShadow off w).lamp = s.lamp := rfl
@[simp] theorem State.tick_lamp : (s.tick n).lamp = s.lamp := congrArg (·.lamp) (s.tick_eq n)
@[simp] theorem State.setPll_lamp : (s.setPll n pl).lamp = s.lamp := rfl
@[simp] theorem State.setFlw_lamp : (s.setFlw n fl).lamp = s.lamp := rfl
@[simp] theorem State.setFld_lamp : (s.setFld off hi lo x).lamp = s.lamp := rfl
@[simp] theorem State.setReg_lamp : (s.setReg off w).lamp = s.lamp := rfl
@[simp] theorem State.setRn_lamp : (s.setRn off x).lamp = s.lamp := rfl
@[simp] theorem State.drawn_lamp : s.drawn.lamp = s.lamp := rfl
@[simp] theorem State.setCv_lamp : (s.setCv n cv).lamp = s.lamp := rfl
@[simp] theorem State.setLay_lamp : (s.setLay n ly).lamp = s.lamp := rfl
@[simp] theorem State.setBitIf_lamp : (s.setBitIf c off x).lamp = s.lamp := congrArg (·.lamp) (s.setBitIf_eq off x c)

/-! ### `ports` -/

@[simp] theorem State.setVb_ports : (s.setVb n by_).ports = s.ports := rfl
@[simp] theorem State.dropShadow_ports : (s.dropShadow off).ports = s.ports := rfl
@[simp] theorem State.setShadow_ports : (s.setShadow off w).ports = s.ports := rfl
@[simp] theorem State.tick_ports : (s.tick n).ports = s.ports := congrArg (·.ports) (s.tick_eq n)
@[simp] theorem State.setPll_ports : (s.setPll n pl).ports = s.ports := rfl
@[simp] theorem State.setFlw_ports : (s.setFlw n fl).ports = s.ports := rfl
@[simp] theorem State.setFld_ports : (s.setFld off hi lo x).ports = s.ports := rfl
@[simp] theorem State.setReg_ports : (s.setReg off w).ports = s.ports := rfl
@[simp] theorem State.setRn_ports : (s.setRn off x).ports = s.ports := rfl
@[simp] theorem State.drawn_ports : s.drawn.ports = s.ports := rfl
@[simp] theorem State.setCv_ports : (s.setCv n cv).ports = s.ports := rfl
@[simp] theorem State.setLay_ports : (s.setLay n ly).ports = s.ports := rfl
@[simp] theorem State.setBitIf_ports : (s.setBitIf c off x).ports = s.ports := congrArg (·.ports) (s.setBitIf_eq off x c)
@[simp] theorem State.setBit_ports : (s.setBit off x).ports = s.ports := rfl
@[simp] theorem State.clrBit_ports : (s.clrBit off x).ports = s.ports := rfl
@[simp] theorem State.settle_ports : s.settle.ports = s.ports := rfl
@[simp] theorem State.setPrt_ports : (s.setPrt n pt).ports = mset s.ports n {} pt := rfl
@[simp] theorem State.setTile_ports : (s.setTile n tl).ports = s.ports := rfl
@[simp] theorem State.incr_ports : (s.incr off).ports = s.ports := congrArg (·.ports) (s.incr_eq off)
@[simp] theorem State.setBank_ports : (s.setBank n bk).ports = s.ports := rfl

/-! ### `tiles` -/

@[simp] theorem State.setReg_tiles : (s.setReg off w).tiles = s.tiles := rfl
@[simp] theorem State.setRn_tiles : (s.setRn off x).tiles = s.tiles := rfl
@[simp] theorem State.drawn_tiles : s.drawn.tiles = s.tiles := rfl
@[simp] theorem State.setCv_tiles : (s.setCv n cv).tiles = s.tiles := rfl
@[simp] theorem State.setLay_tiles : (s.setLay n ly).tiles = s.tiles := rfl
@[simp] theorem State.setBitIf_tiles : (s.setBitIf c off x).tiles = s.tiles := congrArg (·.tiles) (s.setBitIf_eq off x c)
@[simp] theorem State.setBit_tiles : (s.setBit off x).tiles = s.tiles := rfl
@[simp] theorem State.clrBit_tiles : (s.clrBit off x).tiles = s.tiles := rfl
@[simp] theorem State.settle_tiles : s.settle.tiles = s.tiles := rfl
@[simp] theorem State.setPrt_tiles : (s.setPrt n pt).tiles = s.tiles := rfl
@[simp] theorem State.setTile_tiles : (s.setTile n tl).tiles = mset s.tiles n {} tl := rfl
@[simp] theorem State.incr_tiles : (s.incr off).tiles = s.tiles := congrArg (·.tiles) (s.incr_eq off)
@[simp] theorem State.setBank_tiles : (s.setBank n bk).tiles = s.tiles := rfl
@[simp] theorem State.setVb_tiles : (s.setVb n by_).tiles = s.tiles := rfl
@[simp] theorem State.dropShadow_tiles : (s.dropShadow off).tiles = s.tiles := rfl
@[simp] theorem State.setShadow_tiles : (s.setShadow off w).tiles = s.tiles := rfl
@[simp] theorem State.tick_tiles : (s.tick n).tiles = s.tiles := congrArg (·.tiles) (s.tick_eq n)
@[simp] theorem State.setPll_tiles : (s.setPll n pl).tiles = s.tiles := rfl
@[simp] theorem State.setFlw_tiles : (s.setFlw n fl).tiles = s.tiles := rfl
@[simp] theorem State.setFld_tiles : (s.setFld off hi lo x).tiles = s.tiles := rfl

/-! ### `announced` -/

@[simp] theorem State.clrBit_announced : (s.clrBit off x).announced = s.announced := rfl
@[simp] theorem State.settle_announced : s.settle.announced = s.announced := rfl
@[simp] theorem State.setPrt_announced : (s.setPrt n pt).announced = s.announced := rfl
@[simp] theorem State.setTile_announced : (s.setTile n tl).announced = s.announced := rfl
@[simp] theorem State.incr_announced : (s.incr off).announced = s.announced := congrArg (·.announced) (s.incr_eq off)
@[simp] theorem State.setBank_announced : (s.setBank n bk).announced = s.announced := rfl
@[simp] theorem State.setVb_announced : (s.setVb n by_).announced = s.announced := rfl
@[simp] theorem State.dropShadow_announced : (s.dropShadow off).announced = s.announced := rfl
@[simp] theorem State.setShadow_announced : (s.setShadow off w).announced = s.announced := rfl
@[simp] theorem State.tick_announced : (s.tick n).announced = s.announced := congrArg (·.announced) (s.tick_eq n)
@[simp] theorem State.setPll_announced : (s.setPll n pl).announced = s.announced := rfl
@[simp] theorem State.setFlw_announced : (s.setFlw n fl).announced = s.announced := rfl
@[simp] theorem State.setFld_announced : (s.setFld off hi lo x).announced = s.announced := rfl
@[simp] theorem State.setReg_announced : (s.setReg off w).announced = s.announced := rfl
@[simp] theorem State.setRn_announced : (s.setRn off x).announced = s.announced := rfl
@[simp] theorem State.drawn_announced : s.drawn.announced = s.announced := rfl
@[simp] theorem State.setCv_announced : (s.setCv n cv).announced = s.announced := rfl
@[simp] theorem State.setLay_announced : (s.setLay n ly).announced = s.announced := rfl
@[simp] theorem State.setBitIf_announced : (s.setBitIf c off x).announced = s.announced := congrArg (·.announced) (s.setBitIf_eq off x c)
@[simp] theorem State.setBit_announced : (s.setBit off x).announced = s.announced := rfl

/-! ### `taccess` -/

@[simp] theorem State.dropShadow_taccess : (s.dropShadow off).taccess = s.taccess := rfl
@[simp] theorem State.setShadow_taccess : (s.setShadow off w).taccess = s.taccess := rfl
@[simp] theorem State.tick_taccess : (s.tick n).taccess = s.taccess := congrArg (·.taccess) (s.tick_eq n)
@[simp] theorem State.setPll_taccess : (s.setPll n pl).taccess = s.taccess := rfl
@[simp] theorem State.setFlw_taccess : (s.setFlw n fl).taccess = s.taccess := rfl
@[simp] theorem State.setFld_taccess : (s.setFld off hi lo x).taccess = s.taccess := rfl
@[simp] theorem State.setReg_taccess : (s.setReg off w).taccess = s.taccess := rfl
@[simp] theorem State.setRn_taccess : (s.setRn off x).taccess = s.taccess := rfl
@[simp] theorem State.drawn_taccess : s.drawn.taccess = s.taccess := rfl
@[simp] theorem State.setCv_taccess : (s.setCv n cv).taccess = s.taccess := rfl
@[simp] theorem State.setLay_taccess : (s.setLay n ly).taccess = s.taccess := rfl
@[simp] theorem State.setBitIf_taccess : (s.setBitIf c off x).taccess = s.taccess := congrArg (·.taccess) (s.setBitIf_eq off x c)
@[simp] theorem State.setBit_taccess : (s.setBit off x).taccess = s.taccess := rfl
@[simp] theorem State.clrBit_taccess : (s.clrBit off x).taccess = s.taccess := rfl
@[simp] theorem State.settle_taccess : s.settle.taccess = s.taccess := rfl
@[simp] theorem State.setPrt_taccess : (s.setPrt n pt).taccess = s.taccess := rfl
@[simp] theorem State.setTile_taccess : (s.setTile n tl).taccess = s.taccess := rfl
@[simp] theorem State.incr_taccess : (s.incr off).taccess = s.taccess := congrArg (·.taccess) (s.incr_eq off)
@[simp] theorem State.setBank_taccess : (s.setBank n bk).taccess = s.taccess := rfl
@[simp] theorem State.setVb_taccess : (s.setVb n by_).taccess = s.taccess := rfl

/-! ### `curves` -/

@[simp] theorem State.setRn_curves : (s.setRn off x).curves = s.curves := rfl
@[simp] theorem State.drawn_curves : s.drawn.curves = s.curves := rfl
@[simp] theorem State.setCv_curves : (s.setCv n cv).curves = s.curves := rfl
@[simp] theorem State.setLay_curves : (s.setLay n ly).curves = s.curves := rfl
@[simp] theorem State.setBitIf_curves : (s.setBitIf c off x).curves = s.curves := congrArg (·.curves) (s.setBitIf_eq off x c)
@[simp] theorem State.setBit_curves : (s.setBit off x).curves = s.curves := rfl
@[simp] theorem State.clrBit_curves : (s.clrBit off x).curves = s.curves := rfl
@[simp] theorem State.settle_curves : s.settle.curves = s.curves := rfl
@[simp] theorem State.setPrt_curves : (s.setPrt n pt).curves = s.curves := rfl
@[simp] theorem State.setTile_curves : (s.setTile n tl).curves = s.curves := rfl
@[simp] theorem State.incr_curves : (s.incr off).curves = s.curves := congrArg (·.curves) (s.incr_eq off)
@[simp] theorem State.setBank_curves : (s.setBank n bk).curves = s.curves := rfl
@[simp] theorem State.setVb_curves : (s.setVb n by_).curves = s.curves := rfl
@[simp] theorem State.dropShadow_curves : (s.dropShadow off).curves = s.curves := rfl
@[simp] theorem State.setShadow_curves : (s.setShadow off w).curves = s.curves := rfl
@[simp] theorem State.tick_curves : (s.tick n).curves = s.curves := congrArg (·.curves) (s.tick_eq n)
@[simp] theorem State.setPll_curves : (s.setPll n pl).curves = s.curves := rfl
@[simp] theorem State.setFlw_curves : (s.setFlw n fl).curves = s.curves := rfl
@[simp] theorem State.setFld_curves : (s.setFld off hi lo x).curves = s.curves := rfl
@[simp] theorem State.setReg_curves : (s.setReg off w).curves = s.curves := rfl

/-! ### `cfgId` -/

@[simp] theorem State.settle_cfgId : s.settle.cfgId = s.cfgId := rfl
@[simp] theorem State.setPrt_cfgId : (s.setPrt n pt).cfgId = s.cfgId := rfl
@[simp] theorem State.setTile_cfgId : (s.setTile n tl).cfgId = s.cfgId := rfl
@[simp] theorem State.incr_cfgId : (s.incr off).cfgId = s.cfgId := congrArg (·.cfgId) (s.incr_eq off)
@[simp] theorem State.setBank_cfgId : (s.setBank n bk).cfgId = s.cfgId := rfl
@[simp] theorem State.setVb_cfgId : (s.setVb n by_).cfgId = s.cfgId := rfl
@[simp] theorem State.dropShadow_cfgId : (s.dropShadow off).cfgId = s.cfgId := rfl
@[simp] theorem State.setShadow_cfgId : (s.setShadow off w).cfgId = s.cfgId := rfl
@[simp] theorem State.tick_cfgId : (s.tick n).cfgId = s.cfgId := congrArg (·.cfgId) (s.tick_eq n)
@[simp] theorem State.setPll_cfgId : (s.setPll n pl).cfgId = s.cfgId := rfl
@[simp] theorem State.setFlw_cfgId : (s.setFlw n fl).cfgId = s.cfgId := rfl
@[simp] theorem State.setFld_cfgId : (s.setFld off hi lo x).cfgId = s.cfgId := rfl
@[simp] theorem State.setReg_cfgId : (s.setReg off w).cfgId = s.cfgId := rfl
@[simp] theorem State.setRn_cfgId : (s.setRn off x).cfgId = s.cfgId := rfl
@[simp] theorem State.drawn_cfgId : s.drawn.cfgId = s.cfgId := rfl
@[simp] theorem State.setCv_cfgId : (s.setCv n cv).cfgId = s.cfgId := rfl
@[simp] theorem State.setLay_cfgId : (s.setLay n ly).cfgId = s.cfgId := rfl
@[simp] theorem State.setBitIf_cfgId : (s.setBitIf c off x).cfgId = s.cfgId := congrArg (·.cfgId) (s.setBitIf_eq off x c)
@[simp] theorem State.setBit_cfgId : (s.setBit off x).cfgId = s.cfgId := rfl
@[simp] theorem State.clrBit_cfgId : (s.clrBit off x).cfgId = s.cfgId := rfl

/-! ### `adopt` -/

@[simp] theorem State.setShadow_adopt : (s.setShadow off w).adopt = s.adopt := rfl
@[simp] theorem State.tick_adopt : (s.tick n).adopt = s.adopt := congrArg (·.adopt) (s.tick_eq n)
@[simp] theorem State.setPll_adopt : (s.setPll n pl).adopt = s.adopt := rfl
@[simp] theorem State.setFlw_adopt : (s.setFlw n fl).adopt = s.adopt := rfl
@[simp] theorem State.setFld_adopt : (s.setFld off hi lo x).adopt = s.adopt := rfl
@[simp] theorem State.setReg_adopt : (s.setReg off w).adopt = s.adopt := rfl
@[simp] theorem State.setRn_adopt : (s.setRn off x).adopt = s.adopt := rfl
@[simp] theorem State.drawn_adopt : s.drawn.adopt = s.adopt := rfl
@[simp] theorem State.setCv_adopt : (s.setCv n cv).adopt = s.adopt := rfl
@[simp] theorem State.setLay_adopt : (s.setLay n ly).adopt = s.adopt := rfl
@[simp] theorem State.setBitIf_adopt : (s.setBitIf c off x).adopt = s.adopt := congrArg (·.adopt) (s.setBitIf_eq off x c)
@[simp] theorem State.setBit_adopt : (s.setBit off x).adopt = s.adopt := rfl
@[simp] theorem State.clrBit_adopt : (s.clrBit off x).adopt = s.adopt := rfl
@[simp] theorem State.settle_adopt : s.settle.adopt = s.adopt := rfl
@[simp] theorem State.setPrt_adopt : (s.setPrt n pt).adopt = s.adopt := rfl
@[simp] theorem State.setTile_adopt : (s.setTile n tl).adopt = s.adopt := rfl
@[simp] theorem State.incr_adopt : (s.incr off).adopt = s.adopt := congrArg (·.adopt) (s.incr_eq off)
@[simp] theorem State.setBank_adopt : (s.setBank n bk).adopt = s.adopt := rfl
@[simp] theorem State.setVb_adopt : (s.setVb n by_).adopt = s.adopt := rfl
@[simp] theorem State.dropShadow_adopt : (s.dropShadow off).adopt = s.adopt := rfl

/-! ### `tshaper` -/

@[simp] theorem State.drawn_tshaper : s.drawn.tshaper = s.tshaper := rfl
@[simp] theorem State.setCv_tshaper : (s.setCv n cv).tshaper = s.tshaper := rfl
@[simp] theorem State.setLay_tshaper : (s.setLay n ly).tshaper = s.tshaper := rfl
@[simp] theorem State.setBitIf_tshaper : (s.setBitIf c off x).tshaper = s.tshaper := congrArg (·.tshaper) (s.setBitIf_eq off x c)
@[simp] theorem State.setBit_tshaper : (s.setBit off x).tshaper = s.tshaper := rfl
@[simp] theorem State.clrBit_tshaper : (s.clrBit off x).tshaper = s.tshaper := rfl
@[simp] theorem State.settle_tshaper : s.settle.tshaper = s.tshaper := rfl
@[simp] theorem State.setPrt_tshaper : (s.setPrt n pt).tshaper = s.tshaper := rfl
@[simp] theorem State.setTile_tshaper : (s.setTile n tl).tshaper = s.tshaper := rfl
@[simp] theorem State.incr_tshaper : (s.incr off).tshaper = s.tshaper := congrArg (·.tshaper) (s.incr_eq off)
@[simp] theorem State.setBank_tshaper : (s.setBank n bk).tshaper = s.tshaper := rfl
@[simp] theorem State.setVb_tshaper : (s.setVb n by_).tshaper = s.tshaper := rfl
@[simp] theorem State.dropShadow_tshaper : (s.dropShadow off).tshaper = s.tshaper := rfl
@[simp] theorem State.setShadow_tshaper : (s.setShadow off w).tshaper = s.tshaper := rfl
@[simp] theorem State.tick_tshaper : (s.tick n).tshaper = s.tshaper := congrArg (·.tshaper) (s.tick_eq n)
@[simp] theorem State.setPll_tshaper : (s.setPll n pl).tshaper = s.tshaper := rfl
@[simp] theorem State.setFlw_tshaper : (s.setFlw n fl).tshaper = s.tshaper := rfl
@[simp] theorem State.setFld_tshaper : (s.setFld off hi lo x).tshaper = s.tshaper := rfl
@[simp] theorem State.setReg_tshaper : (s.setReg off w).tshaper = s.tshaper := rfl
@[simp] theorem State.setRn_tshaper : (s.setRn off x).tshaper = s.tshaper := rfl

/-! ### `mem` -/

@[simp] theorem State.setPrt_mem : (s.setPrt n pt).mem = s.mem := rfl
@[simp] theorem State.setTile_mem : (s.setTile n tl).mem = s.mem := rfl
@[simp] theorem State.incr_mem : (s.incr off).mem = s.mem := congrArg (·.mem) (s.incr_eq off)
@[simp] theorem State.setBank_mem : (s.setBank n bk).mem = s.mem := rfl
@[simp] theorem State.setVb_mem : (s.setVb n by_).mem = s.mem := rfl
@[simp] theorem State.dropShadow_mem : (s.dropShadow off).mem = s.mem := rfl
@[simp] theorem State.setShadow_mem : (s.setShadow off w).mem = s.mem := rfl
@[simp] theorem State.tick_mem : (s.tick n).mem = s.mem := congrArg (·.mem) (s.tick_eq n)
@[simp] theorem State.setPll_mem : (s.setPll n pl).mem = s.mem := rfl
@[simp] theorem State.setFlw_mem : (s.setFlw n fl).mem = s.mem := rfl
@[simp] theorem State.setFld_mem : (s.setFld off hi lo x).mem = s.mem := rfl
@[simp] theorem State.setReg_mem : (s.setReg off w).mem = s.mem := rfl
@[simp] theorem State.setRn_mem : (s.setRn off x).mem = s.mem := rfl
@[simp] theorem State.drawn_mem : s.drawn.mem = s.mem := rfl
@[simp] theorem State.setCv_mem : (s.setCv n cv).mem = s.mem := rfl
@[simp] theorem State.setLay_mem : (s.setLay n ly).mem = s.mem := rfl
@[simp] theorem State.setBitIf_mem : (s.setBitIf c off x).mem = s.mem := congrArg (·.mem) (s.setBitIf_eq off x c)
@[simp] theorem State.setBit_mem : (s.setBit off x).mem = s.mem := rfl
@[simp] theorem State.clrBit_mem : (s.clrBit off x).mem = s.mem := rfl
@[simp] theorem State.settle_mem : s.settle.mem = s.mem := rfl

/-! ### `dram` -/

@[simp] theorem State.tick_dram : (s.tick n).dram = s.dram := congrArg (·.dram) (s.tick_eq n)
@[simp] theorem State.setPll_dram : (s.setPll n pl).dram = s.dram := rfl
@[simp] theorem State.setFlw_dram : (s.setFlw n fl).dram = s.dram := rfl
@[simp] theorem State.setFld_dram : (s.setFld off hi lo x).dram = s.dram := rfl
@[simp] theorem State.setReg_dram : (s.setReg off w).dram = s.dram := rfl
@[simp] theorem State.setRn_dram : (s.setRn off x).dram = s.dram := rfl
@[simp] theorem State.drawn_dram : s.drawn.dram = s.dram := rfl
@[simp] theorem State.setCv_dram : (s.setCv n cv).dram = s.dram := rfl
@[simp] theorem State.setLay_dram : (s.setLay n ly).dram = s.dram := rfl
@[simp] theorem State.setBitIf_dram : (s.setBitIf c off x).dram = s.dram := congrArg (·.dram) (s.setBitIf_eq off x c)
@[simp] theorem State.setBit_dram : (s.setBit off x).dram = s.dram := rfl
@[simp] theorem State.clrBit_dram : (s.clrBit off x).dram = s.dram := rfl
@[simp] theorem State.settle_dram : s.settle.dram = s.dram := rfl
@[simp] theorem State.setPrt_dram : (s.setPrt n pt).dram = s.dram := rfl
@[simp] theorem State.setTile_dram : (s.setTile n tl).dram = s.dram := rfl
@[simp] theorem State.incr_dram : (s.incr off).dram = s.dram := congrArg (·.dram) (s.incr_eq off)
@[simp] theorem State.setBank_dram : (s.setBank n bk).dram = s.dram := rfl
@[simp] theorem State.setVb_dram : (s.setVb n by_).dram = s.dram := rfl
@[simp] theorem State.dropShadow_dram : (s.dropShadow off).dram = s.dram := rfl
@[simp] theorem State.setShadow_dram : (s.setShadow off w).dram = s.dram := rfl

/-! ### `dma` -/

@[simp] theorem State.setCv_dma : (s.setCv n cv).dma = s.dma := rfl
@[simp] theorem State.setLay_dma : (s.setLay n ly).dma = s.dma := rfl
@[simp] theorem State.setBitIf_dma : (s.setBitIf c off x).dma = s.dma := congrArg (·.dma) (s.setBitIf_eq off x c)
@[simp] theorem State.setBit_dma : (s.setBit off x).dma = s.dma := rfl
@[simp] theorem State.clrBit_dma : (s.clrBit off x).dma = s.dma := rfl
@[simp] theorem State.settle_dma : s.settle.dma = s.dma := rfl
@[simp] theorem State.setPrt_dma : (s.setPrt n pt).dma = s.dma := rfl
@[simp] theorem State.setTile_dma : (s.setTile n tl).dma = s.dma := rfl
@[simp] theorem State.incr_dma : (s.incr off).dma = s.dma := congrArg (·.dma) (s.incr_eq off)
@[simp] theorem State.setBank_dma : (s.setBank n bk).dma = s.dma := rfl
@[simp] theorem State.setVb_dma : (s.setVb n by_).dma = s.dma := rfl
@[simp] theorem State.dropShadow_dma : (s.dropShadow off).dma = s.dma := rfl
@[simp] theorem State.setShadow_dma : (s.setShadow off w).dma = s.dma := rfl
@[simp] theorem State.tick_dma : (s.tick n).dma = s.dma := congrArg (·.dma) (s.tick_eq n)
@[simp] theorem State.setPll_dma : (s.setPll n pl).dma = s.dma := rfl
@[simp] theorem State.setFlw_dma : (s.setFlw n fl).dma = s.dma := rfl
@[simp] theorem State.setFld_dma : (s.setFld off hi lo x).dma = s.dma := rfl
@[simp] theorem State.setReg_dma : (s.setReg off w).dma = s.dma := rfl
@[simp] theorem State.setRn_dma : (s.setRn off x).dma = s.dma := rfl
@[simp] theorem State.drawn_dma : s.drawn.dma = s.dma := rfl

/-! ### `dmaTurn` -/

@[simp] theorem State.setTile_dmaTurn : (s.setTile n tl).dmaTurn = s.dmaTurn := rfl
@[simp] theorem State.incr_dmaTurn : (s.incr off).dmaTurn = s.dmaTurn := congrArg (·.dmaTurn) (s.incr_eq off)
@[simp] theorem State.setBank_dmaTurn : (s.setBank n bk).dmaTurn = s.dmaTurn := rfl
@[simp] theorem State.setVb_dmaTurn : (s.setVb n by_).dmaTurn = s.dmaTurn := rfl
@[simp] theorem State.dropShadow_dmaTurn : (s.dropShadow off).dmaTurn = s.dmaTurn := rfl
@[simp] theorem State.setShadow_dmaTurn : (s.setShadow off w).dmaTurn = s.dmaTurn := rfl
@[simp] theorem State.tick_dmaTurn : (s.tick n).dmaTurn = s.dmaTurn := congrArg (·.dmaTurn) (s.tick_eq n)
@[simp] theorem State.setPll_dmaTurn : (s.setPll n pl).dmaTurn = s.dmaTurn := rfl
@[simp] theorem State.setFlw_dmaTurn : (s.setFlw n fl).dmaTurn = s.dmaTurn := rfl
@[simp] theorem State.setFld_dmaTurn : (s.setFld off hi lo x).dmaTurn = s.dmaTurn := rfl
@[simp] theorem State.setReg_dmaTurn : (s.setReg off w).dmaTurn = s.dmaTurn := rfl
@[simp] theorem State.setRn_dmaTurn : (s.setRn off x).dmaTurn = s.dmaTurn := rfl
@[simp] theorem State.drawn_dmaTurn : s.drawn.dmaTurn = s.dmaTurn := rfl
@[simp] theorem State.setCv_dmaTurn : (s.setCv n cv).dmaTurn = s.dmaTurn := rfl
@[simp] theorem State.setLay_dmaTurn : (s.setLay n ly).dmaTurn = s.dmaTurn := rfl
@[simp] theorem State.setBitIf_dmaTurn : (s.setBitIf c off x).dmaTurn = s.dmaTurn := congrArg (·.dmaTurn) (s.setBitIf_eq off x c)
@[simp] theorem State.setBit_dmaTurn : (s.setBit off x).dmaTurn = s.dmaTurn := rfl
@[simp] theorem State.clrBit_dmaTurn : (s.clrBit off x).dmaTurn = s.dmaTurn := rfl
@[simp] theorem State.settle_dmaTurn : s.settle.dmaTurn = s.dmaTurn := rfl
@[simp] theorem State.setPrt_dmaTurn : (s.setPrt n pt).dmaTurn = s.dmaTurn := rfl

/-! ### `rsvReq` -/

@[simp] theorem State.setPll_rsvReq : (s.setPll n pl).rsvReq = s.rsvReq := rfl
@[simp] theorem State.setFlw_rsvReq : (s.setFlw n fl).rsvReq = s.rsvReq := rfl
@[simp] theorem State.setFld_rsvReq : (s.setFld off hi lo x).rsvReq = s.rsvReq := rfl
@[simp] theorem State.setReg_rsvReq : (s.setReg off w).rsvReq = s.rsvReq := rfl
@[simp] theorem State.setRn_rsvReq : (s.setRn off x).rsvReq = s.rsvReq := rfl
@[simp] theorem State.drawn_rsvReq : s.drawn.rsvReq = s.rsvReq := rfl
@[simp] theorem State.setCv_rsvReq : (s.setCv n cv).rsvReq = s.rsvReq := rfl
@[simp] theorem State.setLay_rsvReq : (s.setLay n ly).rsvReq = s.rsvReq := rfl
@[simp] theorem State.setBitIf_rsvReq : (s.setBitIf c off x).rsvReq = s.rsvReq := congrArg (·.rsvReq) (s.setBitIf_eq off x c)
@[simp] theorem State.setBit_rsvReq : (s.setBit off x).rsvReq = s.rsvReq := rfl
@[simp] theorem State.clrBit_rsvReq : (s.clrBit off x).rsvReq = s.rsvReq := rfl
@[simp] theorem State.settle_rsvReq : s.settle.rsvReq = s.rsvReq := rfl
@[simp] theorem State.setPrt_rsvReq : (s.setPrt n pt).rsvReq = s.rsvReq := rfl
@[simp] theorem State.setTile_rsvReq : (s.setTile n tl).rsvReq = s.rsvReq := rfl
@[simp] theorem State.incr_rsvReq : (s.incr off).rsvReq = s.rsvReq := congrArg (·.rsvReq) (s.incr_eq off)
@[simp] theorem State.setBank_rsvReq : (s.setBank n bk).rsvReq = s.rsvReq := rfl
@[simp] theorem State.setVb_rsvReq : (s.setVb n by_).rsvReq = s.rsvReq := rfl
@[simp] theorem State.dropShadow_rsvReq : (s.dropShadow off).rsvReq = s.rsvReq := rfl
@[simp] theorem State.setShadow_rsvReq : (s.setShadow off w).rsvReq = s.rsvReq := rfl
@[simp] theorem State.tick_rsvReq : (s.tick n).rsvReq = s.rsvReq := congrArg (·.rsvReq) (s.tick_eq n)

/-! ### `xspi` -/

@[simp] theorem State.setLay_xspi : (s.setLay n ly).xspi = s.xspi := rfl
@[simp] theorem State.setBitIf_xspi : (s.setBitIf c off x).xspi = s.xspi := congrArg (·.xspi) (s.setBitIf_eq off x c)
@[simp] theorem State.setBit_xspi : (s.setBit off x).xspi = s.xspi := rfl
@[simp] theorem State.clrBit_xspi : (s.clrBit off x).xspi = s.xspi := rfl
@[simp] theorem State.settle_xspi : s.settle.xspi = s.xspi := rfl
@[simp] theorem State.setPrt_xspi : (s.setPrt n pt).xspi = s.xspi := rfl
@[simp] theorem State.setTile_xspi : (s.setTile n tl).xspi = s.xspi := rfl
@[simp] theorem State.incr_xspi : (s.incr off).xspi = s.xspi := congrArg (·.xspi) (s.incr_eq off)
@[simp] theorem State.setBank_xspi : (s.setBank n bk).xspi = s.xspi := rfl
@[simp] theorem State.setVb_xspi : (s.setVb n by_).xspi = s.xspi := rfl
@[simp] theorem State.dropShadow_xspi : (s.dropShadow off).xspi = s.xspi := rfl
@[simp] theorem State.setShadow_xspi : (s.setShadow off w).xspi = s.xspi := rfl
@[simp] theorem State.tick_xspi : (s.tick n).xspi = s.xspi := congrArg (·.xspi) (s.tick_eq n)
@[simp] theorem State.setPll_xspi : (s.setPll n pl).xspi = s.xspi := rfl
@[simp] theorem State.setFlw_xspi : (s.setFlw n fl).xspi = s.xspi := rfl
@[simp] theorem State.setFld_xspi : (s.setFld off hi lo x).xspi = s.xspi := rfl
@[simp] theorem State.setReg_xspi : (s.setReg off w).xspi = s.xspi := rfl
@[simp] theorem State.setRn_xspi : (s.setRn off x).xspi = s.xspi := rfl
@[simp] theorem State.drawn_xspi : s.drawn.xspi = s.xspi := rfl
@[simp] theorem State.setCv_xspi : (s.setCv n cv).xspi = s.xspi := rfl

/-! ### `sbus` -/

@[simp] theorem State.incr_sbus : (s.incr off).sbus = s.sbus := congrArg (·.sbus) (s.incr_eq off)
@[simp] theorem State.setBank_sbus : (s.setBank n bk).sbus = s.sbus := rfl
@[simp] theorem State.setVb_sbus : (s.setVb n by_).sbus = s.sbus := rfl
@[simp] theorem State.dropShadow_sbus : (s.dropShadow off).sbus = s.sbus := rfl
@[simp] theorem State.setShadow_sbus : (s.setShadow off w).sbus = s.sbus := rfl
@[simp] theorem State.tick_sbus : (s.tick n).sbus = s.sbus := congrArg (·.sbus) (s.tick_eq n)
@[simp] theorem State.setPll_sbus : (s.setPll n pl).sbus = s.sbus := rfl
@[simp] theorem State.setFlw_sbus : (s.setFlw n fl).sbus = s.sbus := rfl
@[simp] theorem State.setFld_sbus : (s.setFld off hi lo x).sbus = s.sbus := rfl
@[simp] theorem State.setReg_sbus : (s.setReg off w).sbus = s.sbus := rfl
@[simp] theorem State.setRn_sbus : (s.setRn off x).sbus = s.sbus := rfl
@[simp] theorem State.drawn_sbus : s.drawn.sbus = s.sbus := rfl
@[simp] theorem State.setCv_sbus : (s.setCv n cv).sbus = s.sbus := rfl
@[simp] theorem State.setLay_sbus : (s.setLay n ly).sbus = s.sbus := rfl
@[simp] theorem State.setBitIf_sbus : (s.setBitIf c off x).sbus = s.sbus := congrArg (·.sbus) (s.setBitIf_eq off x c)
@[simp] theorem State.setBit_sbus : (s.setBit off x).sbus = s.sbus := rfl
@[simp] theorem State.clrBit_sbus : (s.clrBit off x).sbus = s.sbus := rfl
@[simp] theorem State.settle_sbus : s.settle.sbus = s.sbus := rfl
@[simp] theorem State.setPrt_sbus : (s.setPrt n pt).sbus = s.sbus := rfl
@[simp] theorem State.setTile_sbus : (s.setTile n tl).sbus = s.sbus := rfl

/-! ### `poison` -/

@[simp] theorem State.setFlw_poison : (s.setFlw n fl).poison = s.poison := rfl
@[simp] theorem State.setFld_poison : (s.setFld off hi lo x).poison = s.poison := rfl
@[simp] theorem State.setReg_poison : (s.setReg off w).poison = s.poison := rfl
@[simp] theorem State.setRn_poison : (s.setRn off x).poison = s.poison := rfl
@[simp] theorem State.drawn_poison : s.drawn.poison = s.poison := rfl
@[simp] theorem State.setCv_poison : (s.setCv n cv).poison = s.poison := rfl
@[simp] theorem State.setLay_poison : (s.setLay n ly).poison = s.poison := rfl
@[simp] theorem State.setBitIf_poison : (s.setBitIf c off x).poison = s.poison := congrArg (·.poison) (s.setBitIf_eq off x c)
@[simp] theorem State.setBit_poison : (s.setBit off x).poison = s.poison := rfl
@[simp] theorem State.clrBit_poison : (s.clrBit off x).poison = s.poison := rfl
@[simp] theorem State.settle_poison : s.settle.poison = s.poison := rfl
@[simp] theorem State.setPrt_poison : (s.setPrt n pt).poison = s.poison := rfl
@[simp] theorem State.setTile_poison : (s.setTile n tl).poison = s.poison := rfl
@[simp] theorem State.incr_poison : (s.incr off).poison = s.poison := congrArg (·.poison) (s.incr_eq off)
@[simp] theorem State.setBank_poison : (s.setBank n bk).poison = s.poison := rfl
@[simp] theorem State.setVb_poison : (s.setVb n by_).poison = s.poison := rfl
@[simp] theorem State.dropShadow_poison : (s.dropShadow off).poison = s.poison := rfl
@[simp] theorem State.setShadow_poison : (s.setShadow off w).poison = s.poison := rfl
@[simp] theorem State.tick_poison : (s.tick n).poison = s.poison := congrArg (·.poison) (s.tick_eq n)
@[simp] theorem State.setPll_poison : (s.setPll n pl).poison = s.poison := rfl

/-! ### `edges` -/

@[simp] theorem State.setBitIf_edges : (s.setBitIf c off x).edges = s.edges := congrArg (·.edges) (s.setBitIf_eq off x c)
@[simp] theorem State.setBit_edges : (s.setBit off x).edges = s.edges := rfl
@[simp] theorem State.clrBit_edges : (s.clrBit off x).edges = s.edges := rfl
@[simp] theorem State.settle_edges : s.settle.edges = s.edges := rfl
@[simp] theorem State.setPrt_edges : (s.setPrt n pt).edges = s.edges := rfl
@[simp] theorem State.setTile_edges : (s.setTile n tl).edges = s.edges := rfl
@[simp] theorem State.incr_edges : (s.incr off).edges = s.edges := congrArg (·.edges) (s.incr_eq off)
@[simp] theorem State.setBank_edges : (s.setBank n bk).edges = s.edges := rfl
@[simp] theorem State.setVb_edges : (s.setVb n by_).edges = s.edges := rfl
@[simp] theorem State.dropShadow_edges : (s.dropShadow off).edges = s.edges := rfl
@[simp] theorem State.setShadow_edges : (s.setShadow off w).edges = s.edges := rfl
@[simp] theorem State.tick_edges : (s.tick n).edges = s.edges := congrArg (·.edges) (s.tick_eq n)
@[simp] theorem State.setPll_edges : (s.setPll n pl).edges = s.edges := rfl
@[simp] theorem State.setFlw_edges : (s.setFlw n fl).edges = s.edges := rfl
@[simp] theorem State.setFld_edges : (s.setFld off hi lo x).edges = s.edges := rfl
@[simp] theorem State.setReg_edges : (s.setReg off w).edges = s.edges := rfl
@[simp] theorem State.setRn_edges : (s.setRn off x).edges = s.edges := rfl
@[simp] theorem State.drawn_edges : s.drawn.edges = s.edges := rfl
@[simp] theorem State.setCv_edges : (s.setCv n cv).edges = s.edges := rfl
@[simp] theorem State.setLay_edges : (s.setLay n ly).edges = s.edges := rfl

/-! ### `medBuf` -/

@[simp] theorem State.setBank_medBuf : (s.setBank n bk).medBuf = s.medBuf := rfl
@[simp] theorem State.setVb_medBuf : (s.setVb n by_).medBuf = s.medBuf := rfl
@[simp] theorem State.dropShadow_medBuf : (s.dropShadow off).medBuf = s.medBuf := rfl
@[simp] theorem State.setShadow_medBuf : (s.setShadow off w).medBuf = s.medBuf := rfl
@[simp] theorem State.tick_medBuf : (s.tick n).medBuf = s.medBuf := congrArg (·.medBuf) (s.tick_eq n)
@[simp] theorem State.setPll_medBuf : (s.setPll n pl).medBuf = s.medBuf := rfl
@[simp] theorem State.setFlw_medBuf : (s.setFlw n fl).medBuf = s.medBuf := rfl
@[simp] theorem State.setFld_medBuf : (s.setFld off hi lo x).medBuf = s.medBuf := rfl
@[simp] theorem State.setReg_medBuf : (s.setReg off w).medBuf = s.medBuf := rfl
@[simp] theorem State.setRn_medBuf : (s.setRn off x).medBuf = s.medBuf := rfl
@[simp] theorem State.drawn_medBuf : s.drawn.medBuf = s.medBuf := rfl
@[simp] theorem State.setCv_medBuf : (s.setCv n cv).medBuf = s.medBuf := rfl
@[simp] theorem State.setLay_medBuf : (s.setLay n ly).medBuf = s.medBuf := rfl
@[simp] theorem State.setBitIf_medBuf : (s.setBitIf c off x).medBuf = s.medBuf := congrArg (·.medBuf) (s.setBitIf_eq off x c)
@[simp] theorem State.setBit_medBuf : (s.setBit off x).medBuf = s.medBuf := rfl
@[simp] theorem State.clrBit_medBuf : (s.clrBit off x).medBuf = s.medBuf := rfl
@[simp] theorem State.settle_medBuf : s.settle.medBuf = s.medBuf := rfl
@[simp] theorem State.setPrt_medBuf : (s.setPrt n pt).medBuf = s.medBuf := rfl
@[simp] theorem State.setTile_medBuf : (s.setTile n tl).medBuf = s.medBuf := rfl
@[simp] theorem State.incr_medBuf : (s.incr off).medBuf = s.medBuf := congrArg (·.medBuf) (s.incr_eq off)

/-! ### `flows` -/

@[simp] theorem State.setFld_flows : (s.setFld off hi lo x).flows = s.flows := rfl
@[simp] theorem State.setReg_flows : (s.setReg off w).flows = s.flows := rfl
@[simp] theorem State.setRn_flows : (s.setRn off x).flows = s.flows := rfl
@[simp] theorem State.drawn_flows : s.drawn.flows = s.flows := rfl
@[simp] theorem State.setCv_flows : (s.setCv n cv).flows = s.flows := rfl
@[simp] theorem State.setLay_flows : (s.setLay n ly).flows = s.flows := rfl
@[simp] theorem State.setBitIf_flows : (s.setBitIf c off x).flows = s.flows := congrArg (·.flows) (s.setBitIf_eq off x c)
@[simp] theorem State.setBit_flows : (s.setBit off x).flows = s.flows := rfl
@[simp] theorem State.clrBit_flows : (s.clrBit off x).flows = s.flows := rfl
@[simp] theorem State.settle_flows : s.settle.flows = s.flows := rfl
@[simp] theorem State.setPrt_flows : (s.setPrt n pt).flows = s.flows := rfl
@[simp] theorem State.setTile_flows : (s.setTile n tl).flows = s.flows := rfl
@[simp] theorem State.incr_flows : (s.incr off).flows = s.flows := congrArg (·.flows) (s.incr_eq off)
@[simp] theorem State.setBank_flows : (s.setBank n bk).flows = s.flows := rfl
@[simp] theorem State.setVb_flows : (s.setVb n by_).flows = s.flows := rfl
@[simp] theorem State.dropShadow_flows : (s.dropShadow off).flows = s.flows := rfl
@[simp] theorem State.setShadow_flows : (s.setShadow off w).flows = s.flows := rfl
@[simp] theorem State.tick_flows : (s.tick n).flows = s.flows := congrArg (·.flows) (s.tick_eq n)
@[simp] theorem State.setPll_flows : (s.setPll n pl).flows = s.flows := rfl
@[simp] theorem State.setFlw_flows : (s.setFlw n fl).flows = mset s.flows n {} fl := rfl

/-! ### `rsv` -/

@[simp] theorem State.setBit_rsv : (s.setBit off x).rsv = s.rsv := rfl
@[simp] theorem State.clrBit_rsv : (s.clrBit off x).rsv = s.rsv := rfl
@[simp] theorem State.settle_rsv : s.settle.rsv = s.rsv := rfl
@[simp] theorem State.setPrt_rsv : (s.setPrt n pt).rsv = s.rsv := rfl
@[simp] theorem State.setTile_rsv : (s.setTile n tl).rsv = s.rsv := rfl
@[simp] theorem State.incr_rsv : (s.incr off).rsv = s.rsv := congrArg (·.rsv) (s.incr_eq off)
@[simp] theorem State.setBank_rsv : (s.setBank n bk).rsv = s.rsv := rfl
@[simp] theorem State.setVb_rsv : (s.setVb n by_).rsv = s.rsv := rfl
@[simp] theorem State.dropShadow_rsv : (s.dropShadow off).rsv = s.rsv := rfl
@[simp] theorem State.setShadow_rsv : (s.setShadow off w).rsv = s.rsv := rfl
@[simp] theorem State.tick_rsv : (s.tick n).rsv = s.rsv := congrArg (·.rsv) (s.tick_eq n)
@[simp] theorem State.setPll_rsv : (s.setPll n pl).rsv = s.rsv := rfl
@[simp] theorem State.setFlw_rsv : (s.setFlw n fl).rsv = s.rsv := rfl
@[simp] theorem State.setFld_rsv : (s.setFld off hi lo x).rsv = s.rsv := rfl
@[simp] theorem State.setReg_rsv : (s.setReg off w).rsv = s.rsv := rfl
@[simp] theorem State.setRn_rsv : (s.setRn off x).rsv = s.rsv := rfl
@[simp] theorem State.drawn_rsv : s.drawn.rsv = s.rsv := rfl
@[simp] theorem State.setCv_rsv : (s.setCv n cv).rsv = s.rsv := rfl
@[simp] theorem State.setLay_rsv : (s.setLay n ly).rsv = s.rsv := rfl
@[simp] theorem State.setBitIf_rsv : (s.setBitIf c off x).rsv = s.rsv := congrArg (·.rsv) (s.setBitIf_eq off x c)

/-! ### `keep` -/

@[simp] theorem State.setVb_keep : (s.setVb n by_).keep = s.keep := rfl
@[simp] theorem State.dropShadow_keep : (s.dropShadow off).keep = s.keep := rfl
@[simp] theorem State.setShadow_keep : (s.setShadow off w).keep = s.keep := rfl
@[simp] theorem State.tick_keep : (s.tick n).keep = s.keep := congrArg (·.keep) (s.tick_eq n)
@[simp] theorem State.setPll_keep : (s.setPll n pl).keep = s.keep := rfl
@[simp] theorem State.setFlw_keep : (s.setFlw n fl).keep = s.keep := rfl
@[simp] theorem State.setFld_keep : (s.setFld off hi lo x).keep = s.keep := rfl
@[simp] theorem State.setReg_keep : (s.setReg off w).keep = s.keep := rfl
@[simp] theorem State.setRn_keep : (s.setRn off x).keep = s.keep := rfl
@[simp] theorem State.drawn_keep : s.drawn.keep = s.keep := rfl
@[simp] theorem State.setCv_keep : (s.setCv n cv).keep = s.keep := rfl
@[simp] theorem State.setLay_keep : (s.setLay n ly).keep = s.keep := rfl
@[simp] theorem State.setBitIf_keep : (s.setBitIf c off x).keep = s.keep := congrArg (·.keep) (s.setBitIf_eq off x c)
@[simp] theorem State.setBit_keep : (s.setBit off x).keep = s.keep := rfl
@[simp] theorem State.clrBit_keep : (s.clrBit off x).keep = s.keep := rfl
@[simp] theorem State.settle_keep : s.settle.keep = s.keep := rfl
@[simp] theorem State.setPrt_keep : (s.setPrt n pt).keep = s.keep := rfl
@[simp] theorem State.setTile_keep : (s.setTile n tl).keep = s.keep := rfl
@[simp] theorem State.incr_keep : (s.incr off).keep = s.keep := congrArg (·.keep) (s.incr_eq off)
@[simp] theorem State.setBank_keep : (s.setBank n bk).keep = s.keep := rfl

/-! ### `tbase` -/

@[simp] theorem State.setReg_tbase : (s.setReg off w).tbase = s.tbase := rfl
@[simp] theorem State.setRn_tbase : (s.setRn off x).tbase = s.tbase := rfl
@[simp] theorem State.drawn_tbase : s.drawn.tbase = s.tbase := rfl
@[simp] theorem State.setCv_tbase : (s.setCv n cv).tbase = s.tbase := rfl
@[simp] theorem State.setLay_tbase : (s.setLay n ly).tbase = s.tbase := rfl
@[simp] theorem State.setBitIf_tbase : (s.setBitIf c off x).tbase = s.tbase := congrArg (·.tbase) (s.setBitIf_eq off x c)
@[simp] theorem State.setBit_tbase : (s.setBit off x).tbase = s.tbase := rfl
@[simp] theorem State.clrBit_tbase : (s.clrBit off x).tbase = s.tbase := rfl
@[simp] theorem State.settle_tbase : s.settle.tbase = s.tbase := rfl
@[simp] theorem State.setPrt_tbase : (s.setPrt n pt).tbase = s.tbase := rfl
@[simp] theorem State.setTile_tbase : (s.setTile n tl).tbase = s.tbase := rfl
@[simp] theorem State.incr_tbase : (s.incr off).tbase = s.tbase := congrArg (·.tbase) (s.incr_eq off)
@[simp] theorem State.setBank_tbase : (s.setBank n bk).tbase = s.tbase := rfl
@[simp] theorem State.setVb_tbase : (s.setVb n by_).tbase = s.tbase := rfl
@[simp] theorem State.dropShadow_tbase : (s.dropShadow off).tbase = s.tbase := rfl
@[simp] theorem State.setShadow_tbase : (s.setShadow off w).tbase = s.tbase := rfl
@[simp] theorem State.tick_tbase : (s.tick n).tbase = s.tbase := congrArg (·.tbase) (s.tick_eq n)
@[simp] theorem State.setPll_tbase : (s.setPll n pl).tbase = s.tbase := rfl
@[simp] theorem State.setFlw_tbase : (s.setFlw n fl).tbase = s.tbase := rfl
@[simp] theorem State.setFld_tbase : (s.setFld off hi lo x).tbase = s.tbase := rfl

/-! ### `faults` -/

@[simp] theorem State.clrBit_faults : (s.clrBit off x).faults = s.faults := rfl
@[simp] theorem State.settle_faults : s.settle.faults = s.faults := rfl
@[simp] theorem State.setPrt_faults : (s.setPrt n pt).faults = s.faults := rfl
@[simp] theorem State.setTile_faults : (s.setTile n tl).faults = s.faults := rfl
@[simp] theorem State.incr_faults : (s.incr off).faults = s.faults := congrArg (·.faults) (s.incr_eq off)
@[simp] theorem State.setBank_faults : (s.setBank n bk).faults = s.faults := rfl
@[simp] theorem State.setVb_faults : (s.setVb n by_).faults = s.faults := rfl
@[simp] theorem State.dropShadow_faults : (s.dropShadow off).faults = s.faults := rfl
@[simp] theorem State.setShadow_faults : (s.setShadow off w).faults = s.faults := rfl
@[simp] theorem State.tick_faults : (s.tick n).faults = s.faults := congrArg (·.faults) (s.tick_eq n)
@[simp] theorem State.setPll_faults : (s.setPll n pl).faults = s.faults := rfl
@[simp] theorem State.setFlw_faults : (s.setFlw n fl).faults = s.faults := rfl
@[simp] theorem State.setFld_faults : (s.setFld off hi lo x).faults = s.faults := rfl
@[simp] theorem State.setReg_faults : (s.setReg off w).faults = s.faults := rfl
@[simp] theorem State.setRn_faults : (s.setRn off x).faults = s.faults := rfl
@[simp] theorem State.drawn_faults : s.drawn.faults = s.faults := rfl
@[simp] theorem State.setCv_faults : (s.setCv n cv).faults = s.faults := rfl
@[simp] theorem State.setLay_faults : (s.setLay n ly).faults = s.faults := rfl
@[simp] theorem State.setBitIf_faults : (s.setBitIf c off x).faults = s.faults := congrArg (·.faults) (s.setBitIf_eq off x c)
@[simp] theorem State.setBit_faults : (s.setBit off x).faults = s.faults := rfl

/-! ### `plls` -/

@[simp] theorem State.dropShadow_plls : (s.dropShadow off).plls = s.plls := rfl
@[simp] theorem State.setShadow_plls : (s.setShadow off w).plls = s.plls := rfl
@[simp] theorem State.tick_plls : (s.tick n).plls = s.plls := congrArg (·.plls) (s.tick_eq n)
@[simp] theorem State.setPll_plls : (s.setPll n pl).plls = mset s.plls n {} pl := rfl
@[simp] theorem State.setFlw_plls : (s.setFlw n fl).plls = s.plls := rfl
@[simp] theorem State.setFld_plls : (s.setFld off hi lo x).plls = s.plls := rfl
@[simp] theorem State.setReg_plls : (s.setReg off w).plls = s.plls := rfl
@[simp] theorem State.setRn_plls : (s.setRn off x).plls = s.plls := rfl
@[simp] theorem State.drawn_plls : s.drawn.plls = s.plls := rfl
@[simp] theorem State.setCv_plls : (s.setCv n cv).plls = s.plls := rfl
@[simp] theorem State.setLay_plls : (s.setLay n ly).plls = s.plls := rfl
@[simp] theorem State.setBitIf_plls : (s.setBitIf c off x).plls = s.plls := congrArg (·.plls) (s.setBitIf_eq off x c)
@[simp] theorem State.setBit_plls : (s.setBit off x).plls = s.plls := rfl
@[simp] theorem State.clrBit_plls : (s.clrBit off x).plls = s.plls := rfl
@[simp] theorem State.settle_plls : s.settle.plls = s.plls := rfl
@[simp] theorem State.setPrt_plls : (s.setPrt n pt).plls = s.plls := rfl
@[simp] theorem State.setTile_plls : (s.setTile n tl).plls = s.plls := rfl
@[simp] theorem State.incr_plls : (s.incr off).plls = s.plls := congrArg (·.plls) (s.incr_eq off)
@[simp] theorem State.setBank_plls : (s.setBank n bk).plls = s.plls := rfl
@[simp] theorem State.setVb_plls : (s.setVb n by_).plls = s.plls := rfl

/-! ### `hasp` -/

@[simp] theorem State.setRn_hasp : (s.setRn off x).hasp = s.hasp := rfl
@[simp] theorem State.drawn_hasp : s.drawn.hasp = s.hasp := rfl
@[simp] theorem State.setCv_hasp : (s.setCv n cv).hasp = s.hasp := rfl
@[simp] theorem State.setLay_hasp : (s.setLay n ly).hasp = s.hasp := rfl
@[simp] theorem State.setBitIf_hasp : (s.setBitIf c off x).hasp = s.hasp := congrArg (·.hasp) (s.setBitIf_eq off x c)
@[simp] theorem State.setBit_hasp : (s.setBit off x).hasp = s.hasp := rfl
@[simp] theorem State.clrBit_hasp : (s.clrBit off x).hasp = s.hasp := rfl
@[simp] theorem State.settle_hasp : s.settle.hasp = s.hasp := rfl
@[simp] theorem State.setPrt_hasp : (s.setPrt n pt).hasp = s.hasp := rfl
@[simp] theorem State.setTile_hasp : (s.setTile n tl).hasp = s.hasp := rfl
@[simp] theorem State.incr_hasp : (s.incr off).hasp = s.hasp := congrArg (·.hasp) (s.incr_eq off)
@[simp] theorem State.setBank_hasp : (s.setBank n bk).hasp = s.hasp := rfl
@[simp] theorem State.setVb_hasp : (s.setVb n by_).hasp = s.hasp := rfl
@[simp] theorem State.dropShadow_hasp : (s.dropShadow off).hasp = s.hasp := rfl
@[simp] theorem State.setShadow_hasp : (s.setShadow off w).hasp = s.hasp := rfl
@[simp] theorem State.tick_hasp : (s.tick n).hasp = s.hasp := congrArg (·.hasp) (s.tick_eq n)
@[simp] theorem State.setPll_hasp : (s.setPll n pl).hasp = s.hasp := rfl
@[simp] theorem State.setFlw_hasp : (s.setFlw n fl).hasp = s.hasp := rfl
@[simp] theorem State.setFld_hasp : (s.setFld off hi lo x).hasp = s.hasp := rfl
@[simp] theorem State.setReg_hasp : (s.setReg off w).hasp = s.hasp := rfl

/-! ### `ptp` -/

@[simp] theorem State.settle_ptp : s.settle.ptp = s.ptp := rfl
@[simp] theorem State.setPrt_ptp : (s.setPrt n pt).ptp = s.ptp := rfl
@[simp] theorem State.setTile_ptp : (s.setTile n tl).ptp = s.ptp := rfl
@[simp] theorem State.incr_ptp : (s.incr off).ptp = s.ptp := congrArg (·.ptp) (s.incr_eq off)
@[simp] theorem State.setBank_ptp : (s.setBank n bk).ptp = s.ptp := rfl
@[simp] theorem State.setVb_ptp : (s.setVb n by_).ptp = s.ptp := rfl
@[simp] theorem State.dropShadow_ptp : (s.dropShadow off).ptp = s.ptp := rfl
@[simp] theorem State.setShadow_ptp : (s.setShadow off w).ptp = s.ptp := rfl
@[simp] theorem State.tick_ptp : (s.tick n).ptp = s.ptp := congrArg (·.ptp) (s.tick_eq n)
@[simp] theorem State.setPll_ptp : (s.setPll n pl).ptp = s.ptp := rfl
@[simp] theorem State.setFlw_ptp : (s.setFlw n fl).ptp = s.ptp := rfl
@[simp] theorem State.setFld_ptp : (s.setFld off hi lo x).ptp = s.ptp := rfl
@[simp] theorem State.setReg_ptp : (s.setReg off w).ptp = s.ptp := rfl
@[simp] theorem State.setRn_ptp : (s.setRn off x).ptp = s.ptp := rfl
@[simp] theorem State.drawn_ptp : s.drawn.ptp = s.ptp := rfl
@[simp] theorem State.setCv_ptp : (s.setCv n cv).ptp = s.ptp := rfl
@[simp] theorem State.setLay_ptp : (s.setLay n ly).ptp = s.ptp := rfl
@[simp] theorem State.setBitIf_ptp : (s.setBitIf c off x).ptp = s.ptp := congrArg (·.ptp) (s.setBitIf_eq off x c)
@[simp] theorem State.setBit_ptp : (s.setBit off x).ptp = s.ptp := rfl
@[simp] theorem State.clrBit_ptp : (s.clrBit off x).ptp = s.ptp := rfl

/-! ### `framePulse` -/

@[simp] theorem State.setShadow_framePulse : (s.setShadow off w).framePulse = s.framePulse := rfl
@[simp] theorem State.tick_framePulse : (s.tick n).framePulse = s.framePulse := congrArg (·.framePulse) (s.tick_eq n)
@[simp] theorem State.setPll_framePulse : (s.setPll n pl).framePulse = s.framePulse := rfl
@[simp] theorem State.setFlw_framePulse : (s.setFlw n fl).framePulse = s.framePulse := rfl
@[simp] theorem State.setFld_framePulse : (s.setFld off hi lo x).framePulse = s.framePulse := rfl
@[simp] theorem State.setReg_framePulse : (s.setReg off w).framePulse = s.framePulse := rfl
@[simp] theorem State.setRn_framePulse : (s.setRn off x).framePulse = s.framePulse := rfl
@[simp] theorem State.drawn_framePulse : s.drawn.framePulse = s.framePulse := rfl
@[simp] theorem State.setCv_framePulse : (s.setCv n cv).framePulse = s.framePulse := rfl
@[simp] theorem State.setLay_framePulse : (s.setLay n ly).framePulse = s.framePulse := rfl
@[simp] theorem State.setBitIf_framePulse : (s.setBitIf c off x).framePulse = s.framePulse := congrArg (·.framePulse) (s.setBitIf_eq off x c)
@[simp] theorem State.setBit_framePulse : (s.setBit off x).framePulse = s.framePulse := rfl
@[simp] theorem State.clrBit_framePulse : (s.clrBit off x).framePulse = s.framePulse := rfl
@[simp] theorem State.settle_framePulse : s.settle.framePulse = s.framePulse := rfl
@[simp] theorem State.setPrt_framePulse : (s.setPrt n pt).framePulse = s.framePulse := rfl
@[simp] theorem State.setTile_framePulse : (s.setTile n tl).framePulse = s.framePulse := rfl
@[simp] theorem State.incr_framePulse : (s.incr off).framePulse = s.framePulse := congrArg (·.framePulse) (s.incr_eq off)
@[simp] theorem State.setBank_framePulse : (s.setBank n bk).framePulse = s.framePulse := rfl
@[simp] theorem State.setVb_framePulse : (s.setVb n by_).framePulse = s.framePulse := rfl
@[simp] theorem State.dropShadow_framePulse : (s.dropShadow off).framePulse = s.framePulse := rfl

/-! ### `ttblAt` -/

@[simp] theorem State.drawn_ttblAt : s.drawn.ttblAt = s.ttblAt := rfl
@[simp] theorem State.setCv_ttblAt : (s.setCv n cv).ttblAt = s.ttblAt := rfl
@[simp] theorem State.setLay_ttblAt : (s.setLay n ly).ttblAt = s.ttblAt := rfl
@[simp] theorem State.setBitIf_ttblAt : (s.setBitIf c off x).ttblAt = s.ttblAt := congrArg (·.ttblAt) (s.setBitIf_eq off x c)
@[simp] theorem State.setBit_ttblAt : (s.setBit off x).ttblAt = s.ttblAt := rfl
@[simp] theorem State.clrBit_ttblAt : (s.clrBit off x).ttblAt = s.ttblAt := rfl
@[simp] theorem State.settle_ttblAt : s.settle.ttblAt = s.ttblAt := rfl
@[simp] theorem State.setPrt_ttblAt : (s.setPrt n pt).ttblAt = s.ttblAt := rfl
@[simp] theorem State.setTile_ttblAt : (s.setTile n tl).ttblAt = s.ttblAt := rfl
@[simp] theorem State.incr_ttblAt : (s.incr off).ttblAt = s.ttblAt := congrArg (·.ttblAt) (s.incr_eq off)
@[simp] theorem State.setBank_ttblAt : (s.setBank n bk).ttblAt = s.ttblAt := rfl
@[simp] theorem State.setVb_ttblAt : (s.setVb n by_).ttblAt = s.ttblAt := rfl
@[simp] theorem State.dropShadow_ttblAt : (s.dropShadow off).ttblAt = s.ttblAt := rfl
@[simp] theorem State.setShadow_ttblAt : (s.setShadow off w).ttblAt = s.ttblAt := rfl
@[simp] theorem State.tick_ttblAt : (s.tick n).ttblAt = s.ttblAt := congrArg (·.ttblAt) (s.tick_eq n)
@[simp] theorem State.setPll_ttblAt : (s.setPll n pl).ttblAt = s.ttblAt := rfl
@[simp] theorem State.setFlw_ttblAt : (s.setFlw n fl).ttblAt = s.ttblAt := rfl
@[simp] theorem State.setFld_ttblAt : (s.setFld off hi lo x).ttblAt = s.ttblAt := rfl
@[simp] theorem State.setReg_ttblAt : (s.setReg off w).ttblAt = s.ttblAt := rfl
@[simp] theorem State.setRn_ttblAt : (s.setRn off x).ttblAt = s.ttblAt := rfl

/-! ### `gainAt` -/

@[simp] theorem State.setPrt_gainAt : (s.setPrt n pt).gainAt = s.gainAt := rfl
@[simp] theorem State.setTile_gainAt : (s.setTile n tl).gainAt = s.gainAt := rfl
@[simp] theorem State.incr_gainAt : (s.incr off).gainAt = s.gainAt := congrArg (·.gainAt) (s.incr_eq off)
@[simp] theorem State.setBank_gainAt : (s.setBank n bk).gainAt = s.gainAt := rfl
@[simp] theorem State.setVb_gainAt : (s.setVb n by_).gainAt = s.gainAt := rfl
@[simp] theorem State.dropShadow_gainAt : (s.dropShadow off).gainAt = s.gainAt := rfl
@[simp] theorem State.setShadow_gainAt : (s.setShadow off w).gainAt = s.gainAt := rfl
@[simp] theorem State.tick_gainAt : (s.tick n).gainAt = s.gainAt := congrArg (·.gainAt) (s.tick_eq n)
@[simp] theorem State.setPll_gainAt : (s.setPll n pl).gainAt = s.gainAt := rfl
@[simp] theorem State.setFlw_gainAt : (s.setFlw n fl).gainAt = s.gainAt := rfl
@[simp] theorem State.setFld_gainAt : (s.setFld off hi lo x).gainAt = s.gainAt := rfl
@[simp] theorem State.setReg_gainAt : (s.setReg off w).gainAt = s.gainAt := rfl
@[simp] theorem State.setRn_gainAt : (s.setRn off x).gainAt = s.gainAt := rfl
@[simp] theorem State.drawn_gainAt : s.drawn.gainAt = s.gainAt := rfl
@[simp] theorem State.setCv_gainAt : (s.setCv n cv).gainAt = s.gainAt := rfl
@[simp] theorem State.setLay_gainAt : (s.setLay n ly).gainAt = s.gainAt := rfl
@[simp] theorem State.setBitIf_gainAt : (s.setBitIf c off x).gainAt = s.gainAt := congrArg (·.gainAt) (s.setBitIf_eq off x c)
@[simp] theorem State.setBit_gainAt : (s.setBit off x).gainAt = s.gainAt := rfl
@[simp] theorem State.clrBit_gainAt : (s.clrBit off x).gainAt = s.gainAt := rfl
@[simp] theorem State.settle_gainAt : s.settle.gainAt = s.gainAt := rfl

/-! ### `bankAt` -/

@[simp] theorem State.tick_bankAt : (s.tick n).bankAt = s.bankAt := congrArg (·.bankAt) (s.tick_eq n)
@[simp] theorem State.setPll_bankAt : (s.setPll n pl).bankAt = s.bankAt := rfl
@[simp] theorem State.setFlw_bankAt : (s.setFlw n fl).bankAt = s.bankAt := rfl
@[simp] theorem State.setFld_bankAt : (s.setFld off hi lo x).bankAt = s.bankAt := rfl
@[simp] theorem State.setReg_bankAt : (s.setReg off w).bankAt = s.bankAt := rfl
@[simp] theorem State.setRn_bankAt : (s.setRn off x).bankAt = s.bankAt := rfl
@[simp] theorem State.drawn_bankAt : s.drawn.bankAt = s.bankAt := rfl
@[simp] theorem State.setCv_bankAt : (s.setCv n cv).bankAt = s.bankAt := rfl
@[simp] theorem State.setLay_bankAt : (s.setLay n ly).bankAt = s.bankAt := rfl
@[simp] theorem State.setBitIf_bankAt : (s.setBitIf c off x).bankAt = s.bankAt := congrArg (·.bankAt) (s.setBitIf_eq off x c)
@[simp] theorem State.setBit_bankAt : (s.setBit off x).bankAt = s.bankAt := rfl
@[simp] theorem State.clrBit_bankAt : (s.clrBit off x).bankAt = s.bankAt := rfl
@[simp] theorem State.settle_bankAt : s.settle.bankAt = s.bankAt := rfl
@[simp] theorem State.setPrt_bankAt : (s.setPrt n pt).bankAt = s.bankAt := rfl
@[simp] theorem State.setTile_bankAt : (s.setTile n tl).bankAt = s.bankAt := rfl
@[simp] theorem State.incr_bankAt : (s.incr off).bankAt = s.bankAt := congrArg (·.bankAt) (s.incr_eq off)
@[simp] theorem State.setBank_bankAt : (s.setBank n bk).bankAt = s.bankAt := rfl
@[simp] theorem State.setVb_bankAt : (s.setVb n by_).bankAt = s.bankAt := rfl
@[simp] theorem State.dropShadow_bankAt : (s.dropShadow off).bankAt = s.bankAt := rfl
@[simp] theorem State.setShadow_bankAt : (s.setShadow off w).bankAt = s.bankAt := rfl

/-! ### `pulses` -/

@[simp] theorem State.setCv_pulses : (s.setCv n cv).pulses = s.pulses := rfl
@[simp] theorem State.setLay_pulses : (s.setLay n ly).pulses = s.pulses := rfl
@[simp] theorem State.setBitIf_pulses : (s.setBitIf c off x).pulses = s.pulses := congrArg (·.pulses) (s.setBitIf_eq off x c)
@[simp] theorem State.setBit_pulses : (s.setBit off x).pulses = s.pulses := rfl
@[simp] theorem State.clrBit_pulses : (s.clrBit off x).pulses = s.pulses := rfl
@[simp] theorem State.settle_pulses : s.settle.pulses = s.pulses := rfl
@[simp] theorem State.setPrt_pulses : (s.setPrt n pt).pulses = s.pulses := rfl
@[simp] theorem State.setTile_pulses : (s.setTile n tl).pulses = s.pulses := rfl
@[simp] theorem State.incr_pulses : (s.incr off).pulses = s.pulses := congrArg (·.pulses) (s.incr_eq off)
@[simp] theorem State.setBank_pulses : (s.setBank n bk).pulses = s.pulses := rfl
@[simp] theorem State.setVb_pulses : (s.setVb n by_).pulses = s.pulses := rfl
@[simp] theorem State.dropShadow_pulses : (s.dropShadow off).pulses = s.pulses := rfl
@[simp] theorem State.setShadow_pulses : (s.setShadow off w).pulses = s.pulses := rfl
@[simp] theorem State.setPll_pulses : (s.setPll n pl).pulses = s.pulses := rfl
@[simp] theorem State.setFlw_pulses : (s.setFlw n fl).pulses = s.pulses := rfl
@[simp] theorem State.setFld_pulses : (s.setFld off hi lo x).pulses = s.pulses := rfl
@[simp] theorem State.setReg_pulses : (s.setReg off w).pulses = s.pulses := rfl
@[simp] theorem State.setRn_pulses : (s.setRn off x).pulses = s.pulses := rfl
@[simp] theorem State.drawn_pulses : s.drawn.pulses = s.pulses := rfl

/-! ### `pcie` -/

@[simp] theorem State.setTile_pcie : (s.setTile n tl).pcie = s.pcie := rfl
@[simp] theorem State.incr_pcie : (s.incr off).pcie = s.pcie := congrArg (·.pcie) (s.incr_eq off)
@[simp] theorem State.setBank_pcie : (s.setBank n bk).pcie = s.pcie := rfl
@[simp] theorem State.setVb_pcie : (s.setVb n by_).pcie = s.pcie := rfl
@[simp] theorem State.dropShadow_pcie : (s.dropShadow off).pcie = s.pcie := rfl
@[simp] theorem State.setShadow_pcie : (s.setShadow off w).pcie = s.pcie := rfl
@[simp] theorem State.tick_pcie : (s.tick n).pcie = s.pcie := congrArg (·.pcie) (s.tick_eq n)
@[simp] theorem State.setPll_pcie : (s.setPll n pl).pcie = s.pcie := rfl
@[simp] theorem State.setFlw_pcie : (s.setFlw n fl).pcie = s.pcie := rfl
@[simp] theorem State.setFld_pcie : (s.setFld off hi lo x).pcie = s.pcie := rfl
@[simp] theorem State.setReg_pcie : (s.setReg off w).pcie = s.pcie := rfl
@[simp] theorem State.setRn_pcie : (s.setRn off x).pcie = s.pcie := rfl
@[simp] theorem State.drawn_pcie : s.drawn.pcie = s.pcie := rfl
@[simp] theorem State.setCv_pcie : (s.setCv n cv).pcie = s.pcie := rfl
@[simp] theorem State.setLay_pcie : (s.setLay n ly).pcie = s.pcie := rfl
@[simp] theorem State.setBitIf_pcie : (s.setBitIf c off x).pcie = s.pcie := congrArg (·.pcie) (s.setBitIf_eq off x c)
@[simp] theorem State.setBit_pcie : (s.setBit off x).pcie = s.pcie := rfl
@[simp] theorem State.clrBit_pcie : (s.clrBit off x).pcie = s.pcie := rfl
@[simp] theorem State.setPrt_pcie : (s.setPrt n pt).pcie = s.pcie := rfl

/-! ### `turnkey` -/

@[simp] theorem State.setPll_turnkey : (s.setPll n pl).turnkey = s.turnkey := rfl
@[simp] theorem State.setFlw_turnkey : (s.setFlw n fl).turnkey = s.turnkey := rfl
@[simp] theorem State.setFld_turnkey : (s.setFld off hi lo x).turnkey = s.turnkey := rfl
@[simp] theorem State.setReg_turnkey : (s.setReg off w).turnkey = s.turnkey := rfl
@[simp] theorem State.setRn_turnkey : (s.setRn off x).turnkey = s.turnkey := rfl
@[simp] theorem State.drawn_turnkey : s.drawn.turnkey = s.turnkey := rfl
@[simp] theorem State.setCv_turnkey : (s.setCv n cv).turnkey = s.turnkey := rfl
@[simp] theorem State.setLay_turnkey : (s.setLay n ly).turnkey = s.turnkey := rfl
@[simp] theorem State.setBitIf_turnkey : (s.setBitIf c off x).turnkey = s.turnkey := congrArg (·.turnkey) (s.setBitIf_eq off x c)
@[simp] theorem State.setBit_turnkey : (s.setBit off x).turnkey = s.turnkey := rfl
@[simp] theorem State.clrBit_turnkey : (s.clrBit off x).turnkey = s.turnkey := rfl
@[simp] theorem State.settle_turnkey : s.settle.turnkey = s.turnkey := rfl
@[simp] theorem State.setPrt_turnkey : (s.setPrt n pt).turnkey = s.turnkey := rfl
@[simp] theorem State.setTile_turnkey : (s.setTile n tl).turnkey = s.turnkey := rfl
@[simp] theorem State.incr_turnkey : (s.incr off).turnkey = s.turnkey := congrArg (·.turnkey) (s.incr_eq off)
@[simp] theorem State.setBank_turnkey : (s.setBank n bk).turnkey = s.turnkey := rfl
@[simp] theorem State.setVb_turnkey : (s.setVb n by_).turnkey = s.turnkey := rfl
@[simp] theorem State.dropShadow_turnkey : (s.dropShadow off).turnkey = s.turnkey := rfl
@[simp] theorem State.setShadow_turnkey : (s.setShadow off w).turnkey = s.turnkey := rfl
@[simp] theorem State.tick_turnkey : (s.tick n).turnkey = s.turnkey := congrArg (·.turnkey) (s.tick_eq n)

/-! ### `tx` -/

@[simp] theorem State.setLay_tx : (s.setLay n ly).tx = s.tx := rfl
@[simp] theorem State.setBitIf_tx : (s.setBitIf c off x).tx = s.tx := congrArg (·.tx) (s.setBitIf_eq off x c)
@[simp] theorem State.setBit_tx : (s.setBit off x).tx = s.tx := rfl
@[simp] theorem State.clrBit_tx : (s.clrBit off x).tx = s.tx := rfl
@[simp] theorem State.setPrt_tx : (s.setPrt n pt).tx = s.tx := rfl
@[simp] theorem State.setTile_tx : (s.setTile n tl).tx = s.tx := rfl
@[simp] theorem State.incr_tx : (s.incr off).tx = s.tx := congrArg (·.tx) (s.incr_eq off)
@[simp] theorem State.setBank_tx : (s.setBank n bk).tx = s.tx := rfl
@[simp] theorem State.setVb_tx : (s.setVb n by_).tx = s.tx := rfl
@[simp] theorem State.dropShadow_tx : (s.dropShadow off).tx = s.tx := rfl
@[simp] theorem State.setShadow_tx : (s.setShadow off w).tx = s.tx := rfl
@[simp] theorem State.setPll_tx : (s.setPll n pl).tx = s.tx := rfl
@[simp] theorem State.setFlw_tx : (s.setFlw n fl).tx = s.tx := rfl
@[simp] theorem State.setFld_tx : (s.setFld off hi lo x).tx = s.tx := rfl
@[simp] theorem State.setReg_tx : (s.setReg off w).tx = s.tx := rfl
@[simp] theorem State.setRn_tx : (s.setRn off x).tx = s.tx := rfl
@[simp] theorem State.drawn_tx : s.drawn.tx = s.tx := rfl
@[simp] theorem State.setCv_tx : (s.setCv n cv).tx = s.tx := rfl

/-! ### `out` -/

@[simp] theorem State.incr_out : (s.incr off).out = s.out := congrArg (·.out) (s.incr_eq off)
@[simp] theorem State.setBank_out : (s.setBank n bk).out = s.out := rfl
@[simp] theorem State.setVb_out : (s.setVb n by_).out = s.out := rfl
@[simp] theorem State.dropShadow_out : (s.dropShadow off).out = s.out := rfl
@[simp] theorem State.setShadow_out : (s.setShadow off w).out = s.out := rfl
@[simp] theorem State.tick_out : (s.tick n).out = s.out := congrArg (·.out) (s.tick_eq n)
@[simp] theorem State.setPll_out : (s.setPll n pl).out = s.out := rfl
@[simp] theorem State.setFlw_out : (s.setFlw n fl).out = s.out := rfl
@[simp] theorem State.setFld_out : (s.setFld off hi lo x).out = s.out := rfl
@[simp] theorem State.setReg_out : (s.setReg off w).out = s.out := rfl
@[simp] theorem State.setRn_out : (s.setRn off x).out = s.out := rfl
@[simp] theorem State.drawn_out : s.drawn.out = s.out := rfl
@[simp] theorem State.setCv_out : (s.setCv n cv).out = s.out := rfl
@[simp] theorem State.setLay_out : (s.setLay n ly).out = s.out := rfl
@[simp] theorem State.setBitIf_out : (s.setBitIf c off x).out = s.out := congrArg (·.out) (s.setBitIf_eq off x c)
@[simp] theorem State.setBit_out : (s.setBit off x).out = s.out := rfl
@[simp] theorem State.clrBit_out : (s.clrBit off x).out = s.out := rfl
@[simp] theorem State.setPrt_out : (s.setPrt n pt).out = s.out := rfl
@[simp] theorem State.setTile_out : (s.setTile n tl).out = s.out := rfl

end Sys2Proof.Machine
end

