-- ==== Sys2Proof/Laws/Regs.lean ====
section
/-! SUPPORT. Register homes: a read after a write, and fields and bits of a word. -/
namespace Sys2Proof.Machine

/-! ### Words and bits -/

/-- Bit `b` of a number, as a field of one bit, is 1 exactly when the bit is set. -/
theorem bitsOf_bit (w b : Nat) : bitsOf w b b = if w.testBit b then 1 else 0 := by
  have h : b + 1 - b = 1 := by omega
  rw [bitsOf, h, Nat.pow_one, Nat.testBit_eq_decide_div_mod_eq, Nat.shiftRight_eq_div_pow]
  by_cases hm : w / 2 ^ b % 2 = 1
  · simp [hm]
  · have : w / 2 ^ b % 2 = 0 := by omega
    simp [this]

/-- A field is below the power of its width. -/
theorem bitsOf_lt (w hi lo : Nat) : bitsOf w hi lo < 2 ^ (hi + 1 - lo) := Nat.mod_lt _ (Nat.two_pow_pos _)

/-- Setting a field to what fits into it makes it read so. -/
theorem bitsOf_putBits (w x : Nat) {hi lo : Nat} (h : lo ≤ hi) : bitsOf (putBits w hi lo x) hi lo = x % 2 ^ (hi + 1 - lo) := by
  have e : (2 : Nat) ^ (hi + 1) = 2 ^ lo * 2 ^ (hi + 1 - lo) := by rw [← Nat.pow_add]; congr 1; omega
  have d : putBits w hi lo x / 2 ^ lo = x % 2 ^ (hi + 1 - lo) + 2 ^ (hi + 1 - lo) * (w >>> (hi + 1)) := by
    unfold putBits
    rw [e, Nat.mul_comm (w >>> (hi + 1)), Nat.mul_assoc, Nat.mul_comm (x % _) (2 ^ lo), Nat.add_assoc, ← Nat.mul_add,
      Nat.add_mul_div_left _ _ (Nat.two_pow_pos lo), Nat.div_eq_of_lt (Nat.mod_lt _ (Nat.two_pow_pos lo)), Nat.zero_add]
  rw [bitsOf, Nat.shiftRight_eq_div_pow, d, Nat.add_mul_mod_self_left, Nat.mod_mod]

/-- A word of 32 bits stays one when a field of it is set. -/
theorem putBits_lt {w hi lo : Nat} (x : Nat) (h : lo ≤ hi) (hh : hi < 32) (hw : w < 2 ^ 32) : putBits w hi lo x < 2 ^ 32 := by
  have e : (2 : Nat) ^ (hi + 1) = 2 ^ lo * 2 ^ (hi + 1 - lo) := by rw [← Nat.pow_add]; congr 1; omega
  have e32 : (2 : Nat) ^ 32 = 2 ^ (hi + 1) * 2 ^ (31 - hi) := by rw [← Nat.pow_add]; congr 1; omega
  have h1 : w % 2 ^ lo < 2 ^ lo := Nat.mod_lt _ (Nat.two_pow_pos _)
  have h2 : x % 2 ^ (hi + 1 - lo) < 2 ^ (hi + 1 - lo) := Nat.mod_lt _ (Nat.two_pow_pos _)
  have h3 : w >>> (hi + 1) < 2 ^ (31 - hi) := by
    rw [Nat.shiftRight_eq_div_pow]
    exact Nat.div_lt_of_lt_mul (by rw [← e32]; exact hw)
  have h4 : w % 2 ^ lo + (x % 2 ^ (hi + 1 - lo)) * 2 ^ lo < 2 ^ (hi + 1) := by
    have : (x % 2 ^ (hi + 1 - lo) + 1) * 2 ^ lo ≤ 2 ^ (hi + 1 - lo) * 2 ^ lo := Nat.mul_le_mul_right _ h2
    rw [e, Nat.mul_comm (2 ^ lo)]
    rw [Nat.add_mul, Nat.one_mul] at this
    omega
  have h5 : (w >>> (hi + 1) + 1) * 2 ^ (hi + 1) ≤ 2 ^ (31 - hi) * 2 ^ (hi + 1) := Nat.mul_le_mul_right _ h3
  rw [Nat.add_mul, Nat.one_mul] at h5
  rw [e32, Nat.mul_comm (2 ^ (hi + 1))]
  unfold putBits
  omega

/-! ### Homes -/

@[simp] theorem State.reg_setReg_same (s : State) (off : Nat) (v : Word) : (s.setReg off v).reg off = v := by
  simp [State.reg]

theorem State.reg_setReg_other (s : State) {a b : Nat} (v : Word) (h : a ≠ b) : (s.setReg b v).reg a = s.reg a := by
  simp [State.reg, mget_mset_other _ _ _ _ h]

theorem State.reg_setRn_other (s : State) {a b : Nat} (v : Nat) (h : a ≠ b) : (s.setRn b v).reg a = s.reg a :=
  s.reg_setReg_other _ h

theorem State.reg_setFld_other (s : State) {a b : Nat} (hi lo x : Nat) (h : a ≠ b) : (s.setFld b hi lo x).reg a = s.reg a :=
  s.reg_setReg_other _ h

theorem State.reg_setBit_other (s : State) {a b : Nat} (k : Nat) (h : a ≠ b) : (s.setBit b k).reg a = s.reg a :=
  s.reg_setReg_other _ h

theorem State.reg_clrBit_other (s : State) {a b : Nat} (k : Nat) (h : a ≠ b) : (s.clrBit b k).reg a = s.reg a :=
  s.reg_setReg_other _ h

@[simp] theorem State.rn_setRn_same (s : State) (off v : Nat) : (s.setRn off v).rn off = v % 2 ^ 32 := by
  simp [State.rn, State.setRn]

/-- A field that was set reads what was put in. -/
theorem State.fld_setFld_same (s : State) (off x : Nat) {hi lo : Nat} (h : lo ≤ hi) (hh : hi < 32) :
    (s.setFld off hi lo x).fld off hi lo = x % 2 ^ (hi + 1 - lo) := by
  have hw := putBits_lt x h hh (s.reg off).isLt
  simp only [State.fld, State.rn, State.setFld, State.reg_setReg_same, wput, BitVec.toNat_ofNat, Nat.mod_eq_of_lt hw]
  exact bitsOf_putBits _ _ h

/-- A bit that was set reads 1. -/
theorem State.bit_setBit_same (s : State) (off : Nat) {b : Nat} (h : b < 32) : (s.setBit off b).bit off b = true := by
  have e := s.fld_setFld_same off 1 (Nat.le_refl b) h
  have hb := bitsOf_bit ((s.setBit off b).rn off) b
  have e' : bitsOf ((s.setBit off b).rn off) b b = 1 := by
    have : b + 1 - b = 1 := by omega
    rw [this] at e
    exact e
  rw [e'] at hb
  unfold State.bit
  by_cases c : ((s.setBit off b).rn off).testBit b
  · exact c
  · rw [if_neg c] at hb; omega

/-- A bit that was cleared reads 0. -/
theorem State.bit_clrBit_same (s : State) (off : Nat) {b : Nat} (h : b < 32) : (s.clrBit off b).bit off b = false := by
  have e := s.fld_setFld_same off 0 (Nat.le_refl b) h
  have hb := bitsOf_bit ((s.clrBit off b).rn off) b
  have e' : bitsOf ((s.clrBit off b).rn off) b b = 0 := by
    rw [Nat.zero_mod] at e
    exact e
  rw [e'] at hb
  unfold State.bit
  by_cases c : ((s.clrBit off b).rn off).testBit b
  · rw [if_pos c] at hb; omega
  · simpa using c

/-- Time that passes changes no register. -/
@[simp] theorem State.tick_reg (s : State) (dt off : Nat) : (s.tick dt).reg off = s.reg off := by simp [State.reg]
@[simp] theorem State.tick_rn (s : State) (dt off : Nat) : (s.tick dt).rn off = s.rn off := by simp [State.rn]
@[simp] theorem State.tick_fld (s : State) (dt off hi lo : Nat) : (s.tick dt).fld off hi lo = s.fld off hi lo := by simp [State.fld]
@[simp] theorem State.tick_bit (s : State) (dt off b : Nat) : (s.tick dt).bit off b = s.bit off b := by simp [State.bit]

/-- The outputs follow the registers; bringing them up to date changes no register. -/
@[simp] theorem State.settle_reg (s : State) (off : Nat) : s.settle.reg off = s.reg off := by simp [State.reg]
@[simp] theorem State.settle_rn (s : State) (off : Nat) : s.settle.rn off = s.rn off := by simp [State.rn]
@[simp] theorem State.settle_fld (s : State) (off hi lo : Nat) : s.settle.fld off hi lo = s.fld off hi lo := by simp [State.fld]
@[simp] theorem State.settle_bit (s : State) (off b : Nat) : s.settle.bit off b = s.bit off b := by simp [State.bit]

end Sys2Proof.Machine
end

