-- ==== Sys2Proof/Laws/Rest.lean ====
section
/-! SUPPORT. What the register operations leave alone. -/
namespace Sys2Proof.Machine

@[simp] theorem State.rest_setReg (s : State) (off : Nat) (v : Word) : (s.setReg off v).rest = s.rest := rfl
@[simp] theorem State.rest_setRn (s : State) (off v : Nat) : (s.setRn off v).rest = s.rest := rfl
@[simp] theorem State.rest_setFld (s : State) (off hi lo x : Nat) : (s.setFld off hi lo x).rest = s.rest := rfl
@[simp] theorem State.rest_setBit (s : State) (off b : Nat) : (s.setBit off b).rest = s.rest := rfl
@[simp] theorem State.rest_clrBit (s : State) (off b : Nat) : (s.clrBit off b).rest = s.rest := rfl
@[simp] theorem State.rest_setBitIf (s : State) (c : Bool) (off b : Nat) : (s.setBitIf c off b).rest = s.rest := by
  cases c <;> rfl
@[simp] theorem State.rest_incr (s : State) (off : Nat) : (s.incr off).rest = s.rest := by
  unfold State.incr
  split <;> rfl
@[simp] theorem State.rest_drawn (s : State) : s.drawn.rest = s.rest := rfl
@[simp] theorem State.rest_settle (s : State) : s.settle.rest = s.rest := rfl

@[simp] theorem State.rest_tick (s : State) (dt : Nat) : (s.tick dt).rest = s.rest := by
  rw [s.tick_eq dt]
  rfl

/-- Time and the outputs that follow registers: no register and nothing of the rest changes. -/
theorem OnlyRegs.of_tick {s t : State} {dt : Nat} {offs : List Nat} (h : OnlyRegs (s.tick dt) t offs) : OnlyRegs s t offs := by
  simpa [OnlyRegs] using h

theorem OnlyRegs.settle {s t : State} {offs : List Nat} (h : OnlyRegs s t offs) : OnlyRegs s t.settle offs := by
  simpa [OnlyRegs] using h

theorem OnlyRegs.refl (s : State) (offs : List Nat) : OnlyRegs s s offs := ⟨fun _ _ => rfl, rfl⟩

theorem OnlyRegs.setReg {s t : State} {offs : List Nat} {off : Nat} (v : Word) (h : OnlyRegs s t offs) (m : off ∈ offs) :
    OnlyRegs s (t.setReg off v) offs :=
  ⟨fun o ho => (t.reg_setReg_other v (by rintro rfl; exact ho m)).trans (h.1 o ho), h.2⟩

theorem OnlyRegs.trans {s t u : State} {a : List Nat} (h : OnlyRegs s t a) (k : OnlyRegs t u a) : OnlyRegs s u a :=
  ⟨fun o ho => (k.1 o ho).trans (h.1 o ho), k.2.trans h.2⟩

theorem OnlyRegs.mono {s t : State} {a b : List Nat} (h : OnlyRegs s t a) (k : ∀ x ∈ a, x ∈ b) : OnlyRegs s t b :=
  ⟨fun o ho => h.1 o (fun m => ho (k o m)), h.2⟩

end Sys2Proof.Machine
end

