-- ==== Sys2Proof/Laws/Fabric.lean ====
section
/-! SUPPORT. What a register write does: the judgement of one field, refusals, and which registers they touch. -/
namespace Sys2Proof.Machine

/-! ### Whole words -/

theorem bitsOf_all (v : Word) : bitsOf v.toNat 31 0 = v.toNat := by
  have h := v.isLt
  simp only [bitsOf, Nat.shiftRight_zero]
  exact Nat.mod_eq_of_lt h

theorem wput_all (w v : Word) : wput w 31 0 v.toNat = v := by
  apply BitVec.eq_of_toNat_eq
  have h1 := w.isLt
  have h2 := v.isLt
  have h3 : w.toNat >>> 32 = 0 := by rw [Nat.shiftRight_eq_div_pow]; exact Nat.div_eq_of_lt h1
  simp only [wput, putBits, h3, BitVec.toNat_ofNat]
  omega

/-! ### Refusals (R46) -/

theorem pgViol_ne_pgStat (p : Nat) : pgViol p ≠ pgStat p := by unfold pgViol pgStat; omega

theorem State.violate_only (s : State) (off kind : Nat) :
    OnlyRegs s (s.violate off kind) [pgViol (off / 4096), pgStat (off / 4096)] :=
  OnlyRegs.setReg _ (OnlyRegs.setReg _ (OnlyRegs.refl _ _) (by simp)) (by simp)

/-- R44, R46: PG_VIOL after a refused write. -/
theorem State.violate_word (s : State) (off kind : Nat) :
    (s.violate off kind).rn (pgViol (off / 4096)) = (off % 4096 / 4 * 4 + kind * 2 ^ 12 +
      (if bitsOf (s.rn (pgViol (off / 4096))) 31 31 = 1 then 1 else bitsOf (s.rn (pgViol (off / 4096))) 30 30) * 2 ^ 30 +
      2 ^ 31) % 2 ^ 32 := by
  unfold State.violate State.setBit
  simp only [State.rn]
  rw [State.reg_setFld_other _ _ _ _ (pgViol_ne_pgStat _)]
  simp [State.setRn]

theorem State.violate_shows (s : State) (off : Nat) {kind : Nat} (hk : kind < 8) :
    (s.violate off kind).bit (pgViol (off / 4096)) 31 = true ∧ (s.violate off kind).fld (pgViol (off / 4096)) 14 12 = kind ∧
    (s.violate off kind).fld (pgViol (off / 4096)) 11 0 = off % 4096 / 4 * 4 ∧
    (s.violate off kind).bit (pgStat (off / 4096)) 0 = true := by
  have hb : bitsOf (s.rn (pgViol (off / 4096))) 30 30 < 2 := bitsOf_lt _ 30 30
  refine ⟨?_, ?_, ?_, State.bit_setBit_same _ _ (by omega)⟩
  · rw [State.bit, violate_word, Nat.testBit_eq_decide_div_mod_eq]
    split <;> simp <;> omega
  · rw [State.fld, violate_word, bitsOf, Nat.shiftRight_eq_div_pow]
    split <;> simp <;> omega
  · rw [State.fld, violate_word, bitsOf, Nat.shiftRight_eq_div_pow]
    split <;> simp <;> omega

theorem State.setBit_only (s : State) (off b : Nat) : OnlyRegs s (s.setBit off b) [off] :=
  OnlyRegs.setReg _ (OnlyRegs.refl _ _) (by simp)

/-! ### One field (R46) -/

/-- R46: what becomes of one RW field of class IM: nothing where it keeps its value, KIND 1 where it is locked, KIND 3 where the
value is refused; else the value lands. -/
theorem judgeField_one (locked : Bool) (v : Nat) (extra : Nat → Nat → Bool) (act sh : Word) (hi lo : Nat) (lk : Bool) (ok : List (Nat × Nat)) :
    judgeField locked v extra ⟨act, sh, [], false, false, false⟩ ⟨hi, lo, .rw, .im, lk, ok⟩ =
      if bitsOf v hi lo = bitsOf act.toNat hi lo then ⟨act, sh, [], false, false, false⟩
      else if lk && locked then ⟨act, sh, [1], false, false, false⟩
      else if !accepts ⟨hi, lo, .rw, .im, lk, ok⟩ (bitsOf v hi lo) || extra lo (bitsOf v hi lo) then ⟨act, sh, [3], false, false, false⟩
      else ⟨wput act hi lo (bitsOf v hi lo), sh, [], true, false, false⟩ := rfl

/-- The judgement of a register whose one field is RW and IM. -/
theorem State.land_one (s : State) (off a b c d : Nat) (hi lo : Nat) (lk : Bool) (ok : List (Nat × Nat)) (v : Word)
    (extra : Nat → Nat → Bool) :
    (s.land off ⟨a, b, c, d, [⟨hi, lo, .rw, .im, lk, ok⟩]⟩ v extra).1 =
      if bitsOf v.toNat hi lo = s.fld off hi lo then s.setReg off (s.reg off)
      else if lk && s.locked (off / 4096) then ((s.setReg off (s.reg off)).violate off 1).lockViolation
      else if !accepts ⟨hi, lo, .rw, .im, lk, ok⟩ (bitsOf v.toNat hi lo) || extra lo (bitsOf v.toNat hi lo) then
        (s.setReg off (s.reg off)).violate off 3
      else s.setReg off (wput (s.reg off) hi lo (bitsOf v.toNat hi lo)) := by
  simp only [State.land, List.foldl, judgeField_one, State.fld, State.rn]
  repeat' split
  all_goals simp_all

/-- The judgement of a register of one RW field that covers the word. -/
theorem State.land_whole (s : State) (off a b c d : Nat) (v : Word) :
    (s.land off ⟨a, b, c, d, [⟨31, 0, .rw, .im, false, []⟩]⟩ v fun _ _ => false).1 = s.setReg off v := by
  rw [State.land_one, State.fld, State.rn, bitsOf_all, bitsOf_all]
  by_cases h : v.toNat = (s.reg off).toNat
  · have e : v = s.reg off := BitVec.eq_of_toNat_eq h
    rw [if_pos h, e]
  · rw [if_neg h]
    simp [accepts, wput_all]

@[simp] theorem State.tick_peerRefused (s : State) (dt req : Nat) : (s.tick dt).peerRefused req = s.peerRefused req := by
  simp [State.peerRefused]

@[simp] theorem State.tick_locked (s : State) (dt page : Nat) : (s.tick dt).locked page = s.locked page := by simp [State.locked]

end Sys2Proof.Machine
end

