-- ==== Sys2Proof/Laws/Memory.lean ====
section
/-! SUPPORT. Every memory operation keeps DRAM and the vault in the canonical form; what a write does to later reads. -/
namespace Sys2Proof.Machine

/-- The byte memories in the canonical form. -/
theorem reset_memory_wf : Memory.wf State.reset.dram ∧ Memory.wf State.reset.vault.bytes := by decide

theorem State.wrByte_wf {s : State} (a : Nat) (b : Byte) (h : Memory.wf s.dram) : Memory.wf (s.wrByte a b).dram := by
  unfold State.wrByte
  split
  · exact h
  · split
    · exact h
    · exact mset_wf (d := fun _ => (0 : Byte)) _ _ h

theorem State.setPoison_dram (s : State) (a : Nat) (p : Bool) : (s.setPoison a p).dram = s.dram := by
  unfold State.setPoison
  split <;> rfl

/-- A request that reaches a channel changes no byte. -/
@[simp] theorem State.reachChan_dram (s : State) (c : Nat) : (s.reachChan c).dram = s.dram := by
  show (s.srTouch c).dram = s.dram
  unfold State.srTouch
  split
  · simp
  · exact State.setBitIf_dram ..
  · rfl

@[simp] theorem State.reach_dram (s : State) (a n : Nat) : (s.reach a n).dram = s.dram := by
  refine List.foldlRecOn (motive := fun t : State => t.dram = s.dram) _ _ rfl fun t h i _ => ?_
  rw [← h]
  split
  · exact t.reachChan_dram _
  · rfl

theorem State.wrBytes_wf {s : State} (a : Nat) (l : List Byte) (h : Memory.wf s.dram) : Memory.wf (s.wrBytes a l).dram :=
  List.foldlRecOn (motive := fun t : State => Memory.wf t.dram) _ _
    (List.foldlRecOn (motive := fun t : State => Memory.wf t.dram) _ _ (by simpa using h) fun t k x _ => t.wrByte_wf _ _ k)
    fun t k _ _ => by rwa [State.setPoison_dram]

theorem State.setVb_wf {s : State} (a : Nat) (b : Byte) (h : Memory.wf s.vault.bytes) : Memory.wf (s.setVb a b).vault.bytes :=
  mset_wf (d := fun _ => (0 : Byte)) _ _ h

theorem State.zeroRank_wf {s : State} (c r : Nat) (h : Memory.wf s.dram) : Memory.wf (s.zeroRank c r).dram := by
  unfold State.zeroRank
  exact filter_wf _ h

theorem State.acceptWrite_wf {s : State} (c k : Nat) (r : MemReq) (h : Memory.wf s.dram) : Memory.wf (s.acceptWrite c k r).dram := by
  have h1 := List.foldlRecOn (motive := fun t : State => Memory.wf t.dram) ((r.data.getD []).zipIdx)
    (fun (s : State) (x : Option Byte × Nat) => match x.1 with | some b => s.wrByte (r.addr + x.2) b | none => s) h fun t w x _ => by
      obtain ⟨_ | b, i⟩ := x
      · exact w
      · exact t.wrByte_wf _ _ w
  unfold State.acceptWrite
  rw [State.setBitIf_dram]
  change Memory.wf (ite _ _ _ : State).dram
  split
  · exact h1
  · rwa [State.setPoison_dram]

theorem State.copyBurst_wf {s : State} (a b : Nat) (bad : Bool) (h : Memory.wf s.dram) : Memory.wf (s.copyBurst a b bad).dram :=
  mrun_wf _ _ h

theorem State.copyGranule_wf {s : State} (g n : Nat) (h : Memory.wf s.vault.bytes) : Memory.wf (s.copyGranule g n).vault.bytes :=
  mrun_wf _ _ h

theorem State.fillRow_wf {s : State} (c sub r : Nat) (h : Memory.wf s.dram) : Memory.wf (s.fillRow c sub r).dram :=
  List.foldlRecOn (motive := Memory.wf) _ _ h fun _ w _ _ => mrun_wf _ _ w

theorem writeBank_wf (b : Bank) (bankB : Bool) (fuel : Nat) : ∀ (i : Nat) (l : List Byte) (m : List Host.Cell),
    Memory.wf m → Memory.wf (writeBank b bankB fuel i l m) := by
  induction fuel with
  | zero => exact fun _ _ _ h => h
  | succ n ih =>
    intro i l m h
    unfold writeBank
    split
    · exact h
    · exact ih _ _ _ (mrun_wf _ _ h)

/-- A byte written where an address lies reads back there. -/
theorem State.wrByte_here {s : State} {a c r k : Nat} (b : Byte) (hp : s.place a = some (c, r, k)) (hl : s.rankLost c r = false) :
    mget (s.wrByte a b).dram k 0 = b := by
  simp [State.wrByte, hp, hl]

/-- It leaves every other place alone. -/
theorem State.wrByte_elsewhere {s : State} {a c r k j : Nat} (b : Byte) (hp : s.place a = some (c, r, k)) (hj : j ≠ k) :
    mget (s.wrByte a b).dram j 0 = mget s.dram j 0 := by
  simp only [State.wrByte, hp]
  split
  · rfl
  · exact mget_mset_other _ _ _ _ hj

end Sys2Proof.Machine
end

