-- ==== Sys2Proof/Laws/Step.lean ====
section
/-! SUPPORT. How meanings end and what a step is. -/
namespace Sys2Proof.Machine

/-- What the outputs are depends on nothing that bringing them up to date changes. -/
theorem State.outputs_settle (s : State) : s.settle.outputs = s.outputs := rfl

/-- R63, R344: a meaning that ends leaves its outputs up to date. -/
theorem done_settled {s t : State} (h : done s = .next t) : t.Settled := by
  cases h
  exact (State.outputs_settle s).symm

/-- A meaning that ends completes. -/
theorem done_completes (s : State) : Completes (done s) := ⟨s.settle, rfl⟩

/-- With no command waiting a step changes nothing. -/
theorem step_idle {s : State} (h : s.pending = []) : step s = .next s := by simp [step, h]

end Sys2Proof.Machine
end

