-- ==== Sys2Proof/WellFormed.lean ====
section
/-! DEFINITION. Which commands are well formed: operands in the ranges that the interfaces of the block can carry. A meaning is
total on ill-formed ones too. -/
namespace Sys2Proof
open Sys2Proof.Machine

/-- The time since the command before: below the wrap of wall time (R8). -/
def dtOk (dt : Nat) : Bool := dt < 2 ^ 64

/-- R41: a page of BAR0. -/
def pageOk (page : Nat) : Bool := page < 512

/-- R52: Tumblers of a canvas, each named once. -/
def begunOk (l : List Nat) : Bool := l.all (· < 9) && l.Nodup

/-- At most `n` bytes. -/
def bytesOk (n : Nat) (l : List Byte) : Bool := l.length ≤ n
def optBytesOk (n : Nat) (o : Option (List Byte)) : Bool := match o with | some l => bytesOk n l | none => true

/-- A frame of a link, from its destination address through the FCS. -/
def frameOk (l : List Byte) : Bool := 18 ≤ l.length && l.length ≤ 9216

/-- R254, R270: the DIMMs of different channels, with values that the registers can hold. -/
def dimmOk (d : Dimm) : Bool := d.channel < 8 && d.ranks < 2 ^ 32 && d.trained < 16 && d.banks.all fun x => x.1 < 65536 && x.2 < 1024
def dimmsOk (l : List Dimm) : Bool := l.all dimmOk && (l.map (·.channel)).Nodup

/-- A command is well formed. -/
def Instr.wf (i : Instr) : Bool :=
  match i with
  | .registerWrite dt req off size _ => dtOk dt && knownReq req && accessOk off size
  | .readClear dt req off size => dtOk dt && knownReq req && accessOk off size
  | .pgLockWrite dt req page _ => dtOk dt && knownReq req && pageOk page
  | .pgLatchWrite dt req page _ => dtOk dt && knownReq req && pageOk page
  | .powerOnReset dt straps _ => dtOk dt && straps < 256
  | .resetN dt straps => dtOk dt && straps < 256
  | .softReset dt req => dtOk dt && knownReq req
  | .pcieReset dt _ => dtOk dt
  | .fire dt req _ begun => dtOk dt && knownReq req && begunOk begun
  | .timeTriggerArm dt req _ _ => dtOk dt && knownReq req
  | .lineTriggerArm dt req _ _ => dtOk dt && knownReq req
  | .wardVerdict dt begun => dtOk dt && begunOk begun
  | .timeTriggerFire dt _ begun => dtOk dt && begunOk begun
  | .tumblerLatchLine dt _ _ => dtOk dt
  | .ceilWrite dt req _ => dtOk dt && knownReq req
  | .retxWrite dt req _ => dtOk dt && knownReq req
  | .marginWrite dt req _ => dtOk dt && knownReq req
  | .readmissionVerdict dt begun => dtOk dt && begunOk begun
  | .restoration dt => dtOk dt
  | .compositionStart dt _ _ begun => dtOk dt && begunOk begun
  | .latchInstant dt _ => dtOk dt
  | .waitLimit dt _ begun => dtOk dt && begunOk begun
  | .deliveryComplete dt _ => dtOk dt
  | .latchRepeat dt _ => dtOk dt
  | .frameDeadline dt _ => dtOk dt
  | .voidLatch dt _ => dtOk dt
  | .underrun dt _ => dtOk dt
  | .vote dt _ frame => dtOk dt && frameOk frame
  | .voteTimeout dt _ => dtOk dt
  | .framePulse dt => dtOk dt
  | .hingeStart dt req _ _ => dtOk dt && knownReq req
  | .hingeReconfigDone dt _ => dtOk dt
  | .hingeDeadline dt _ => dtOk dt
  | .holdRepeat dt _ => dtOk dt
  | .bindCutoff dt _ _ line x => dtOk dt && line < 16384 && x < 32768
  | .coefDataWrite dt req _ _ => dtOk dt && knownReq req
  | .coefDataRead dt req _ => dtOk dt && knownReq req
  | .toneDataWrite dt req _ => dtOk dt && knownReq req
  | .toneDataRead dt req => dtOk dt && knownReq req
  | .lutDataWrite dt req _ _ => dtOk dt && knownReq req
  | .lutDataRead dt req _ => dtOk dt && knownReq req
  | .sweepPassStart dt => dtOk dt
  | .wearVisit dt newest other => dtOk dt && optBytesOk 1048576 newest && optBytesOk 1048576 other
  | .sweepPassEnd dt => dtOk dt
  | .checkpointDue dt => dtOk dt
  | .ckptNow dt req => dtOk dt && knownReq req
  | .ckptEraseDone dt => dtOk dt
  | .ckptBlockFail dt block => dtOk dt && block < 16384
  | .ckptBodyDone dt => dtOk dt
  | .ckptRecordReadback dt _ => dtOk dt
  | .ckptRestore dt req => dtOk dt && knownReq req
  | .ckptRestoreDone dt slotA slotB => dtOk dt && bytesOk 536870912 slotA && bytesOk 536870912 slotB
  | .granuleRelocation dt => dtOk dt
  | .vaultError dt addr _ _ => dtOk dt && addr < 2 ^ 29
  | .sectionSpareCopy dt _ => dtOk dt
  | .vaultScrub dt errors => dtOk dt && errors.all fun a => a < 2 ^ 29
  | .bar4Read dt req off len => dtOk dt && knownReq req && off < 2 ^ 29 && len ≤ 4096
  | .bar4Write dt req off data => dtOk dt && knownReq req && off < 2 ^ 29 && bytesOk 4096 data
  | .throughLineStart dt _ line => dtOk dt && line < 16384
  | .throughDeliveryStart dt _ => dtOk dt
  | .readbackVerdict dt _ back => dtOk dt && bytesOk 16384 back
  | .linkUp dt _ grid => dtOk dt && grid < 2 ^ 64
  | .linkDown dt _ => dtOk dt
  | .discoverTimer dt _ => dtOk dt
  | .announce dt _ frame => dtOk dt && frameOk frame
  | .assignTimeout dt _ => dtOk dt
  | .conflictSettle dt _ => dtOk dt
  | .timePeriod dt _ => dtOk dt
  | .echoRound dt => dtOk dt
  | .echo dt _ frame t4 => dtOk dt && frameOk frame && t4 < 2 ^ 64
  | .configReply dt _ frame => dtOk dt && frameOk frame
  | .configRetry dt _ => dtOk dt
  | .status dt _ frame => dtOk dt && frameOk frame
  | .event dt _ frame => dtOk dt && frameOk frame
  | .nack dt _ frame => dtOk dt && frameOk frame
  | .tileLost dt _ => dtOk dt
  | .loopTimeMiss dt _ => dtOk dt
  | .failoverSweepDone dt _ => dtOk dt
  | .failoverSwitch dt _ => dtOk dt
  | .revert dt _ => dtOk dt
  | .ttblRead dt req => dtOk dt && knownReq req
  | .ttblWrite dt req => dtOk dt && knownReq req
  | .release dt req => dtOk dt && knownReq req
  | .discover dt req => dtOk dt && knownReq req
  | .twrite dt req => dtOk dt && knownReq req
  | .tread dt req => dtOk dt && knownReq req
  | .clrAnn dt req => dtOk dt && knownReq req
  | .ttblEcho dt req => dtOk dt && knownReq req
  | .tileAccessTimeout dt => dtOk dt
  | .frameEnqueue dt _ _ frame => dtOk dt && frameOk frame
  | .frameTxEnd dt _ => dtOk dt
  | .gateChange dt _ => dtOk dt
  | .shaperRefill dt _ => dtOk dt
  | .gateDataWrite dt req _ _ => dtOk dt && knownReq req
  | .gateDataRead dt req _ => dtOk dt && knownReq req
  | .takeover dt _ => dtOk dt
  | .load dt req _ => dtOk dt && knownReq req
  | .restart dt req _ => dtOk dt && knownReq req
  | .shaperDataWrite dt req _ => dtOk dt && knownReq req
  | .memoryRequest dt _ addr data => dtOk dt && addr < 2 ^ 41 && optBytesOk 64 data
  | .commandSlot dt _ _ errors => dtOk dt && errors.length ≤ 3
  | .refreshDue dt _ _ => dtOk dt
  | .fspStart dt req _ => dtOk dt && knownReq req
  | .fspChangeDone dt begun => dtOk dt && begunOk begun
  | .writeRead dt req _ => dtOk dt && knownReq req
  | .trainRead dt req _ => dtOk dt && knownReq req
  | .caLoop dt req _ => dtOk dt && knownReq req
  | .mrw dt req _ => dtOk dt && knownReq req
  | .mrr dt req _ => dtOk dt && knownReq req
  | .trainingDone dt fails errors => dtOk dt && fails < 1024 && errors < 4096
  | .dlyDataWrite dt req _ => dtOk dt && knownReq req
  | .trainedWrite dt req _ => dtOk dt && knownReq req
  | .ilvWrite dt req _ _ => dtOk dt && knownReq req
  | .spareWrite dt req _ _ => dtOk dt && knownReq req
  | .migrationUnit dt _ errors => dtOk dt && errors.length ≤ 3
  | .patrolScrub dt errors => dtOk dt && errors.length ≤ 3
  | .srRequest dt req _ _ => dtOk dt && knownReq req
  | .srEntry dt _ => dtOk dt
  | .srExitDone dt _ => dtOk dt
  | .srIdle dt _ => dtOk dt
  | .zeroingDone dt _ _ => dtOk dt
  | .start dt req _ => dtOk dt && knownReq req
  | .abort dt req _ => dtOk dt && knownReq req
  | .eventTimer dt _ => dtOk dt
  | .requestLine dt line => dtOk dt && line < 64
  | .unitAccepted dt _ data => dtOk dt && bytesOk 65536 data
  | .unitFailure dt _ code => dtOk dt && code < 16
  | .descriptorEnd dt _ => dtOk dt
  | .nextWrite dt req _ _ _ => dtOk dt && knownReq req
  | .nextValidWrite dt req _ _ => dtOk dt && knownReq req
  | .reserve dt req _ => dtOk dt && knownReq req
  | .reservationVerdict dt => dtOk dt
  | .rsvRelease dt req _ => dtOk dt && knownReq req
  | .sparesWrite dt req _ => dtOk dt && knownReq req
  | .vinLow dt mv => dtOk dt && mv < 65536
  | .vinNormal dt mv => dtOk dt && mv < 65536
  | .vinOver dt mv => dtOk dt && mv < 65536
  | .domainNeed dt _ => dtOk dt
  | .domainIdle dt _ => dtOk dt
  | .domainDrained dt _ => dtOk dt
  | .domainWakeDone dt _ => dtOk dt
  | .sensorSample dt temps vin iin pin => dtOk dt && temps.length ≤ 40 && vin < 65536 && iin < 65536 && pin < 65536
  | .thermalCut dt => dtOk dt
  | .thermalBudgetRise dt => dtOk dt
  | .emergencyEnd dt => dtOk dt
  | .decisionTimer dt begun => dtOk dt && begunOk begun
  | .vcoreReached dt begun => dtOk dt && begunOk begun
  | .bgForced dt _ => dtOk dt
  | .energyPace dt => dtOk dt
  | .dayRoll dt => dtOk dt
  | .scheduleMinute dt => dtOk dt
  | .vcommitWrite dt req _ => dtOk dt && knownReq req
  | .schedDataWrite dt req _ => dtOk dt && knownReq req
  | .faultEvent dt _ index => dtOk dt && index < 128
  | .leakTick dt _ => dtOk dt
  | .shadowCheck dt _ line live spare again => dtOk dt && line < 16384 && live < 2 ^ 32 && spare < 2 ^ 32 && again < 2 ^ 32
  | .phaseSpareOn dt grp => dtOk dt && grp < 4
  | .lifetimeWrite dt => dtOk dt
  | .ltNow dt req => dtOk dt && knownReq req
  | .lifetimeWriteDone dt _ => dtOk dt
  | .ltRestore dt req slotA slotB => dtOk dt && knownReq req && bytesOk 16384 slotA && bytesOk 16384 slotB
  | .faultNRelease dt req _ => dtOk dt && knownReq req
  | .hop dt req _ _ => dtOk dt && knownReq req
  | .pllLock dt _ band => dtOk dt && band < 64
  | .bandMiss dt _ => dtOk dt
  | .lossOfLock dt _ => dtOk dt
  | .relockTimeout dt _ => dtOk dt
  | .divWrite dt req _ _ => dtOk dt && knownReq req
  | .bandWrite dt req _ _ => dtOk dt && knownReq req
  | .refLost dt => dtOk dt
  | .servoOffset dt _ _ => dtOk dt
  | .set dt req _ => dtOk dt && knownReq req
  | .leapSecond dt => dtOk dt
  | .backupCopy dt => dtOk dt
  | .configurationRequest dt off _ => dtOk dt && off % 4 = 0 && off < 4096
  | .bar2Access dt req off data len => dtOk dt && knownReq req && off < 2 ^ 41 && optBytesOk 4096 data && len ≤ 4096
  | .writeReg dt addr data clkMHz => dtOk dt && addr < 2 ^ 24 && data.length % 4 = 0 && clkMHz ≤ 50
  | .readReg dt addr words => dtOk dt && addr < 2 ^ 24 && words ≤ 65536
  | .writeMem dt addr data => dtOk dt && addr < 2 ^ 41 && data.length % 4 = 0
  | .readMem dt addr words => dtOk dt && addr < 2 ^ 41 && words ≤ 65536
  | .readStat dt => dtOk dt
  | .mediaFrame dt _ frame => dtOk dt && frameOk frame.bytes && frame.corrected < 2 ^ 32
  | .pathLost dt _ _ => dtOk dt
  | .flowRead dt req => dtOk dt && knownReq req
  | .flowWrite dt req => dtOk dt && knownReq req
  | .arpRequest dt _ frame => dtOk dt && frameOk frame
  | .ptpAnnounce dt _ frame => dtOk dt && frameOk frame
  | .ptpSync dt _ frame rx => dtOk dt && frameOk frame && rx < 2 ^ 64
  | .delayReq dt _ => dtOk dt
  | .delayResp dt _ frame => dtOk dt && frameOk frame
  | .announceTimeout dt => dtOk dt
  | .xspiRead dt req data => dtOk dt && knownReq req && bytesOk 16777216 data
  | .xspiProgram dt req => dtOk dt && knownReq req
  | .xspiErase dt req => dtOk dt && knownReq req
  | .xspiRaw dt req => dtOk dt && knownReq req
  | .xspiDone dt st _ => dtOk dt && st < 256
  | .sbusRead dt req => dtOk dt && knownReq req
  | .sbusWrite dt req => dtOk dt && knownReq req
  | .tempPoll dt poll => dtOk dt && poll.temps.length ≤ 16
  | .pmicAlert dt _ => dtOk dt
  | .hello dt _ frame => dtOk dt && frameOk frame
  | .helloTimer dt => dtOk dt
  | .memberTimeout dt _ => dtOk dt
  | .haspTime dt _ frame rx => dtOk dt && frameOk frame && rx < 2 ^ 64
  | .haspTimeTimer dt => dtOk dt
  | .commit dt _ frame => dtOk dt && frameOk frame
  | .verdict dt _ frame => dtOk dt && frameOk frame
  | .commitVerdictDeadline dt => dtOk dt
  | .commitFire dt begun => dtOk dt && begunOk begun
  | .tunRead dt req _ => dtOk dt && knownReq req
  | .tunWrite dt req _ => dtOk dt && knownReq req
  | .tunReq dt _ frame => dtOk dt && frameOk frame
  | .tunRsp dt _ frame => dtOk dt && frameOk frame
  | .tunnelTimeout dt _ => dtOk dt
  | .haspLinkDown dt _ => dtOk dt
  | .gpioEdge dt _ => dtOk dt
  | .bringUpPhase dt copies sizes life dimms => dtOk dt && copies.length ≤ 2 && sizes < 2 ^ 13 && life.length ≤ 2 && dimmsOk dimms
  | .enumeratePortStep dt _ _ => dtOk dt
  | .defaultWaitExpiry dt => dtOk dt
  | .contentChange dt => dtOk dt
  | .version dt => dtOk dt
  | .bootStatus dt => dtOk dt
  | .enumerate dt => dtOk dt
  | .automap dt => dtOk dt
  | .stopDefault dt => dtOk dt
  | .startDefault dt => dtOk dt
  | .retrain dt dimms => dtOk dt && dimmsOk dimms
  | .compositionEnd dt _ => dtOk dt
  | .headTimeAtPartner dt _ frame => dtOk dt && frameOk frame
  | .mediaLinkUp dt _ => dtOk dt
  | .mediaLinkDown dt _ => dtOk dt
  | .haspLinkUp dt _ => dtOk dt
  | .perstDeassert dt => dtOk dt
  | .pcieLinkUp dt speed width => dtOk dt && 1 ≤ speed && speed ≤ 5 && [1, 2, 4, 8].contains width
  | .mspiCsHigh dt bits => dtOk dt && bits < 2 ^ 32
  | .sbusTransferDone dt data _ => dtOk dt && data < 2 ^ 32
  | .flashFifoLevel dt _ => dtOk dt
  | .frefReturn dt => dtOk dt
  | .gpioPulseEnd dt _ => dtOk dt

end Sys2Proof
end

