-- ==== Sys2Proof/Tests/Slice0.lean ====
section
/-! SUPPORT. Tests of the model: terms that each well-formedness check refuses, single steps whose results the spec gives, and for
every statement with hypotheses the states and operands that meet them, clause by clause. -/
open Sys2Proof Sys2Proof.Machine
namespace Sys2Proof.Tests

-- One theorem at a time: these kernel evaluations together would need the memory of many threads.
set_option Elab.async false

/-! ### Small states -/

/-- The reset state with some registers written. -/
def wr (l : List (Nat × Word)) : State := l.foldl (fun s x => s.setReg x.1 x.2) State.reset
/-- The same with a DIMM of one 16 GiB rank on MC0, enabled and interleaved alone at address 0. -/
def memS (l : List (Nat × Word)) : State :=
  wr ([(Reg.mcRanks 0, 0x80001011), (Reg.mcCtrl 0, 0x43081001), (Reg.memIlv 0, 0x80800001)] ++ l)
/-- The same with Hasp port 0 enabled and up. -/
def haspS (l : List (Nat × Word)) : State :=
  { wr ([(Reg.haspCtrl 0, 1)] ++ l) with hasp := { ports := [(0, { up := true })] } }
/-- Canvas 0 as given. -/
def cv0 (s : State) (c : Canvas) : State := { s with canvases := [(0, c)] }
/-- Chain port 0 enabled, up and sending another frame. -/
def aWire : Wire := ⟨.msg 0x20 0xFFFF [], 7, [], 0, 10000, ⟨0, 1, [], 0, {}, [], none, none, 0⟩⟩
def busyPort : Port := { up := true, wire := some aWire }
def portS (l : List (Nat × Word)) : State := { wr ([(Reg.prtCtrl 0, 0x01F40807)] ++ l) with ports := [(0, busyPort)] }

/-! ### Frames -/

/-- A Hasp frame of a type from ring position 1. -/
def hf (type : Nat) (body : List Byte) : List Byte := haspFrame 1 type 1 0 1 body
def hfr (type : Nat) (body : List Byte) : HFrame := (haspParse (hf type body)).getD ⟨0, 0, 0, 0, []⟩
/-- An upstream frame of a tile on a chain port that speaks version 2, as it reaches port 0. -/
def up (type tile : Nat) (body : List Byte) : List Byte :=
  ethFrame (List.replicate 12 0 ++ beBytes 2 0x88B5 ++ beBytes 1 0x28 ++ beBytes 1 type ++ beBytes 2 tile ++ List.replicate 4 0 ++ body)
def upOf (s : State) (f : List Byte) : Upstream := ((s.tick 0).receive 0 f).2.getD ⟨0, 0, 0, []⟩
def zeros (n : Nat) : List Byte := List.replicate n 0

/-- An unfragmented UDP datagram of a media network. -/
def udp (dst port : Nat) (m : List Byte) : List Byte :=
  ethFrame (zeros 12 ++ beBytes 2 0x800 ++ beBytes 1 0x45 ++ zeros 8 ++ beBytes 1 17 ++ zeros 2 ++ beBytes 4 1 ++ beBytes 4 dst ++ zeros 2
    ++ beBytes 2 port ++ beBytes 2 (8 + m.length) ++ zeros 2 ++ m)
/-- A PTP message of a type from port identity 0. -/
def ptpMsg (type : Nat) : List Byte := beBytes 1 type ++ beBytes 1 2 ++ zeros 62
def ptpS : State := { wr [(Reg.ptpCtrl, 1), (Reg.ptpDomain, 0), (Reg.medCtrl 0, 1)] with ptp := { best := some (0, 0) } }
def delayMsg : List Byte := beBytes 1 9 ++ beBytes 1 2 ++ zeros 42 ++ beBytes 10 (ptpS.ptpOwn 0) ++ zeros 10
def arpReq (ip : Nat) : List Byte := ethFrame (zeros 12 ++ beBytes 2 0x806 ++ beBytes 4 0x00010800 ++ beBytes 4 0x06040001 ++ zeros 16 ++ beBytes 4 ip)
/-- One RTP packet of a pixel group of four, and flow 0 that takes it. -/
def rtpMsg : List Byte := beBytes 2 0x8060 ++ zeros 12 ++ beBytes 2 4 ++ zeros 4 ++ zeros 4
def flowS : State := { wr [(Reg.medCtrl 0, 1)] with
  flows := [(0, { w := [(0, 0x60080103), (1, 0xEF000001), (2, 5004), (4, 0x00010001), (5, 0x00010001)] })] }
def flowG : Flow := (({ flowS.flw 0 with heardM := [0, 0] } : Flow).police 0 4).getD {}
/-- A lifetime record of zeros. -/
def ltHead : List Byte := [0x45, 0x4C, 0x4C, 0x54, 1, 0] ++ zeros 4086
def ltTail : List Byte := zeros 4096
def ltCrc : List Byte := leBytes 4 (crc32c (ltHead ++ ltTail))
def ltBlank : List Byte := ltHead ++ (ltCrc ++ ltTail)

theorem zeros_length (n : Nat) : (zeros n).length = n := List.length_replicate ..

theorem ltHead_length : ltHead.length = 4092 := by
  unfold ltHead; rw [List.length_append, zeros_length]; rfl

/-- The record is a valid one. -/
theorem ltBlank_valid : ltValid ltBlank = true := by
  have hc : ltCrc.length = 4 := leBytes_length 4 _
  have h1 : ltBlank.length = 8192 := by
    unfold ltBlank ltTail; rw [List.length_append, List.length_append, ltHead_length, hc, zeros_length]
  have h2 : sliceB ltBlank 0 4 = [0x45, 0x4C, 0x4C, 0x54] := rfl
  have h3 : ofLe (sliceB ltBlank 4 2) = 1 := rfl
  have h4 : sliceB ltBlank 4092 4 = ltCrc := by
    have := sliceB_middle ltHead ltCrc ltTail
    rwa [ltHead_length, hc] at this
  have h5 : ltBlank.take 4092 = ltHead := by
    unfold ltBlank; rw [List.take_append_of_le_length (Nat.le_of_eq ltHead_length.symm), List.take_of_length_le (Nat.le_of_eq ltHead_length)]
  have h6 : ltBlank.drop 4096 = ltTail := by
    unfold ltBlank
    rw [← List.append_assoc, List.drop_left' (by simp [ltHead_length, hc])]
  have h7 : ofLe ltCrc = crc32c (ltHead ++ ltTail) := ofLe_leBytes_four _ (crc32c_lt _)
  unfold ltValid
  rw [h1, h2, h3, h4, h5, h6, h7]
  simp

theorem newer_alone (a : List Byte) (h : ltValid a = true) : ltNewer a [] = some (0, a) := by
  have h0 : ltValid [] = false := by decide
  unfold ltNewer
  rw [h, h0]

/-- A checkpoint record of zeros. -/
def wearHead : List Byte := [0x45, 0x4C, 0x52, 0x57, 1, 0] ++ zeros 4086
def wearCrc : List Byte := leBytes 4 (crc32c wearHead)
def wearRec : List Byte := wearHead ++ (wearCrc ++ [])

theorem wearHead_length : wearHead.length = 4092 := by
  unfold wearHead; rw [List.length_append, zeros_length]; rfl

/-- The record is a valid one. -/
theorem wearRec_valid : recordValid wearRec = true := by
  have hc : wearCrc.length = 4 := leBytes_length 4 _
  have h1 : wearRec.length = 4096 := by
    unfold wearRec; rw [List.length_append, List.length_append, wearHead_length, hc]; rfl
  have h2 : wearRec.take 4 = [0x45, 0x4C, 0x52, 0x57] := rfl
  have h3 : ofLe (sliceB wearRec 4 2) = 1 := rfl
  have h4 : sliceB wearRec 4092 4 = wearCrc := by
    have := sliceB_middle wearHead wearCrc []
    rwa [wearHead_length, hc] at this
  have h5 : wearRec.take 4092 = wearHead := by
    unfold wearRec; rw [List.take_append_of_le_length (Nat.le_of_eq wearHead_length.symm), List.take_of_length_le (Nat.le_of_eq wearHead_length)]
  have h7 : ofLe wearCrc = crc32c wearHead := ofLe_leBytes_four _ (crc32c_lt _)
  unfold recordValid
  rw [h1, h2, h3, h4, h5, h7]
  simp

/-- A canvas of one pixel on one tile, frame 3 in delivery, and the tile's NACK of its only packet. -/
def nackS : State := { portS [(Reg.scnCtrl 0, 0x0C), (Reg.cvSize 0, 0x10001)] with
  tiles := [(5, { state := .assigned, placed := true, w := 1, h := 1 })],
  canvases := [(0, { gen := .run, deliv := some { frame := 3, start := 0, bank := 0 } })] }
def nackF : List Byte := up 0x40 5 (beBytes 2 0x0101 ++ zeros 2 ++ beBytes 4 3 ++ zeros 40)
/-- An idle chain port with a TIME waiting in LQ7. -/
def gateS : State := { wr [(Reg.prtCtrl 0, 0x01F40807)] with
  ports := [(0, { up := true, lq := [(7, [⟨.msg 0x20 0xFFFF [], 0⟩])] })] }

/-- A through-mode canvas of one pixel with one lead line, before its line begins, and with it composed. -/
def throughS (k : Comp) : State :=
  cv0 (wr [(Reg.cvMode 0, 4), (Reg.cvSize 0, 0x10001), (Reg.scnLeadLines 0, 1)]) { gen := .run, comp := some k }
def t2S : State := throughS { frame := 1, start := 0, bands := [⟨0, 0, 0⟩], lanes := [], bank := 0 }
def t3S : State := throughS { frame := 1, start := 0, bands := [], lanes := [], bank := 0, composedLines := [0], linesDone := 1 }

/-- A through-mode canvas of one pixel whose layer 5 binds flow 0, of which nothing has arrived. -/
def bindK : Comp :=
  { frame := 1, start := 0, bands := [⟨0, 0, 0⟩], bank := 0, begun := [(0, 0)], lanes := [⟨5, false, ⟨1, 1, 1, 0, 0, 0, 0⟩, some (0, 1)⟩] }
def bindS : State :=
  cv0 (wr [(Reg.cvMode 0, 4), (Reg.cvSize 0, 0x10001), (Reg.layDstSize 5, 0x10001), (Reg.layCropSize 5, 0x10001)]) { gen := .run, comp := some bindK }

/-- Where address 4 lies. -/
def pf : Nat × Nat × Nat × ChanLoc := ((memS []).placeFull 4).getD (0, 0, 0, ⟨0, 0, 0, 0, 0, 0, 0⟩)
/-- A migration of rank 0 to rank 1. -/
def migS : State := memS [(Reg.mcMigrStat 0, 0x48)]
/-- A descriptor: a COPY of 4 bytes within DRAM. -/
def descG : List Byte := beBytes 4 0 ++ zeros 20 ++ leBytes 4 4 ++ leBytes 2 1 ++ zeros 34
def descS : State := { memS [(Reg.dmaCtrl 0, 1)] with dram := (List.range 64).filterMap fun i =>
    if (descG.getD i 0 : Byte) = 0 then none else some ((((memS []).place i).getD (0, 0, 0)).2.2, descG.getD i 0) }

/-! ### Well-formedness: a term that each check refuses, and terms that all pass -/

theorem test_wf_dt : (Instr.softReset (2 ^ 64) 0).wf = false ∧ (Instr.softReset (2 ^ 64 - 1) 0).wf = true := by decide
theorem test_wf_requester : (Instr.softReset 0 3).wf = false ∧ (Instr.softReset 0 256).wf = false ∧ (Instr.softReset 0 257).wf = true := by decide
theorem test_wf_access : (Instr.registerWrite 0 0 2 4 0).wf = false ∧ (Instr.registerWrite 0 0 0 3 0).wf = false ∧
    (Instr.registerWrite 0 0 0x200000 4 0).wf = false ∧ (Instr.registerWrite 0 0 0x1FFFFE 2 0).wf = true := by decide
theorem test_wf_page : (Instr.pgLockWrite 0 0 512 0).wf = false ∧ (Instr.pgLockWrite 0 0 511 0).wf = true := by decide
theorem test_wf_straps : (Instr.resetN 0 256).wf = false ∧ (Instr.resetN 0 255).wf = true := by decide
theorem test_wf_begun : (Instr.fire 0 0 1 [9]).wf = false ∧ (Instr.fire 0 0 1 [3, 3]).wf = false ∧ (Instr.fire 0 0 1 [3, 8]).wf = true := by decide
theorem test_wf_frame : (Instr.arpRequest 0 0 (zeros 17)).wf = false ∧ (Instr.arpRequest 0 0 (zeros 18)).wf = true := by decide
theorem test_wf_addresses : (Instr.bar4Read 0 0 (2 ^ 29) 4).wf = false ∧ (Instr.memoryRequest 0 0 (2 ^ 41) none).wf = false ∧
    (Instr.memoryRequest 0 0 0 (some (zeros 65))).wf = false ∧ (Instr.memoryRequest 0 0 (2 ^ 41 - 1) (some (zeros 64))).wf = true := by decide
theorem test_wf_counts : (Instr.unitFailure 0 0 16).wf = false ∧ (Instr.requestLine 0 64).wf = false ∧ (Instr.patrolScrub 0 [1, 2, 3, 4]).wf = false ∧
    (Instr.xspiDone 0 256 false).wf = false ∧ (Instr.phaseSpareOn 0 4).wf = false ∧ (Instr.pllLock 0 0 64).wf = false := by decide
theorem test_wf_link : (Instr.pcieLinkUp 0 6 4).wf = false ∧ (Instr.pcieLinkUp 0 5 3).wf = false ∧ (Instr.pcieLinkUp 0 5 8).wf = true := by decide
theorem test_wf_dimms : (Instr.retrain 0 [⟨8, 0, 0, true, 0, [], false⟩]).wf = false := by decide

/-! ### The queue -/

/-- The table gives no row any bits. -/
theorem test_no_word_spells_a_command : decodeTableWord 32 0x12345678 = none := rfl
/-- An empty queue idles. -/
theorem test_idle : step State.reset = .next State.reset := rfl
/-- The command at the front runs and leaves the queue; the one behind stays. -/
theorem test_front_runs : (match step { State.reset with pending := [.readStat 5, .readStat 0] } with
    | .next t => (t.pending.length, t.now) | _ => (9, 9)) = (1, 5) := by decide +kernel

/-- The field of a next state that a test looks at. -/
def look {α : Type} (c : Instr) (s : State) (f : State → α) (d : α) : α := match exec c s with | .next t => f t | _ => d

/-! ### The register bus -/

/-- R42: a 16-bit write is discarded, with KIND 4. -/
theorem test_half_word : look (.registerWrite 0 0 (Reg.mcLatTgt 0) 2 0x1234) (wr [(Reg.mcLatTgt 0, 0xAAAABBBB)])
    (fun t => (t.rn (Reg.mcLatTgt 0), t.fld (pgViol 0x100) 14 12)) (0, 0) = (0xAAAABBBB, 4) := by decide +kernel
/-- R41: a write to a page that is not implemented is discarded and shown in DEV.STAT.RSVD_ACCESS. -/
theorem test_no_page : look (.registerWrite 0 0 0x1FF000 4 1) State.reset (fun t => t.bit Reg.devStat 1) false = true := by decide +kernel
/-- R47: LATCH.SEQ and other RO fields keep their value. -/
theorem test_read_only : look (.registerWrite 0 0 Reg.latchSeq 4 7) State.reset (fun t => t.rn Reg.latchSeq) 99 = 0 := by decide +kernel
/-- R44, R46: with LOCK set, a write of 0 to LOCK leaves it set. -/
theorem test_lock_stays : look (.pgLockWrite 0 0 0x102 0) (wr [(pgLock 0x102, 1)]) (fun t => t.locked 0x102) false = true := by decide +kernel
/-- R40: CEIL takes 50 to 80; 49 is discarded with KIND 3. -/
theorem test_ceil_range : look (.ceilWrite 0 0 49) State.reset (fun t => (t.fld Reg.wardCeil 6 0, t.fld (pgViol 0x002) 14 12)) (0, 0) = (70, 3) := by
  decide +kernel

/-! ### Power, faults, clocks, time -/

/-- R28, R305: below 18.0 V the package envelope is 110 W, from 18.5 V on 185 W again. -/
theorem test_vin_low : look (.vinLow 0 17999) State.reset (fun t => t.envelope) 0 = 11000 := by decide +kernel
theorem test_vin_back : look (.vinNormal 0 18500) { State.reset with keep := { vinLow := true } } (fun t => t.envelope) 0 = 18500 := by decide +kernel
/-- R332: the budget of a Tumbler is 3, that of a PLL loop filter (class 4) 4. -/
theorem test_budgets : State.reset.resBudget 0 = 3 ∧ State.reset.resBudget 4 = 4 := by decide
/-- R329: an event of class 6 adds one to the leaky counter of its resource. -/
theorem test_fault_counts : look (.faultEvent 0 6 5) State.reset (fun t => t.resCount (resKey 6 5)) 0 = 1 := by decide +kernel
/-- R354: a whole UTC day has 86,400 s: wall time counts the nanoseconds of the commands. -/
theorem test_time_adds : look (.readStat 1500) { State.reset with now := 2 ^ 64 - 500 } (fun t => t.now) 0 = 1000 := by decide +kernel

/-! ### Links -/

/-- The check value of CRC-32 and CRC-32C: the digits 1 to 9 (the published check values of these CRCs). -/
theorem test_crc32 : crc32 [0x31, 0x32, 0x33, 0x34, 0x35, 0x36, 0x37, 0x38, 0x39] = 0xCBF43926 := by decide +kernel
theorem test_crc32c : crc32c [0x31, 0x32, 0x33, 0x34, 0x35, 0x36, 0x37, 0x38, 0x39] = 0xE3069283 := by decide +kernel
/-- R237: at 10 Gb/s a frame of 64 bytes takes 84 byte times of 0.8 ns. -/
theorem test_wire_time : wireTime 2 64 = 672 := by decide
/-- R382: a HELLO is one Ethernet frame of at least 64 bytes with a sound FCS. -/
theorem test_hello_sound : ethSound (hf 1 (zeros 35)) = true := by decide +kernel
/-- R381: TYPE, SRC and HOP stand after the version byte. -/
theorem test_hasp_fields : (hfr 5 [7]).type = 5 ∧ (hfr 5 [7]).src = 1 ∧ (hfr 5 [7]).hop = 0 ∧ (hfr 5 [7]).seq = 1 := by decide +kernel

/-! ### Memory -/

/-- R257: an address of no set is unmapped. -/
theorem test_unmapped : State.reset.place 0 = none := by decide +kernel
/-- R291: a byte written reads back; the byte beside it does not change. -/
theorem test_write_reads_back : look (.memoryRequest 0 2 5 (some [0x5A])) (memS []) (fun t => (t.rdBytes 5 1, t.rdBytes 6 1)) ([], []) = ([0x5A], [0]) := by
  decide +kernel
/-- R287: a descriptor's length stands in bytes 24 to 27. -/
theorem test_descriptor : (DmaRun.parse { host := true, addr := 0 } descG).len = 4 ∧ (DmaRun.parse { host := true, addr := 0 } descG).op = 0 := by
  decide +kernel

/-! ### Witnesses -/

/-- Each clause of `Obligations.StepRunsTheFrontCommand` has a state and operands that meet its hypotheses. -/
theorem witness_stepRunsTheFrontCommand :
    (∃ (c : Instr) (r : List Instr) (s : State), s.pending = c :: r) ∧
    (∃ (s : State), s.pending = []) :=
  ⟨⟨.readStat 0, [], { State.reset with pending := [.readStat 0] }, rfl⟩,
   ⟨State.reset, rfl⟩⟩

/-- Each clause of `Obligations.OutputsFollowRegisters` has a state and operands that meet its hypotheses. -/
theorem witness_outputsFollowRegisters :
    ∃ (s t : State), s.Settled ∧ step s = .next t :=
  ⟨State.reset, State.reset, (by decide +kernel : State.reset.out = State.reset.outputs), rfl⟩

/-- Each clause of `Obligations.RegisterWriteLandsOrIsRefused` has a state and operands that meet its hypotheses. -/
theorem witness_registerWriteLandsOrIsRefused :
    (∃ (s : State) (req : Nat), s.peerRefused req = false) ∧
    (∃ (s : State) (req size : Nat), s.peerRefused req = false ∧ (size = 1 ∨ size = 2)) ∧
    (∃ (s : State) (req off : Nat), s.peerRefused req = false ∧ pageKind (off / 4096) = none) :=
  ⟨⟨State.reset, 0, by decide +kernel⟩,
   ⟨State.reset, 0, 1, by decide +kernel⟩,
   ⟨State.reset, 0, 0x1FF000, by decide +kernel⟩⟩

/-- Each clause of `Obligations.LockedFieldKeepsItsValue` has a state and operands that meet its hypotheses. -/
theorem witness_lockedFieldKeepsItsValue :
    (∃ (s : State) (req : Nat) (v : Word), s.peerRefused req = false ∧ s.locked 0x0E0 = true ∧ v.toNat % 65536 ≠ s.fld Reg.schedEtype 15 0) ∧
    (∃ (s : State) (req : Nat) (v : Word), s.peerRefused req = false ∧ s.locked 0x0E0 = false ∧ v.toNat % 65536 ≠ s.fld Reg.schedEtype 15 0 ∧ (v.toNat % 65536 < 0x0600 ∨ v.toNat % 65536 = 0x8100 ∨ v.toNat % 65536 = 0x88A8)) ∧
    (∃ (s : State) (req : Nat) (v : Word), s.peerRefused req = false ∧ s.locked 0x0E0 = false ∧ 0x0600 ≤ v.toNat % 65536 ∧ v.toNat % 65536 ≠ 0x8100 ∧ v.toNat % 65536 ≠ 0x88A8) ∧
    (∃ (s : State) (req : Nat) (v : Word), s.peerRefused req = false ∧ v.toNat % 65536 = s.fld Reg.schedEtype 15 0) :=
  ⟨⟨wr [(pgLock 0x0E0, 1)], 0, 7, by decide +kernel⟩,
   ⟨State.reset, 0, 7, by decide +kernel⟩,
   ⟨State.reset, 0, 0xFFFF, by decide +kernel⟩,
   ⟨State.reset, 0, 0x88B5, by decide +kernel⟩⟩

/-- Each clause of `Obligations.ShadowedWriteWaits` has a state and operands that meet its hypotheses. -/
theorem witness_shadowedWriteWaits :
    (∃ (s : State) (req : Nat) (n : Fin 4), s.peerRefused req = false ∧ s.pageHeld (0x90 + n) = false) ∧
    (∃ (s : State) (req : Nat) (n : Fin 4), s.peerRefused req = false ∧ s.pageHeld (0x90 + n) = true) :=
  ⟨⟨State.reset, 0, 3, by decide +kernel⟩,
   ⟨{ State.reset with latch := { accepted := [{ seq := 1, groups := 1, trig := .fire }] } }, 0, 3, by decide +kernel⟩⟩

/-- Each clause of `Obligations.ReadClears` has a state and operands that meet its hypotheses. -/
theorem witness_readClears :
    ∃ (s : State) (req : Nat), s.peerRefused req = false ∧ (∀ key, mget s.hiSnap key none = none) :=
  ⟨State.reset, 0, by decide, fun _ => rfl⟩

/-- Each clause of `Obligations.PageHeadersTakeWrites` has a state and operands that meet its hypotheses. -/
theorem witness_pageHeadersTakeWrites :
    (∃ (page : Nat), (pageKind page).isSome) ∧
    (∃ (s : State) (page g : Nat), (pageKind page).isSome ∧ g < 16 ∧ (shadowedPage page = false ∨ (s.heldMask.testBit (s.groupOf page) = false ∧ s.heldMask.testBit g = false))) ∧
    (∃ (s : State) (page g : Nat), shadowedPage page = true ∧ g < 16 ∧ (s.heldMask.testBit (s.groupOf page) = true ∨ s.heldMask.testBit g = true)) :=
  ⟨⟨0x183, by decide +kernel⟩,
   ⟨State.reset, 0x000, 15, by decide +kernel⟩,
   ⟨{ State.reset with latch := { accepted := [{ seq := 1, groups := 2, trig := .fire }] } }, 0x010, 1, by decide +kernel⟩⟩

/-- Each clause of `Obligations.ColdResets` has a state and operands that meet its hypotheses. -/
theorem witness_coldResets :
    ∃ (dt straps : Nat) (vbat : Bool) (c : Instr), (c = .resetN dt straps ∨ c = .powerOnReset dt straps vbat) :=
  ⟨0, 255, true, .powerOnReset 0 255 true, by decide +kernel⟩

/-- Each clause of `Obligations.PcieEndpoint` has a state and operands that meet its hypotheses. -/
theorem witness_pcieEndpoint :
    (∃ (s : State), s.turnkey.phases.testBit 2 = true) ∧
    (∃ (s : State) (speed width : Nat), s.pcie.perst = true ∧ 1 ≤ speed ∧ speed ≤ 5 ∧ width ∈ [1, 2, 4, 8]) ∧
    (∃ (s : State), s.bit Reg.pcieStat 9 = true) ∧
    (∃ (s : State), s.bit Reg.pcieStat 9 = false) :=
  ⟨⟨{ State.reset with turnkey := { phases := 4 } }, by decide +kernel⟩,
   ⟨{ State.reset with pcie := { perst := true } }, 5, 8, by decide +kernel⟩,
   ⟨wr [(Reg.pcieStat, 0x200)], by decide +kernel⟩,
   ⟨State.reset, by decide +kernel⟩⟩

/-- Each clause of `Obligations.Bar2ReachesMemory` has a state and operands that meet its hypotheses. -/
theorem witness_bar2ReachesMemory :
    (∃ (s : State) (req off : Nat) (c r k : Nat), s.peerRefused req = false ∧ off < 2 ^ (30 + s.bar2Sel) ∧ s.memStill = false ∧ s.place (s.bar2Addr off) = some (c, r, k) ∧ s.rankLost c r = false) ∧
    (∃ (s : State) (req off len : Nat), s.peerRefused req = false ∧ off < 2 ^ (30 + s.bar2Sel) ∧ s.memStill = false ∧ s.anyPoison (s.bar2Addr off) len = false) :=
  ⟨⟨memS [], 0, 4, 0, 0, (((memS []).place 4).getD (0, 0, 0)).2.2, by decide +kernel⟩,
   ⟨memS [], 0, 4, 8, by decide +kernel⟩⟩

/-- Each clause of `Obligations.SupplyStatesSetTheEnvelope` has a state and operands that meet its hypotheses. -/
theorem witness_supplyStatesSetTheEnvelope :
    (∃ (s : State) (mv : Nat), s.keep.vinLow = false ∧ mv < 18000) ∧
    (∃ (s : State) (mv : Nat), s.keep.vinLow = true ∧ 18500 ≤ mv) ∧
    (∃ (mv : Nat), 60000 < mv) :=
  ⟨⟨State.reset, 17999, by decide +kernel⟩,
   ⟨{ State.reset with keep := { vinLow := true } }, 18500, by decide +kernel⟩,
   ⟨60001, by decide +kernel⟩⟩

/-- Each clause of `Obligations.DomainsWakeAndDrain` has a state and operands that meet its hypotheses. -/
theorem witness_domainsWakeAndDrain :
    (∃ (s : State) (d : Fin 53), s.keep.emerg = false ∧ s.domOn d = false ∧ s.keep.waking.contains d.val = false ∧ (9 ≤ d.val → d.val < 17 → s.bit (Reg.mcCtrl (d.val - 9)) 0 = true)) ∧
    (∃ (s : State) (c : Fin 8) (d : Fin 53), d.val = 9 + c.val ∧ s.bit (Reg.mcCtrl c) 0 = false) ∧
    (∃ (s : State) (d : Fin 53), s.keep.waking.contains d.val = true ∧ (9 ≤ d.val ∨ s.keep.move = none)) ∧
    (∃ (s : State) (dt : Nat) (d : Fin 53), s.domOn d = true ∧ s.keep.draining.contains d.val = false ∧ s.bit Reg.keepCtrl 2 = false ∧ (s.tick dt).mayOff d = true) ∧
    (∃ (s : State) (dt : Nat) (d : Fin 53), s.keep.draining.contains d.val = true ∧ (∀ c, c < 64 → ((s.tick dt).usesDomain c d && (s.tick dt).dmaState c = 1) = false)) :=
  ⟨⟨State.reset, 20, by decide +kernel⟩,
   ⟨State.reset, 0, 9, by decide +kernel⟩,
   ⟨{ State.reset with keep := { waking := [52] } }, 52, by decide +kernel⟩,
   ⟨wr [(Reg.keepDomainLo, 0x200)], 0, 9, by decide +kernel⟩,
   ⟨{ State.reset with keep := { draining := [9] } }, 0, 9, by decide +kernel⟩⟩

/-- Each clause of `Obligations.KeeperDecides` has a state and operands that meet its hypotheses. -/
theorem witness_keeperDecides :
    (∃ (s : State) (dt : Nat) (m : Move), s.keep.move = some m ∧ m.wait = none ∧ (let u := (s.tick dt).setFld Reg.keepVcore 6 0 (s.fld Reg.keepVcore 14 8); (u.planTumblers m.count m.volt).all u.domOn = false)) ∧
    (∃ (s : State), s.anyLive = true) ∧
    (∃ (s : State), s.anyLive = false ∧ s.locked 0x003 = false) ∧
    (∃ (s : State) (dt : Nat), s.anyLive = false ∧ (s.now + dt) % 2 ^ 64 % 10000000 = 0 ∧ s.keep.move = none ∧ s.keep.emerg = false ∧ s.wantedPoint = none ∧ s.runCount = 0 ∧ s.bit Reg.keepCtrl 1 = true ∧ s.bit Reg.keepCtrl 4 = false ∧ s.keep.held = [] ∧ s.keep.forced = [] ∧ (s.validTemps.any (s.tlimit < ·) = true ∨ s.bgBudget < s.fld Reg.sensPin 15 0)) ∧
    (∃ (s : State) (dt t0 : Nat) (c : Fin 4), mget s.keep.heldFrom c none = some t0 ∧ c ≠ 0 ∧ s.keep.held.contains c.val = true ∧ s.keep.emerg = false ∧ t0 + 60000000000 ≤ (s.now + dt) % 2 ^ 64) :=
  ⟨⟨{ wr [(Reg.cvMode 0, 1), (Reg.cvSize 0, 0x10001), (Reg.cvTmin 0, 0x3FFFFFF)] with keep := { move := some { count := 1, volt := 3, core := 80 } } }, 0, { count := 1, volt := 3, core := 80 }, by decide +kernel, by decide +kernel, by decide +kernel⟩,
   ⟨cv0 State.reset { gen := .run }, by decide +kernel⟩,
   ⟨State.reset, by decide +kernel⟩,
   ⟨wr [(Reg.keepCtrl, 0x2), (Reg.sensPin, 65535), (Reg.keepTmbRun, 0)], 10000000, by decide +kernel⟩,
   ⟨{ State.reset with keep := { held := [1], heldFrom := [(1, some 0)] } }, 60000000000, 0, 1, by decide +kernel⟩⟩

/-- Each clause of `Obligations.SensorsAreShown` has a state and operands that meet its hypotheses. -/
theorem witness_sensorsAreShown :
    ∃ (s : State), s.keep.hot127 = false :=
  ⟨State.reset, by decide +kernel⟩

/-- Each clause of `Obligations.HeatCutsTheBudget` has a state and operands that meet its hypotheses. -/
theorem witness_heatCutsTheBudget :
    (∃ (s : State) (dt t0 : Nat), s.keep.hotFrom = some t0 ∧ s.keep.emerg = false ∧ t0 + 1000000000 ≤ (s.now + dt) % 2 ^ 64) ∧
    (∃ (s : State) (dt t0 b : Nat), s.keep.coolFrom = some t0 ∧ s.keep.thermal = some b ∧ s.keep.emerg = false ∧ t0 + 10000000000 ≤ (s.now + dt) % 2 ^ 64) ∧
    (∃ (s : State) (i : Nat) (temps : List Int), s.keep.hot127 = true ∧ s.keep.emerg = false ∧ i < 40 ∧ 2032 ≤ temps.getD i (-1000) ∧ temps.getD i (-1000) ≤ 2400) ∧
    (∃ (s : State) (dt t0 : Nat), s.keep.endFrom = some t0 ∧ s.keep.emerg = true ∧ t0 + 10000000000 ≤ (s.now + dt) % 2 ^ 64) :=
  ⟨⟨{ State.reset with keep := { hotFrom := some 0 } }, 1000000000, 0, by decide +kernel⟩,
   ⟨{ State.reset with keep := { coolFrom := some 0, thermal := some 900 } }, 10000000000, 0, 900, by decide +kernel⟩,
   ⟨{ State.reset with keep := { hot127 := true } }, 39, List.replicate 40 2032, by decide +kernel⟩,
   ⟨{ State.reset with keep := { endFrom := some 0, emerg := true } }, 10000000000, 0, by decide +kernel⟩⟩

/-- Each clause of `Obligations.EnergyAndSchedule` has a state and operands that meet its hypotheses. -/
theorem witness_energyAndSchedule :
    (∃ (s : State) (dt : Nat), (s.now + dt) % 2 ^ 64 % 1000000000 = 0) ∧
    (∃ (s : State) (dt : Nat), s.bit Reg.keepCtrl 6 = true ∧ (if (s.tick dt).calValid then (s.tick dt).localSec % 86400 = 0 else (s.keep.dayFrom.any fun t => t + 86400000000000 ≤ (s.now + dt) % 2 ^ 64) = true)) ∧
    (∃ (s : State), s.bit Reg.keepCtrl 5 = true ∧ s.calValid = false) ∧
    (∃ (s : State) (dt : Nat), s.bit Reg.keepCtrl 5 = true ∧ s.calValid = true ∧ (s.tick dt).localSec % 60 = 0 ∧ (∀ e < 64, 1 ≤ e → (s.schedWord e 0).testBit 31 = false) ∧ (s.schedWord 0 0).testBit 31 = true ∧ bitsOf (s.schedWord 0 0) 10 0 = ((s.tick dt).localMin % 1440).toNat ∧ dayMatches (s.schedWord 0 0) (s.tick dt).localDay = true ∧ bitsOf (s.schedWord 0 0) 23 21 = 3 ∧ mget s.keep.firedOn 0 none ≠ some (s.tick dt).localDay) ∧
    (∃ (s : State) (v : Word), s.pageHeld 0x003 = false ∧ s.fld Reg.keepSchedIdx 6 0 < 64 ∧ bitsOf v.toNat 23 21 ≤ 4) :=
  ⟨⟨State.reset, 1000000000, by decide +kernel⟩,
   ⟨{ wr [(Reg.keepCtrl, 0x40)] with keep := { dayFrom := some 0 } }, 86400000000000, by decide +kernel⟩,
   ⟨wr [(Reg.keepCtrl, 0x20)], by decide +kernel⟩,
   ⟨{ wr [(Reg.keepCtrl, 0x20), (Reg.timeStat, 0x80000000)] with sched := [(0, 0x8067F000)] }, 0, by decide +kernel⟩,
   ⟨State.reset, 0x00600000, by decide +kernel⟩⟩

/-- Each clause of `Obligations.ErrorEventsAreCounted` has a state and operands that meet its hypotheses. -/
theorem witness_errorEventsAreCounted :
    (∃ (s : State) (i : Nat) (cls : Fin 7), i < resInstances cls ∧ s.isLost (resKey cls i) = false ∧ s.isRetired (resKey cls i) = false ∧ s.resCount (resKey cls i) + 1 ≤ min 65535 (s.resBudget cls) ∧ s.faults.lost = []) ∧
    (∃ (s : State) (i : Nat) (cls : Fin 7), i < resInstances cls ∧ s.isLost (resKey cls i) = false ∧ s.isRetired (resKey cls i) = false ∧ s.resBudget cls < min 65535 (s.resCount (resKey cls i) + 1)) ∧
    (∃ (s : State) (dt : Nat) (cls : Fin 7), Sparse.wf (fun _ => 0) s.faults.counts ∧ 0 < s.resLeak cls ∧ (s.now + dt) % 2 ^ 64 % (s.resLeak cls * 1000000000) = 0) :=
  ⟨⟨State.reset, 63, 6, by decide +kernel⟩,
   ⟨{ State.reset with faults := { counts := [(resKey 4 7, 4)] } }, 7, 4, by decide +kernel⟩,
   ⟨State.reset, 10000000000, 6, by decide +kernel⟩⟩

/-- Each clause of `Obligations.SparesCheckAndServe` has a state and operands that meet its hypotheses. -/
theorem witness_sparesCheckAndServe :
    (∃ (g : Nat), g < 4) ∧
    (∃ (s : State) (line tmb : Nat) (cv : Fin 4), s.sparing = true ∧ s.paceCanvas = some cv.val ∧ s.bit (Reg.cvMode cv) 2 = false ∧ s.checkedLine cv line = true ∧ s.checkedTumbler cv = some tmb) ∧
    (∃ (s : State) (line live spare tmb : Nat) (cv : Fin 4), s.sparing = true ∧ s.paceCanvas = some cv.val ∧ s.bit (Reg.cvMode cv) 2 = false ∧ s.checkedLine cv line = true ∧ s.checkedTumbler cv = some tmb ∧ live ≠ spare ∧ s.isLost tmb = false ∧ s.isRetired tmb = false ∧ s.resCount tmb + 1 ≤ min 65535 (s.resBudget 0)) :=
  ⟨⟨0, by decide +kernel⟩,
   ⟨cv0 (wr [(Reg.tmbCtrl 8, 0x101), (Reg.tmbStat 8, 4), (Reg.wardBand 0, 0x80024000)]) { gen := .run }, 0, 0, 0, by decide +kernel⟩,
   ⟨cv0 (wr [(Reg.tmbCtrl 8, 0x101), (Reg.tmbStat 8, 4), (Reg.wardBand 0, 0x80024000)]) { gen := .run }, 0, 1, 2, 0, 0, by decide +kernel⟩⟩

/-- Each clause of `Obligations.LifetimeRecord` has a state and operands that meet its hypotheses. -/
theorem witness_lifetimeRecord :
    (∃ (s : State) (dt req slot b : Nat) (c : Instr), s.bit Reg.faultCtrl 11 = true ∧ s.faults.ltSlot = none ∧ s.lamp.ckpt = 0 ∧ s.lamp.restoring = false ∧ slot = (match s.faults.ltNewest with | some n => 1 - n | none => 0) ∧ (s.ltBlocks slot).head? = some b ∧ (c = .lifetimeWrite dt ∧ (s.faults.ltFrom.isSome ∨ (s.now + dt) % 2 ^ 64 % 3600000000000 = 0)) ∨ c = .ltNow dt req) ∧
    (∃ (s : State), s.bit Reg.faultCtrl 11 = true ∧ (s.faults.ltSlot.isSome = true ∨ s.lamp.ckpt ≠ 0 ∨ s.lamp.restoring = true)) ∧
    (∃ (s : State) (n : Nat), s.faults.ltSlot = some n ∧ s.faults.ltFrom = none ∧ s.lamp.waits = false) ∧
    (∃ (s : State) (n : Nat) (a b l : List Byte), s.anyLive = false ∧ ltNewer a b = some (n, l)) ∧
    (∃ (s : State) (a b : List Byte), s.anyLive = false ∧ ltNewer a b = none) ∧
    (∃ (s : State) (v : Word), v.getLsbD 24 = true ∧ s.rn Reg.faultStat % 1024 = 0) :=
  ⟨⟨wr [(Reg.faultCtrl, 0x800)], 0, 0, 0, 0, .ltNow 0 0, by decide +kernel⟩,
   ⟨{ wr [(Reg.faultCtrl, 0x800)] with faults := { ltSlot := some 0 } }, by decide +kernel⟩,
   ⟨{ State.reset with faults := { ltSlot := some 0 } }, 0, by decide +kernel⟩,
   ⟨State.reset, 0, ltBlank, [], ltBlank, by decide +kernel, newer_alone _ ltBlank_valid⟩,
   ⟨State.reset, [], [], by decide +kernel⟩,
   ⟨State.reset, 0x01000000, by decide +kernel⟩⟩

/-- Each clause of `Obligations.PllsHopLockAndRelock` has a state and operands that meet its hypotheses. -/
theorem witness_pllsHopLockAndRelock :
    (∃ (s : State) (slot : Nat) (n : Fin 4), 2 ≤ n.val ∧ slot < 4 ∧ slot ≠ s.slotOf n ∧ s.bit (Reg.pllStat n) 29 = false ∧ s.pllPowered n = true) ∧
    (∃ (s : State) (slot : Nat) (n : Fin 4), n.val < 2 ∧ slot < 4 ∧ slot ≠ s.slotOf n) ∧
    (∃ (s : State) (n : Fin 4), s.bit (Reg.pllStat n) 28 = false ∧ s.pllPowered n = true ∧ s.pllLost n = false ∧ (s.pll n).held = none ∧ s.mem.frozen = none) ∧
    (∃ (s : State) (n : Fin 4), s.bit (Reg.pllStat n) 29 = true ∧ s.searching n = false ∧ s.isRetired (resKey 4 (2 * n + s.fld (Reg.pllCtrl n) 8 8)) = false ∧ s.isLost (resKey 4 (2 * n + s.fld (Reg.pllCtrl n) 8 8)) = false ∧ s.resCount (resKey 4 (2 * n + s.fld (Reg.pllCtrl n) 8 8)) + 1 ≤ min 65535 (s.resBudget 4)) ∧
    (∃ (s : State) (x : Nat) (n : Fin 4), 1 ≤ x ∧ x ≤ 255 ∧ x ≠ s.fld (Reg.pllDiv n) 7 0 ∧ s.pllPowered n = true ∧ s.pllLost n = false) ∧
    (∃ (s : State) (dt : Nat) (n : Fin 4), (s.pll n).stored ≠ some (s.fld (Reg.pllCtrl n) 1 0, (s.now + dt) % 2 ^ 64)) ∧
    (∃ (s : State), (s.profWord 0 (s.slotOf 0)).testBit 0 = true ∧ (s.pll 0).noRef = false) ∧
    (∃ (s : State) (n : Fin 4), s.bit (Reg.pllStat n) 28 = true ∧ s.isRetired (resKey 4 (2 * n + s.fld (Reg.pllCtrl n) 8 8)) = false ∧ s.isLost (resKey 4 (2 * n + s.fld (Reg.pllCtrl n) 8 8)) = false ∧ s.resCount (resKey 4 (2 * n + s.fld (Reg.pllCtrl n) 8 8)) + 1 ≤ min 65535 (s.resBudget 4)) ∧
    (∃ (s : State) (dt t0 : Nat) (n : Fin 4), (s.pll n).lossAt = some t0 ∧ (s.pll n).locking = some t0 ∧ t0 + 400000 ≤ (s.now + dt) % 2 ^ 64 ∧ s.isRetired (resKey 4 (2 * n + s.fld (Reg.pllCtrl n) 8 8)) = false ∧ s.isLost (resKey 4 (2 * n + s.fld (Reg.pllCtrl n) 8 8)) = false) :=
  ⟨⟨wr [(Reg.keepDomainHi, 0x80000), (Reg.pllStat 2, 0)], 1, 2, by decide +kernel⟩,
   ⟨State.reset, 1, 0, by decide +kernel⟩,
   ⟨wr [(Reg.pllStat 0, 0)], 0, by decide +kernel⟩,
   ⟨{ wr [(Reg.pllStat 0, 0x20000000)] with plls := [(0, { band := [(0, 0x80000000)] })] }, 0, by decide +kernel⟩,
   ⟨State.reset, 200, 0, by decide +kernel⟩,
   ⟨State.reset, 0, 0, by decide +kernel⟩,
   ⟨{ State.reset with plls := [(0, { prof := [(0, 0x1405)] })] }, by decide +kernel⟩,
   ⟨State.reset, 0, by decide +kernel⟩,
   ⟨{ State.reset with plls := [(0, { lossAt := some 0, locking := some 0 })] }, 400000, 0, 0, by decide +kernel⟩⟩

/-- Each clause of `Obligations.TimeBaseFollows` has a state and operands that meet its hypotheses. -/
theorem witness_timeBaseFollows :
    (∃ (s : State) (dt : Nat) (hasp : Bool) (offset : Int), (s.tick dt).timeMode = (if hasp then 2 else 1) ∧ offset.natAbs ≤ (if hasp then 10 else 100) ∧ offset.natAbs ≤ s.fld Reg.timeCtrl 23 16 * 1000 ∧ offset ≠ 0) ∧
    (∃ (s : State) (dt : Nat) (v lo : Word), mget s.loHeld Reg.timeSetLo none = some lo ∧ s.anyLive = true ∧ s.bit Reg.timeCtrl 0 = false ∧ lo.toNat + v.toNat * 2 ^ 32 ≠ (s.now + dt) % 2 ^ 64) ∧
    (∃ (s : State), s.fld Reg.timeUtcOfs 17 16 ≠ 0 ∧ 1 ≤ s.fld Reg.timeUtcOfs 15 0 ∧ s.fld Reg.timeUtcOfs 15 0 < 65535) ∧
    (∃ (s : State) (dt : Nat), s.bit Reg.timeCtrl 2 = true ∧ (s.now + dt) % 2 ^ 64 % 1000000000 = 0) :=
  ⟨⟨wr [(Reg.timeSrc, 1), (Reg.ptpStat, 0x80000000), (Reg.timeCtrl, 0x10000)], 0, false, 5, by decide +kernel⟩,
   ⟨{ cv0 State.reset { gen := .run } with loHeld := [(Reg.timeSetLo, some 5)] }, 0, 0, 5, by decide +kernel⟩,
   ⟨wr [(Reg.timeUtcOfs, 0x10025)], by decide +kernel⟩,
   ⟨wr [(Reg.timeCtrl, 4)], 0, by decide +kernel⟩⟩

/-- Each clause of `Obligations.PtpMeasures` has a state and operands that meet its hypotheses. -/
theorem witness_ptpMeasures :
    (∃ (s : State) (p : Fin 2) (f m : List Byte), s.bit (Reg.medCtrl p) 0 = true ∧ ethSound f = true ∧ s.ptpMessage p (f.take (f.length - 4)) = some m ∧ ptpType m = 11 ∧ beAt m 61 2 < 255) ∧
    (∃ (s : State) (p : Fin 2) (f m : List Byte), s.bit (Reg.medCtrl p) 0 = true ∧ ethSound f = true ∧ s.ptpMessage p (f.take (f.length - 4)) = some m ∧ ptpType m = 0 ∧ (ptpFlags m).testBit 9 = false ∧ s.ptp.best = some (p.val, ptpIdent m)) ∧
    (∃ (s : State) (dt id : Nat) (p : Fin 2), s.bit Reg.ptpCtrl 0 = true ∧ s.ptp.best = some (p.val, id) ∧ (∀ t0, s.ptp.reqAt = some t0 → t0 + pow2s ((s.fld Reg.ptpCtrl 11 8 : Int) - 8) ≤ (s.now + dt) % 2 ^ 64)) ∧
    (∃ (s : State) (q t3 : Nat) (d : Int) (p : Fin 2) (f m : List Byte), s.bit (Reg.medCtrl p) 0 = true ∧ ethSound f = true ∧ s.ptpMessage p (f.take (f.length - 4)) = some m ∧ ptpType m = 9 ∧ s.ptp.best = some (p.val, ptpIdent m) ∧ s.ptp.req = some (q, t3) ∧ s.ptp.diff = some d ∧ ptpSeq m = q ∧ beAt m 44 10 = s.ptpOwn p) ∧
    (∃ (s : State) (dt : Nat) (m : PtpMaster), s.ptp.masters = [m] ∧ s.ptp.best = some (m.port, m.ident) ∧ m.heard + 3 * m.every ≤ (s.now + dt) % 2 ^ 64) :=
  ⟨⟨ptpS, 0, udp 0xE0000181 319 (ptpMsg 11), ptpMsg 11, by decide +kernel⟩,
   ⟨ptpS, 0, udp 0xE0000181 319 (ptpMsg 0), ptpMsg 0, by decide +kernel⟩,
   ⟨ptpS, 0, 0, 0, by decide +kernel, by decide +kernel, by intro t0 h; cases h⟩,
   ⟨{ ptpS with ptp := { best := some (0, 0), req := some (0, 5), diff := some 7 } }, 0, 5, 7, 0, udp 0xE0000181 320 delayMsg, delayMsg, by decide +kernel⟩,
   ⟨{ State.reset with ptp := { best := some (0, 1), masters := [⟨0, 1, [], 0, 10, 0, none, 0, 0⟩] } }, 30, ⟨0, 1, [], 0, 10, 0, none, 0, 0⟩, by decide +kernel⟩⟩

/-- Each clause of `Obligations.MediaPorts` has a state and operands that meet its hypotheses. -/
theorem witness_mediaPorts :
    (∃ (s : State) (o : Nat) (vlan : Option Nat) (p : Fin 2) (f : List Byte), s.bit (Reg.medCtrl p) 0 = true ∧ ethSound f = true ∧ etherType (f.take (f.length - 4)) = (0x0806, vlan, o) ∧ beAt (f.take (f.length - 4)) o 4 = 0x00010800 ∧ beAt (f.take (f.length - 4)) (o + 6) 2 = 1 ∧ s.ownIp p ≠ 0 ∧ beAt (f.take (f.length - 4)) (o + 24) 4 = s.ownIp p) ∧
    (∃ (s : State) (p : Fin 2) (f : List Byte), s.bit (Reg.medCtrl p) 0 = true ∧ ethSound f = false) ∧
    (∃ (s : State) (p : Fin 2) (f : List Byte), s.bit (Reg.medCtrl p) 0 = true ∧ s.memStill = true ∧ 786432 < mget s.medBuf p 0 + f.length) :=
  ⟨⟨{ wr [(Reg.medCtrl 0, 1)] with flows := [(16, { w := [(2, 7)] })] }, 14, none, 0, arpReq 7, by decide +kernel⟩,
   ⟨wr [(Reg.medCtrl 0, 1)], 0, zeros 64, by decide +kernel⟩,
   ⟨{ wr [(Reg.medCtrl 0, 1)] with mem := { frozen := some 0 }, medBuf := [(0, 786432)] }, 0, zeros 64, by decide +kernel⟩⟩

/-- Each clause of `Obligations.FlowsTakePackets` has a state and operands that meet its hypotheses. -/
theorem witness_flowsTakePackets :
    (∃ (s : State) (dt n : Nat) (p : Fin 2) (f : List Byte) (u : Udp) (r : Rtp) (g : Flow), s.bit (Reg.medCtrl p) 0 = true ∧ (s.memStill = false ∨ mget s.medBuf p 0 + f.length ≤ 786432) ∧ ethSound f = true ∧ isIgmpQuery (f.take (f.length - 4)) = false ∧ udpParse (f.take (f.length - 4)) = some u ∧ rtpParse u.data = some r ∧ ((List.range 16).filter fun k => (s.flw k).matches_ p u r) = [n] ∧ (s.flw n).asm = [] ∧ (s.flw n).floor = none ∧ (s.flw n).lastSeq = none ∧ ({ s.flw n with heardM := [0, 1].map fun k => if k = p.val then (s.now + dt) % 2 ^ 64 else (s.flw n).heardM.getD k 0 }).police ((s.now + dt) % 2 ^ 64) (r.segs.foldl (fun a (x : Nat × Nat × Nat × Bool) => a + x.1) 0) = some g) ∧
    (∃ (s : State) (dt : Nat) (n : Fin 16) (p : Fin 2), bitsOf ((s.flw n).word 0) 2 0 = 7 ∧ (s.flw n).heardM.getD p 0 + (s.flw n).word 9 % 65536 * 1000 ≤ (s.now + dt) % 2 ^ 64) ∧
    (∃ (s : State), s.fld Reg.flowIdx 4 0 < 16 ∧ flowRefused (s.flw (s.fld Reg.flowIdx 4 0)) (fun k => s.rn (Reg.flowData k) &&& flowMask (s.fld Reg.flowIdx 4 0) k) = false) ∧
    (∃ (s : State), s.fld Reg.flowIdx 4 0 < 16 ∧ flowRefused (s.flw (s.fld Reg.flowIdx 4 0)) (fun k => s.rn (Reg.flowData k) &&& flowMask (s.fld Reg.flowIdx 4 0) k) = true) :=
  ⟨⟨flowS, 0, 0, 0, udp 0xEF000001 5004 rtpMsg, ((udpParse (udp 0xEF000001 5004 rtpMsg)).getD ⟨none, 0, 0, 0, []⟩), ((rtpParse rtpMsg).getD ⟨false, 0, 0, 0, [], []⟩), flowG, by decide +kernel⟩,
   ⟨{ State.reset with flows := [(0, { w := [(0, 7)] })] }, 10000000, 0, 0, by decide +kernel⟩,
   ⟨wr [(Reg.flowData 0, 0x100), (Reg.flowData 9, 1)], by decide +kernel⟩,
   ⟨State.reset, by decide +kernel⟩⟩

/-- Each clause of `Obligations.FlashSidebandAndPins` has a state and operands that meet its hypotheses. -/
theorem witness_flashSidebandAndPins :
    (∃ (s : State) (data : List Byte), s.flashHeld = false ∧ data.length = s.fld Reg.xspiLen 23 0) ∧
    (∃ (s : State) (dt req op : Nat) (c : Instr), s.flashHeld = false ∧ (c = .xspiProgram dt req ∧ op = 1) ∨ (c = .xspiErase dt req ∧ op = 2) ∨ (c = .xspiRaw dt req ∧ op = 3)) ∧
    (∃ (s : State) (dt req : Nat) (data : List Byte) (c : Instr), s.flashHeld = true ∧ (c = .xspiRead dt req data ∨ c = .xspiProgram dt req ∨ c = .xspiErase dt req ∨ c = .xspiRaw dt req)) ∧
    (∃ (s : State) (op cs a n : Nat), s.xspi.cmd = some (op, cs, a, n) ∧ (op = 0 → s.xspi.rest = []) ∧ (op = 1 → n ≤ s.xspi.prog.length)) ∧
    (∃ (s : State) (line : Fin 2), s.xspi.levels.contains (16 + line.val) = false ∧ (if line = 0 then 256 ≤ s.xspi.fifo.length else s.xspi.room = true) ∧ (∀ c, c < 64 → (s.dmaCh c).run = none)) ∧
    (∃ (s : State) (dt req : Nat) (rd : Bool) (c : Instr), s.sbus.cmd = none ∧ (c = .sbusRead dt req ∧ rd = true) ∨ (c = .sbusWrite dt req ∧ rd = false)) ∧
    (∃ (s : State) (c : Nat), s.sbus.cmd = some (true, c)) ∧
    (∃ (s : State) (rd : Bool) (c : Nat), s.sbus.cmd = some (rd, c)) ∧
    (∃ (s : State) (temps : List (Option Int)) (c : Fin 8) (a b : Int), s.bit Reg.sbusCtrl 19 = true ∧ s.bit (Reg.mcRanks c) 31 = true ∧ temps.getD (2 * c) none = some a ∧ temps.getD (2 * c + 1) none = some b) ∧
    (∃ (s : State) (p : Fin 16), s.gpioFunc p = 0 ∧ s.bit Reg.gpioDir p = false) ∧
    (∃ (s : State) (dt t0 : Nat) (p : Fin 16), mget (s.tick dt).pulses p none = some t0 ∧ t0 + (if s.gpioFunc p = 8 then 100000 else 1000) ≤ (s.now + dt) % 2 ^ 64) :=
  ⟨⟨State.reset, [], by decide +kernel⟩,
   ⟨State.reset, 0, 0, 1, .xspiProgram 0 0, by decide +kernel⟩,
   ⟨{ State.reset with xspi := { cmd := some (1, 0, 0, 0) } }, 0, 0, [], .xspiErase 0 0, by decide +kernel⟩,
   ⟨{ State.reset with xspi := { cmd := some (2, 0, 0, 0) } }, 2, 0, 0, 0, by decide +kernel⟩,
   ⟨{ State.reset with xspi := { fifo := zeros 256 } }, 0, by decide +kernel⟩,
   ⟨State.reset, 0, 0, true, .sbusRead 0 0, by decide +kernel⟩,
   ⟨{ State.reset with sbus := { cmd := some (true, 5) } }, 5, by decide +kernel⟩,
   ⟨{ State.reset with sbus := { cmd := some (false, 5) } }, false, 5, by decide +kernel⟩,
   ⟨wr [(Reg.sbusCtrl, 0x80000), (Reg.mcRanks 0, 0x80001011)], [some 20, some 30], 0, 20, 30, by decide +kernel⟩,
   ⟨State.reset, 0, by decide +kernel⟩,
   ⟨{ State.reset with pulses := [(0, some 0)] }, 100000, 0, 0, by decide +kernel⟩⟩

/-- Each clause of `Obligations.HaspRing` has a state and operands that meet its hypotheses. -/
theorem witness_haspRing :
    (∃ (s : State) (p : Fin 2), s.haspUp.contains p.val = true) ∧
    (∃ (s : State) (dt : Nat) (p : Fin 2) (f : List Byte) (h : HFrame), s.haspUp.contains p.val = true ∧ ethSound f = true ∧ haspParse f = some h ∧ h.type = 1 ∧ h.hop = 0 ∧ h.src ≠ s.ringPos ∧ h.src < 16 ∧ (s.tick dt).haspSeen h = false ∧ s.hasp.members = []) ∧
    (∃ (s : State) (dt : Nat) (pos : Fin 16) (m : Member), mget s.hasp.members pos none = some m ∧ m.heard + 3000000 ≤ (s.now + dt) % 2 ^ 64) :=
  ⟨⟨haspS [], 0, by decide +kernel⟩,
   ⟨haspS [], 0, 0, hf 1 (zeros 35), hfr 1 (zeros 35), by decide +kernel⟩,
   ⟨{ State.reset with hasp := { members := [(1, some ⟨0, 0, 0, 0, 0⟩)] } }, 3000000, 1, ⟨0, 0, 0, 0, 0⟩, by decide +kernel⟩⟩

/-- Each clause of `Obligations.HaspTimeMeasures` has a state and operands that meet its hypotheses. -/
theorem witness_haspTimeMeasures :
    (∃ (s : State) (dt : Nat) (p : Fin 2) (f : List Byte) (h : HFrame), s.haspUp.contains p.val = true ∧ ethSound f = true ∧ haspParse f = some h ∧ h.type = 2 ∧ h.src ≠ s.ringPos ∧ (s.tick dt).haspSeen h = false ∧ s.bit (Reg.haspMaster 0) 31 = true ∧ s.fld (Reg.haspMaster 0) 3 0 = h.src) ∧
    (∃ (s : State) (p : Fin 2), s.bit Reg.timeStat 30 = true ∧ s.haspUp.contains p.val = true) :=
  ⟨⟨haspS [(Reg.haspMaster 0, 0x80000001)], 0, 0, hf 2 (zeros 20), hfr 2 (zeros 20), by decide +kernel⟩,
   ⟨haspS [(Reg.timeStat, 0x40000000)], 0, by decide +kernel⟩⟩

/-- Each clause of `Obligations.Tunnels` has a state and operands that meet its hypotheses. -/
theorem witness_tunnels :
    (∃ (s : State) (dt req : Nat) (p : Fin 2) (rd : Bool) (c : Instr), s.hasp.tunnel = none ∧ (c = .tunRead dt req p ∧ rd = true) ∨ (c = .tunWrite dt req p ∧ rd = false)) ∧
    (∃ (s : State) (dt req : Nat) (p : Fin 2) (c : Instr), s.hasp.tunnel.isSome ∧ (c = .tunRead dt req p ∨ c = .tunWrite dt req p)) ∧
    (∃ (s : State) (dt : Nat) (p : Fin 2) (f : List Byte) (h : HFrame) (u : Tunnel), s.haspUp.contains p.val = true ∧ ethSound f = true ∧ haspParse f = some h ∧ h.type = 7 ∧ h.src ≠ s.ringPos ∧ (s.tick dt).haspSeen h = false ∧ beAt h.body 0 1 = s.ringPos ∧ s.hasp.tunnel = some u ∧ beAt h.body 1 2 = u.id ∧ u.read = true ∧ beAt h.body 3 1 = 0) ∧
    (∃ (s : State) (dt : Nat) (p : Fin 2) (u : Tunnel), s.hasp.tunnel = some u ∧ u.page = p.val ∧ u.sentAt + 100000 ≤ (s.now + dt) % 2 ^ 64) ∧
    (∃ (s : State) (dt : Nat) (p : Fin 2) (f : List Byte) (h : HFrame), s.haspUp.contains p.val = true ∧ ethSound f = true ∧ haspParse f = some h ∧ h.type = 6 ∧ h.src ≠ s.ringPos ∧ (s.tick dt).haspSeen h = false ∧ beAt h.body 0 1 = s.ringPos ∧ s.bit (Reg.haspCtrl p) 1 = false) ∧
    (∃ (s : State) (dt : Nat) (p : Fin 2) (f : List Byte) (h : HFrame) (n : Fin 8), s.haspUp.contains p.val = true ∧ ethSound f = true ∧ haspParse f = some h ∧ h.type = 6 ∧ h.src ≠ s.ringPos ∧ (s.tick dt).haspSeen h = false ∧ beAt h.body 0 1 = s.ringPos ∧ s.bit (Reg.haspCtrl p) 1 = true ∧ beAt h.body 3 1 = 2 ∧ beAt h.body 4 4 = Reg.mcLatTgt n) :=
  ⟨⟨State.reset, 0, 0, 0, true, .tunRead 0 0 0, by decide +kernel⟩,
   ⟨{ haspS [] with hasp := { (haspS []).hasp with tunnel := some ⟨0, 0, true, 0⟩ } }, 0, 0, 0, .tunWrite 0 0 0, by decide +kernel⟩,
   ⟨{ haspS [] with hasp := { (haspS []).hasp with tunnel := some ⟨0, 0, true, 0⟩ } }, 0, 0, hf 7 (zeros 12), hfr 7 (zeros 12), ⟨0, 0, true, 0⟩, by decide +kernel⟩,
   ⟨{ haspS [] with hasp := { (haspS []).hasp with tunnel := some ⟨0, 0, true, 0⟩ } }, 100000, 0, ⟨0, 0, true, 0⟩, by decide +kernel⟩,
   ⟨haspS [], 0, 0, hf 6 (zeros 12), hfr 6 (zeros 12), by decide +kernel⟩,
   ⟨haspS [(Reg.haspCtrl 0, 3)], 0, 0, hf 6 (beBytes 4 2 ++ beBytes 4 (Reg.mcLatTgt 0) ++ beBytes 4 9), hfr 6 (beBytes 4 2 ++ beBytes 4 (Reg.mcLatTgt 0) ++ beBytes 4 9), 0, by decide +kernel⟩⟩

/-- Each clause of `Obligations.ManagementSpi` has a state and operands that meet its hypotheses. -/
theorem witness_managementSpi :
    (∃ (l : List Byte), 4 ≤ l.length ∧ l.length < 8) ∧
    (∃ (s : State), (∀ key, mget s.hiSnap key none = none)) ∧
    (∃ (s : State) (a c r : Nat) (l : List Byte) (k : Fin 4 → Nat), s.bit Reg.mspiCtrl 0 = true ∧ s.memStill = false ∧ a % 4 = 0 ∧ a < 2 ^ 41 ∧ l.length = 4 ∧ Function.Injective k ∧ (∀ i : Fin 4, s.place (a + i) = some (c, r, k i)) ∧ s.rankLost c r = false) ∧
    (∃ (s : State) (a : Nat), s.bit Reg.mspiCtrl 0 = true ∧ s.memStill = false ∧ a % 4 = 0 ∧ a < 2 ^ 41 ∧ (∀ i : Fin 4, s.burstPoisoned (a + i) = false)) ∧
    (∃ (s : State) (dt a n : Nat) (l : List Byte) (c : Instr), s.bit Reg.mspiCtrl 0 = false ∧ (c = .writeMem dt a l ∨ c = .readMem dt a n)) :=
  ⟨⟨zeros 4, by decide +kernel⟩,
   ⟨State.reset, fun _ => rfl⟩,
   ⟨memS [(Reg.mspiCtrl, 1)], 0, 0, 0, zeros 4, fun i => (((memS [(Reg.mspiCtrl, 1)]).place (0 + i)).getD (0, 0, 0)).2.2, by decide +kernel, by decide +kernel, by decide +kernel, by decide +kernel, by decide +kernel, by unfold Function.Injective; decide +kernel, by decide +kernel, by decide +kernel⟩,
   ⟨memS [(Reg.mspiCtrl, 1)], 0, by decide +kernel⟩,
   ⟨wr [(Reg.mspiCtrl, 0)], 0, 0, 0, [], .writeMem 0 0 [], by decide +kernel⟩⟩

/-- Each clause of `Obligations.TablesStoreAndRead` has a state and operands that meet its hypotheses. -/
theorem witness_tablesStoreAndRead :
    (∃ (s : State) (e b : Nat) (set : Fin 8), e = s.fld (Reg.coefIdx set) 10 0 ∧ b = s.fld (Reg.coefIdx set) 11 11 ∧ e ≤ 1791 ∧ b ≠ s.fld (Reg.coefCtrl set) 0 0 ∧ b ≠ (s.sh (Reg.coefCtrl set)).toNat % 2 ∧ s.coefInUse set b = false) ∧
    (∃ (s : State) (e b : Nat) (set : Fin 8), e = s.fld (Reg.coefIdx set) 10 0 ∧ b = s.fld (Reg.coefIdx set) 11 11 ∧ (1791 < e ∨ b = s.fld (Reg.coefCtrl set) 0 0 ∨ b = (s.sh (Reg.coefCtrl set)).toNat % 2 ∨ s.coefInUse set b = true)) ∧
    (∃ (s : State) (e : Nat) (set : Fin 8), e = s.fld (Reg.coefIdx set) 10 0) ∧
    (∃ (s : State) (j e b : Nat), j = s.fld Reg.toneSel 4 0 ∧ e = s.fld Reg.toneIdx 10 0 ∧ b = s.fld Reg.toneIdx 11 11 ∧ e ≤ toneLimit j ∧ b ≠ s.fld Reg.toneBank j j ∧ b ≠ bitsOf (s.sh Reg.toneBank).toNat j j ∧ s.toneInUse j b = false) ∧
    (∃ (s : State) (j e b : Nat), j = s.fld Reg.toneSel 4 0 ∧ e = s.fld Reg.toneIdx 10 0 ∧ b = s.fld Reg.toneIdx 11 11 ∧ (toneLimit j < e ∨ b = s.fld Reg.toneBank j j ∨ b = bitsOf (s.sh Reg.toneBank).toNat j j ∨ s.toneInUse j b = true)) ∧
    (∃ (s : State) (j e : Nat), j = s.fld Reg.toneSel 4 0 ∧ e = s.fld Reg.toneIdx 10 0) ∧
    (∃ (s : State) (e b : Nat) (cv : Fin 4), e = s.fld (Reg.cvcLutIdx cv) 10 0 ∧ b = s.fld (Reg.cvcLutIdx cv) 11 11 ∧ e ≤ 1024 ∧ b ≠ s.fld (Reg.cvcLutSel cv) 0 0 ∧ b ≠ (s.sh (Reg.cvcLutSel cv)).toNat % 2 ∧ s.lutInUse cv b = false) ∧
    (∃ (s : State) (e b : Nat) (cv : Fin 4), e = s.fld (Reg.cvcLutIdx cv) 10 0 ∧ b = s.fld (Reg.cvcLutIdx cv) 11 11 ∧ (1024 < e ∨ b = s.fld (Reg.cvcLutSel cv) 0 0 ∨ b = (s.sh (Reg.cvcLutSel cv)).toNat % 2 ∨ s.lutInUse cv b = true)) ∧
    (∃ (s : State) (e : Nat) (cv : Fin 4), e = s.fld (Reg.cvcLutIdx cv) 10 0) :=
  ⟨⟨wr [(Reg.coefIdx 0, 0xEFF)], 1791, 1, 0, by decide +kernel⟩,
   ⟨wr [(Reg.coefIdx 0, 0xF00)], 1792, 1, 0, by decide +kernel⟩,
   ⟨wr [(Reg.coefIdx 0, 0x700)], 1792, 0, by decide +kernel⟩,
   ⟨wr [(Reg.toneIdx, 0xC00)], 0, 1024, 1, by decide +kernel⟩,
   ⟨wr [(Reg.toneIdx, 0xC01)], 0, 1025, 1, by decide +kernel⟩,
   ⟨State.reset, 0, 0, by decide +kernel⟩,
   ⟨wr [(Reg.cvcLutIdx 0, 0xC00)], 1024, 1, 0, by decide +kernel⟩,
   ⟨wr [(Reg.cvcLutIdx 0, 0xC01)], 1025, 1, 0, by decide +kernel⟩,
   ⟨State.reset, 0, 0, by decide +kernel⟩⟩

/-- Each clause of `Obligations.SweepCreditsWear` has a state and operands that meet its hypotheses. -/
theorem witness_sweepCreditsWear :
    (∃ (s : State) (dt : Nat), s.lamp.on = true ∧ s.lamp.active = false ∧ s.lamp.fresh = true ∧ (s.now + dt) % 2 ^ 64 % 1000000 = 0) ∧
    (∃ (s : State) (dt : Nat), s.lamp.on = true ∧ s.lamp.active = false ∧ s.lamp.fresh = false ∧ (s.now + dt) % 2 ^ 64 % 1000000 = 0 ∧ s.lamp.start + s.lamp.period * 1000000 ≤ (s.now + dt) % 2 ^ 64) ∧
    (∃ (s : State) (dt n i : Nat), s.lamp.active = true ∧ (s.tick dt).bgHeld 1 = false ∧ s.memStill = false ∧ s.sweepNext s.lamp.tile s.lamp.idx = some (n, i) ∧ s.burstPoisoned (s.lamp.base + 8 * ((s.tile n).pixBase + i)) = false ∧ (s.tile n).placed = false ∨ s.liveCv (s.tile n).cv = false ∨ (s.tile n).dark = true ∧ (s.calEntry (s.rn64 Reg.lampCalLo % 2 ^ 41) ((s.tile n).pixBase + i)).testBit 63 = false ∧ (∀ c : Fin 3, bitsOf (ofLe (s.rdBytes (s.lamp.base + 8 * ((s.tile n).pixBase + i)) 8)) (20 * c + 19) (20 * c) < 0xFFFFF)) ∧
    (∃ (s : State) (dt n i a c r : Nat) (k : Fin 8 → Nat), s.lamp.active = true ∧ (s.tick dt).bgHeld 1 = false ∧ s.memStill = false ∧ s.sweepNext s.lamp.tile s.lamp.idx = some (n, i) ∧ s.canSample (s.tile n) = true ∧ a = s.lamp.base + 8 * ((s.tile n).pixBase + i) ∧ a % 8 = 0 ∧ (∀ j : Fin 8, s.place (a + j) = some (c, r, k j)) ∧ Function.Injective k ∧ s.rankLost c r = false ∧ (∀ j, mget s.poison (k j / 64) false = false) ∧ s.lamp.noCredit.contains (a / 64 * 64) = false ∧ (s.calEntry (s.rn64 Reg.lampCalLo % 2 ^ 41) ((s.tile n).pixBase + i)).testBit 63 = false) ∧
    (∃ (s : State), s.lamp.active = true ∧ s.sweepNext s.lamp.tile s.lamp.idx = none) :=
  ⟨⟨{ State.reset with lamp := { on := true, fresh := true } }, 0, by decide +kernel⟩,
   ⟨{ State.reset with lamp := { on := true } }, 1000000, by decide +kernel⟩,
   ⟨{ memS [] with lamp := { active := true }, tiles := [(1, { w := 1, h := 1, state := .assigned })] }, 0, 1, 0, by decide +kernel⟩,
   ⟨{ memS [] with lamp := { active := true }, tiles := [(1, { w := 1, h := 1, state := .assigned })] }, 0, 1, 0, 0, 0, 0, fun j => (((memS []).place (0 + j)).getD (0, 0, 0)).2.2, by decide +kernel, by decide +kernel, by decide +kernel, by decide +kernel, by decide +kernel, by decide +kernel, by decide +kernel, by decide +kernel, by unfold Function.Injective; decide +kernel, by decide +kernel, by decide +kernel, by decide +kernel, by decide +kernel⟩,
   ⟨{ State.reset with lamp := { active := true } }, by decide +kernel⟩⟩

/-- Each clause of `Obligations.CheckpointsSaveAndRestoreWear` has a state and operands that meet its hypotheses. -/
theorem witness_checkpointsSaveAndRestoreWear :
    (∃ (s : State) (dt req slot : Nat) (c : Instr), (c = .ckptNow dt req ∨ c = .checkpointDue dt ∧ s.bit Reg.lampCkptCtrl 0 = true ∧ (s.now + dt) % 2 ^ 64 % (s.fld Reg.lampCkptCtrl 11 4 * 60000000000) = 0) ∧ s.lamp.ckpt = 0 ∧ s.lamp.restoring = false ∧ s.faults.ltSlot = none ∧ slot = (if s.bit Reg.lampCkptStat 31 then 1 - s.fld Reg.lampCkptStat 30 30 else 0) ∧ s.bodyFits (s.goodBlocks slot).length s.nTab = true) ∧
    (∃ (s : State), s.lamp.ckpt = 0 ∧ s.lamp.restoring = false ∧ s.faults.ltSlot = none ∧ s.bodyFits (s.goodBlocks (if s.bit Reg.lampCkptStat 31 then 1 - s.fld Reg.lampCkptStat 30 30 else 0)).length s.nTab = false) ∧
    (∃ (s : State), (s.lamp.ckpt ≠ 0 ∨ s.lamp.restoring = true)) ∧
    (∃ (s : State), s.lamp.ckpt = 0 ∧ s.lamp.restoring = false ∧ s.faults.ltSlot.isSome = true) ∧
    (∃ (s : State), s.lamp.ckpt = 1) ∧
    (∃ (s : State) (i b : Nat), (s.lamp.ckpt = 1 ∨ s.lamp.ckpt = 2) ∧ s.lamp.waits = false ∧ i < 16 * s.fld Reg.lampCkptCtrl 21 12 ∧ b = 64 * s.fld Reg.lampCkptCtrl 31 22 + s.lamp.slot * (16 * s.fld Reg.lampCkptCtrl 21 12) + i) ∧
    (∃ (s : State) (body : List Byte), s.lamp.ckpt = 2 ∧ body = s.rdBytes (s.rn64 Reg.lampWearLo % 2 ^ 41) (8 * s.lamp.entries)) ∧
    (∃ (s : State), s.lamp.ckpt = 3 ∧ s.lamp.waits = false ∧ s.lamp.tStart < 2 ^ 64) ∧
    (∃ (s : State), s.lamp.ckpt = 3 ∧ s.lamp.waits = false) ∧
    (∃ (s : State), s.bit Reg.lampSweepPos 31 = true ∧ s.lamp.ckpt = 0 ∧ s.lamp.restoring = false) ∧
    (∃ (s : State), (s.bit Reg.lampSweepPos 31 = false ∨ s.lamp.ckpt ≠ 0 ∨ s.lamp.restoring = true)) ∧
    (∃ (s : State) (x y : List Byte), s.lamp.restoring = true ∧ s.lamp.waits = false ∧ recordValid x = false ∧ recordValid y = false) ∧
    (∃ (s : State) (x y z : List Byte) (second : Bool), s.lamp.restoring = true ∧ s.lamp.waits = false ∧ recordValid x = !second ∧ recordValid y = second ∧ z = (if second then y else x)) :=
  ⟨⟨wr [(Reg.lampCkptCtrl, 0x1000)], 0, 0, 0, .ckptNow 0 0, by decide +kernel⟩,
   ⟨wr [(Reg.lampCkptCtrl, 0)], by decide +kernel⟩,
   ⟨{ State.reset with lamp := { ckpt := 1 } }, by decide +kernel⟩,
   ⟨{ State.reset with faults := { ltSlot := some 0 } }, by decide +kernel⟩,
   ⟨{ State.reset with lamp := { ckpt := 1 } }, by decide +kernel⟩,
   ⟨{ wr [(Reg.lampCkptCtrl, 0x1000)] with lamp := { ckpt := 1 } }, 15, 15, by decide +kernel⟩,
   ⟨{ State.reset with lamp := { ckpt := 2 } }, [], by decide +kernel⟩,
   ⟨{ State.reset with lamp := { ckpt := 3 } }, by decide +kernel⟩,
   ⟨{ State.reset with lamp := { ckpt := 3 } }, by decide +kernel⟩,
   ⟨wr [(Reg.lampSweepPos, 0x80000000)], by decide +kernel⟩,
   ⟨{ State.reset with lamp := { ckpt := 1 } }, by decide +kernel⟩,
   ⟨{ State.reset with lamp := { restoring := true } }, [], [], by decide +kernel⟩,
   ⟨{ State.reset with lamp := { restoring := true } }, wearRec, [], wearRec, false, rfl, rfl, wearRec_valid, rfl, rfl⟩⟩

/-- Each clause of `Obligations.VaultKeepsFrames` has a state and operands that meet its hypotheses. -/
theorem witness_vaultKeepsFrames :
    (∃ (s : State) (dt cv bk g n : Nat), (s.tick dt).bgHeld 4 = false ∧ s.vault.moves.find? (fun m => !s.bankWritten m.1 m.2.1) = some (cv, bk, g) ∧ s.freeGranules.find? (· < g) = some n) ∧
    (∃ (s : State) (a : Nat), a < 2 ^ 29 ∧ s.faults.lost = [] ∧ s.isRetired (resKey 2 (sectionOf a)) = false ∧ s.resCount (resKey 2 (sectionOf a)) + 1 ≤ min 65535 (s.resBudget 2)) ∧
    (∃ (s : State) (a : Nat), a < 2 ^ 29 ∧ s.faults.lost = [] ∧ s.faults.serving = [] ∧ s.isRetired (resKey 2 (sectionOf a)) = false) ∧
    (∃ (s : State) (sec : Fin 128), s.vault.copying.contains sec.val = true ∧ s.sectionWritten sec = false) ∧
    (∃ (s : State) (sec : Fin 128), s.sectionWritten sec = true) ∧
    (∃ (s : State) (dt : Nat) (errors : List Nat), s.bit Reg.vaultPart 1 = true ∧ (s.tick dt).bgHeld 4 = false ∧ s.faults.lost = [] ∧ (∀ a ∈ errors, sectionOf a ≠ s.vault.scrub) ∧ (∀ w ∈ s.vault.bad, sectionOf (8 * w) ≠ s.vault.scrub)) ∧
    (∃ (s : State) (req : Nat), s.peerRefused req = false ∧ s.bit Reg.vaultPart 16 = true ∧ s.bit Reg.vaultBar4Base 0 = false) ∧
    (∃ (s : State) (req : Nat), s.peerRefused req = false) ∧
    (∃ (s : State) (crc : Nat) (p : Fin 64) (x : Pix) (r : List (Pix × Nat)) (echo : List Byte), (s.prt p).readback = (x, crc) :: r ∧ 64 ≤ echo.length ∧ ofLe (echo.drop (echo.length - 4)) = crc32 (echo.take (echo.length - 4)) ∧ crc32c ((echo.drop 38).take (echo.length - 42)) = crc) :=
  ⟨⟨{ State.reset with vault := { moves := [(0, 0, 5)] } }, 0, 0, 0, 5, 0, by decide +kernel⟩,
   ⟨State.reset, 0, by decide +kernel⟩,
   ⟨State.reset, 0, by decide +kernel⟩,
   ⟨{ State.reset with vault := { copying := [3] } }, 3, by decide +kernel⟩,
   ⟨{ State.reset with canvases := [(0, { comp := some { frame := 1, start := 0, bands := [], lanes := [], bank := 0 } })], vault := { banks := [(0, { granA := [0] })] } }, 8, by decide +kernel⟩,
   ⟨wr [(Reg.vaultPart, 2)], 0, [], by decide +kernel⟩,
   ⟨wr [(Reg.vaultPart, 0x10000)], 0, by decide +kernel⟩,
   ⟨State.reset, 0, by decide +kernel⟩,
   ⟨{ State.reset with ports := [(0, { readback := [(⟨0, 0, 0, 0, 0, 1, false⟩, crc32c (zeros 22))] })] }, crc32c (zeros 22), 0, ⟨0, 0, 0, 0, 0, 1, false⟩, [], ethFrame (zeros 60), by decide +kernel⟩⟩

/-- Each clause of `Obligations.CommitsAreArmed` has a state and operands that meet its hypotheses. -/
theorem witness_commitsAreArmed :
    (∃ (s : State) (dt req off m : Nat) (n : Fin 4) (begun : List Nat) (v : Word) (trig : Trigger) (c : Instr), (c = .fire dt req v begun ∧ trig = .fire ∨ c = .timeTriggerArm dt req n v ∧ trig = .time n (s.rn64 (Reg.latchTtLo n)) ∧ v.getLsbD 31 = true ∧ s.trigBlocked (Reg.latchTtCtrl n) m = false ∨ c = .lineTriggerArm dt req n v ∧ trig = .line n (bitsOf v.toNat 17 16) ∧ v.getLsbD 31 = true ∧ s.trigBlocked (Reg.latchLt n) m = false) ∧ m = v.toNat % 65536 ∧ off ∈ s.pendingOf m ∧ off / 4096 = 0x010 + n ∧ m &&& s.busyMask = 0) ∧
    (∃ (s : State) (n : Fin 4), s.bit (Reg.latchTtCtrl n) 31 = true) ∧
    (∃ (s : State) (n : Fin 4), s.bit (Reg.latchLt n) 31 = true) ∧
    (∃ (s : State) (v : Word), v.toNat % 65536 &&& s.busyMask ≠ 0 ∧ s.turnkey.await = none) ∧
    (∃ (v : Word), v.toNat % 65536 = 0) :=
  ⟨⟨{ State.reset with shadow := [(Reg.cvMode 0, some 1)] }, 0, 0, Reg.cvMode 0, 1, 0, [], 1, .fire, .fire 0 0 1 [], by decide +kernel⟩,
   ⟨wr [(Reg.latchTtCtrl 0, 0x80000000)], 0, by decide +kernel⟩,
   ⟨wr [(Reg.latchLt 0, 0x80000000)], 0, by decide +kernel⟩,
   ⟨{ State.reset with latch := { armed := [{ seq := 1, groups := 1, trig := .fire }] } }, 1, by decide +kernel⟩,
   ⟨0, by decide +kernel⟩⟩

/-- Each clause of `Obligations.FiredCommitsApply` has a state and operands that meet its hypotheses. -/
theorem witness_firedCommitsApply :
    (∃ (s : State) (dt req m : Nat) (i : Fin 8) (n : Fin 4) (v w : Word) (begun : List Nat) (x : Commit) (c : Instr), s.OneWaits (Reg.coefCtrl i) v m ∧ s.Unloaded ∧ (c = .fire dt req w begun ∧ m = w.toNat % 65536 ∧ s.latch.accepted = [] ∧ m &&& s.wallGroups = 0 ∧ 3 ≤ s.fld Reg.wardMargin 15 0 ∧ s.turnkey.await = none ∨ c = .timeTriggerFire dt n begun ∧ s.latch.accepted = [x] ∧ x.groups = m ∧ (∃ at_, x.trig = .time n at_ ∧ at_ ≤ (s.now + dt) % 2 ^ 64) ∧ m &&& s.wallGroups = 0 ∨ c = .commitFire dt begun ∧ s.latch.accepted = [x] ∧ x.groups = m ∧ (∃ at_ wseq o, x.trig = .hasp at_ ∧ at_ ≤ (s.now + dt) % 2 ^ 64 ∧ x.wall = some (wseq, o) ∧ (s.tick dt).wallRefuser wseq = none))) ∧
    (∃ (s : State) (line seq : Nat) (n : Fin 64) (cv : Fin 4) (tmb : Fin 9) (a : Applying), s.latch.applying = [a] ∧ a.off = Reg.layHphase n ∧ a.cv = cv ∧ a.at_ = .lines [(tmb.val, line)] false ∧ a.begun = false ∧ a.seq = seq ∧ seq < 65536 ∧ s.fld (pgApplied (0x020 + n)) 15 0 ≠ seq) ∧
    (∃ (s : State) (cv : Fin 4) (tmb : Fin 9), (∀ x ∈ s.crossings cv, x.1 ≠ tmb.val)) :=
  ⟨⟨{ State.reset with shadow := [(Reg.coefCtrl 0, some 1)] }, 0, 0, 1, 0, 0, 1, 1, [], { seq := 0, groups := 0, trig := .fire }, .fire 0 0 1 [], by unfold State.OneWaits; decide +kernel, by unfold State.Unloaded; decide +kernel, Or.inl (by decide +kernel)⟩,
   ⟨{ State.reset with latch := { applying := [{ seq := 1, groups := 1, off := Reg.layHphase 0, cv := 0, value := 5, at_ := .lines [(0, 3)] false, fired := 0 }] } }, 3, 1, 0, 0, 0, { seq := 1, groups := 1, off := Reg.layHphase 0, cv := 0, value := 5, at_ := .lines [(0, 3)] false, fired := 0 }, by decide +kernel⟩,
   ⟨State.reset, 0, 0, by decide +kernel⟩⟩

/-- Each clause of `Obligations.WardJudges` has a state and operands that meet its hypotheses. -/
theorem witness_wardJudges :
    (∃ (s : State) (t0 : Nat) (c : Commit) (r : List Commit), s.latch.armed = c :: r ∧ s.latch.evalFrom = some t0 ∧ s.needsEval c = true ∧ s.bit Reg.wardCtrl 0 = true ∧ c.wall = none ∧ c.seq < 65536 ∧ s.turnkey.await = none) ∧
    (∃ (s : State) (dt t0 n at_ : Nat) (c : Commit), s.latch.armed = [c] ∧ s.latch.evalFrom = some t0 ∧ s.latch.accepted = [] ∧ c.trig = .time n at_ ∧ c.due = false ∧ (s.now + dt) % 2 ^ 64 < at_ ∧ c.wall = none ∧ s.turnkey.await = none ∧ (({ (s.tick dt).setRn Reg.wardEvalNs ((s.tick dt).now - t0) with latch := { s.latch with armed := [], evalFrom := none } } : State).judge [] c).code = 0) :=
  ⟨⟨{ wr [(Reg.wardCtrl, 1)] with shadow := [(Reg.cvMode 0, some 1)], latch := { armed := [{ seq := 1, groups := 1, trig := .fire }], evalFrom := some 0 } }, 0, { seq := 1, groups := 1, trig := .fire }, [], by decide +kernel⟩,
   ⟨{ State.reset with latch := { armed := [{ seq := 1, groups := 2, trig := .time 0 1000 }], evalFrom := some 0 } }, 0, 0, 0, 1000, { seq := 1, groups := 2, trig := .time 0 1000 }, by decide +kernel⟩⟩

/-- Each clause of `Obligations.ReadmissionRuns` has a state and operands that meet its hypotheses. -/
theorem witness_readmissionRuns :
    (∃ (s : State) (v : Word), s.locked 0x002 = false ∧ 50 ≤ v.toNat % 128 ∧ v.toNat % 128 ≤ 80) ∧
    (∃ (s : State) (v : Word), s.locked 0x002 = true ∧ v.toNat % 128 ≠ s.fld Reg.wardCeil 6 0) ∧
    (∃ (v : Word), v.toNat % 1024 ≤ 500) ∧
    (∃ (v : Word), 2000 ≤ v.toNat % 65536) ∧
    (∃ (s : State) (dt t0 : Nat), s.ward.readmit = some t0 ∧ s.latch = {} ∧ ({ s.tick dt with ward := { s.ward with readmit := none, gap := false } }.setBit Reg.wardStat 5).judgeStanding.code = 0) ∧
    (∃ (s : State) (dt n : Nat) (tried r : List Nat), s.ward.round = some tried ∧ s.bit Reg.wardCtrl 1 = true ∧ s.ward.readmit = none ∧ s.ward.restored + s.restorePace ≤ (s.now + dt) % 2 ^ 64 ∧ n < 32 ∧ s.restoreOrder.filter (fun x => !tried.contains x) = (n + 4) :: r ∧ (((s.tick dt).unshedLay n).standing.evaluate none (fun _ => 0) (fun _ => false)).code = 0) ∧
    (∃ (s : State) (dt : Nat), (s.now + dt) % 2 ^ 64 < s.ward.restored + s.restorePace) :=
  ⟨⟨State.reset, 60, by decide +kernel⟩,
   ⟨wr [(pgLock 0x002, 1)], 60, by decide +kernel⟩,
   ⟨5, by decide +kernel⟩,
   ⟨2000, by decide +kernel⟩,
   ⟨{ State.reset with ward := { readmit := some 0 } }, 0, 0, by decide +kernel⟩,
   ⟨{ wr [(Reg.wardCtrl, 2), (Reg.wardShedLo, 1)] with ward := { round := some [] } }, 0, 0, [], [], by decide +kernel⟩,
   ⟨{ State.reset with ward := { restored := 5 } }, 0, by decide +kernel⟩⟩

/-- Each clause of `Obligations.WallCommits` has a state and operands that meet its hypotheses. -/
theorem witness_wallCommits :
    (∃ (s : State) (dt off : Nat) (n : Fin 4) (p : Fin 2) (f : List Byte) (h : HFrame), s.haspUp.contains p.val = true ∧ ethSound f = true ∧ haspParse f = some h ∧ h.type = 4 ∧ h.src ≠ s.ringPos ∧ (s.tick dt).haspSeen h = false ∧ s.latch = {} ∧ off ∈ s.pendingOf (beAt h.body 2 2) ∧ off / 4096 = 0x010 + n) ∧
    (∃ (s : State) (dt : Nat) (p : Fin 2) (f : List Byte) (h : HFrame), s.haspUp.contains p.val = true ∧ ethSound f = true ∧ haspParse f = some h ∧ h.type = 5 ∧ h.src ≠ s.ringPos ∧ (s.tick dt).haspSeen h = false) ∧
    (∃ (s : State) (dt w o peer at_ : Nat) (x : Commit), s.latch.armed = [] ∧ s.latch.accepted = [x] ∧ x.trig = .hasp at_ ∧ x.due = false ∧ at_ ≤ (s.now + dt) % 2 ^ 64 + 20000 ∧ x.wall = some (w, o) ∧ (s.tick dt).wallRefuser w = some peer ∧ s.turnkey.await = none) ∧
    (∃ (s : State) (dt w o at_ : Nat) (x : Commit), s.latch.armed = [] ∧ s.latch.accepted = [x] ∧ x.trig = .hasp at_ ∧ x.wall = some (w, o) ∧ (s.tick dt).wallRefuser w = none) :=
  ⟨⟨{ haspS [] with shadow := [(Reg.cvMode 0, some 1)] }, 0, Reg.cvMode 0, 0, 0, hf 4 (beBytes 2 5 ++ beBytes 2 1 ++ zeros 20), hfr 4 (beBytes 2 5 ++ beBytes 2 1 ++ zeros 20), by decide +kernel⟩,
   ⟨haspS [], 0, 0, hf 5 (zeros 8), hfr 5 (zeros 8), by decide +kernel⟩,
   ⟨{ State.reset with latch := { accepted := [{ seq := 1, groups := 1, trig := .hasp 0, wall := some (5, 1) }] }, hasp := { verdicts := [(5, 3, 1)] } }, 0, 5, 1, 3, 0, { seq := 1, groups := 1, trig := .hasp 0, wall := some (5, 1) }, by decide +kernel⟩,
   ⟨{ State.reset with latch := { accepted := [{ seq := 1, groups := 1, trig := .hasp 0, wall := some (5, 1) }] }, hasp := { verdicts := [(5, 0, 0)] } }, 0, 5, 1, 0, { seq := 1, groups := 1, trig := .hasp 0, wall := some (5, 1) }, by decide +kernel⟩⟩

/-- Each clause of `Obligations.FramesLatch` has a state and operands that meet its hypotheses. -/
theorem witness_framesLatch :
    (∃ (s : State) (dt : Nat) (cv : Fin 4) (d : Deliv), (s.cv cv).unsettled = true ∧ (s.cv cv).deliv = some d ∧ d.done = none ∧ d.broken = false ∧ d.frame = ((s.cv cv).showFrame + 1) % 2 ^ 32 ∧ (s.now + dt) % 2 ^ 64 ≤ s.deadlineOf cv ∧ s.allSent cv d = true ∧ (s.cv cv).comp.any (fun k => k.frame = d.frame && !k.done) = false ∧ (s.timingOf cv).genlock % 8 = 0 ∧ s.bit (Reg.cvMode cv) 3 = false ∧ s.keep.fspWait = none) ∧
    (∃ (s : State) (dt l : Nat) (cv : Fin 4), (s.cv cv).latchAt = some l ∧ l ≤ (s.now + dt) % 2 ^ 64 ∧ (s.cv cv).live = true ∧ (s.cv cv).composed = none ∧ (s.cv cv).hinge = none ∧ (s.cv cv).hingeNext = none) ∧
    (∃ (s : State) (dt p t0 l : Nat) (cv : Fin 4), (s.cv cv).latchRep = some t0 ∧ t0 ≤ (s.now + dt) % 2 ^ 64 ∧ (s.cv cv).latchAt = some l ∧ s.withPartners (s.portsOf cv) = [p] ∧ s.verOf p = 2 ∧ (s.prt p).up = true ∧ s.bit (Reg.prtCtrl p) 0 = true ∧ s.wireBusy p ((s.now + dt) % 2 ^ 64) = true ∧ s.oversize p 7 64 = false) ∧
    (∃ (s : State) (dt l : Nat) (cv : Fin 4), (s.cv cv).voidAt = some l ∧ l ≤ (s.now + dt) % 2 ^ 64 ∧ (s.cv cv).live = true ∧ (s.cv cv).composed = none ∧ (s.cv cv).hinge = none ∧ (s.cv cv).hingeNext = none) ∧
    (∃ (s : State) (p : Fin 16), s.gpioFunc p = 1) :=
  ⟨⟨cv0 (State.reset) { gen := .run, primed := true, lastLatch := 1000000, deliv := some { frame := 1, start := 0, bank := 0 } }, 0, 0, { frame := 1, start := 0, bank := 0 }, by decide +kernel⟩,
   ⟨cv0 (State.reset) { gen := .run, latchAt := some 0 }, 0, 0, 0, by decide +kernel⟩,
   ⟨{ portS [(Reg.scnPortsLo 0, 1)] with canvases := [(0, { latchRep := some 0, latchAt := some 5 })] }, 0, 0, 0, 5, 0, by decide +kernel⟩,
   ⟨cv0 (State.reset) { gen := .run, voidAt := some 0 }, 0, 0, 0, by decide +kernel⟩,
   ⟨wr [(Reg.gpioFuncLo, 1)], 0, by decide +kernel⟩⟩

/-- Each clause of `Obligations.FramesAbort` has a state and operands that meet its hypotheses. -/
theorem witness_framesAbort :
    (∃ (s : State) (dt : Nat) (cv : Fin 4), (s.cv cv).unsettled = true ∧ (s.cv cv).cand = none ∧ s.deadlineOf cv ≤ (s.now + dt) % 2 ^ 64 ∧ s.bit (Reg.cvMode cv) 2 = false ∧ s.bit (Reg.cvMode cv) 3 = false) ∧
    (∃ (s u : State) (dt p : Nat) (cv : Fin 4) (k : Comp), u = (s.tick dt).composeDue cv ∧ (u.cv cv).unsettled = true ∧ (u.cv cv).comp = some k ∧ k.done = false ∧ (u.cv cv).deliv = none ∧ u.bit (Reg.cvMode cv) 2 = true ∧ u.bit (Reg.cvMode cv) 3 = false ∧ k.linesDone < (u.cvSize cv).2 ∧ k.start + (k.linesDone + k.bands.length) * (((u.timingOf cv).tmin - (u.timingOf cv).lead) / (u.cvSize cv).2) ≤ (s.now + dt) % 2 ^ 64 ∧ p ∈ u.portsOf cv ∧ (∀ x ∈ u.packetsFor cv k.frame p, k.linesDone ≤ (u.pixRows x).1)) ∧
    (∃ (s : State) (dt l0 l1 k0 : Nat) (cv : Fin 4) (p : Fin 2) (f : List Byte) (h : HFrame), s.haspUp.contains p.val = true ∧ ethSound f = true ∧ haspParse f = some h ∧ h.type = 3 ∧ h.src ≠ s.ringPos ∧ (s.tick dt).haspSeen h = false ∧ beAt h.body 0 1 = cv.val ∧ beAt h.body 1 8 = (s.cv cv).lastLatch ∧ beAt h.body 9 8 = l1 ∧ l1 ≠ 2 ^ 64 - 1 ∧ (s.cv cv).unsettled = true ∧ s.bit (Reg.cvMode cv) 3 = true ∧ (s.cv cv).cand = some l0 ∧ (s.cv cv).votes = [⟨s.ringPos, (s.cv cv).lastLatch, some l0, k0⟩] ∧ (s.tick dt).voters cv = [s.ringPos, h.src] ∧ s.keep.fspWait = none) ∧
    (∃ (s : State) (dt : Nat) (cv : Fin 4), (s.cv cv).unsettled = true ∧ s.bit (Reg.cvMode cv) 3 = true ∧ s.bit (Reg.cvMode cv) 2 = false ∧ s.deadlineOf cv + 10000 ≤ (s.now + dt) % 2 ^ 64) :=
  ⟨⟨cv0 (State.reset) { gen := .run, primed := true }, 1000000000, 0, by decide +kernel⟩,
   ⟨(cv0 (wr [(Reg.cvMode 0, 4), (Reg.cvSize 0, 0x10001), (Reg.scnPortsLo 0, 1)]) { gen := .run, primed := true, comp := some { frame := 1, start := 0, bands := [], lanes := [], bank := 0 } }), ((cv0 (wr [(Reg.cvMode 0, 4), (Reg.cvSize 0, 0x10001), (Reg.scnPortsLo 0, 1)]) { gen := .run, primed := true, comp := some { frame := 1, start := 0, bands := [], lanes := [], bank := 0 } }).tick 0).composeDue 0, 0, 0, 0, { frame := 1, start := 0, bands := [], lanes := [], bank := 0 }, rfl, by decide +kernel, by decide +kernel, by decide +kernel, by decide +kernel, by decide +kernel, by decide +kernel, by decide +kernel, by decide +kernel, by decide +kernel, by decide +kernel⟩,
   ⟨{ haspS [(Reg.cvMode 0, 8)] with hasp := { (haspS []).hasp with members := [(1, some ⟨1, 0, 0, 0, 0⟩)] }, canvases := [(0, { gen := .run, primed := true, cand := some 5, votes := [⟨0, 0, some 5, 3⟩] })] }, 0, 5, 7, 3, 0, 0, hf 3 (beBytes 1 0 ++ beBytes 8 0 ++ beBytes 8 7 ++ zeros 20), hfr 3 (beBytes 1 0 ++ beBytes 8 0 ++ beBytes 8 7 ++ zeros 20), by decide +kernel⟩,
   ⟨cv0 (wr [(Reg.cvMode 0, 8)]) { gen := .run, primed := true }, 1000000000, 0, by decide +kernel⟩⟩

/-- Each clause of `Obligations.CompositionRuns` has a state and operands that meet its hypotheses. -/
theorem witness_compositionRuns :
    (∃ (s : State) (dt n : Nat) (cv : Fin 4) (tie : Bool) (begun : List Nat) (c : Instr), (c = .compositionStart dt cv tie begun ∧ (∃ d, (s.cv cv).due = some d ∧ d ≤ (s.now + dt) % 2 ^ 64) ∧ (s.tick dt).waitMet cv = true ∨ c = .waitLimit dt cv begun ∧ ∃ w, (s.cv cv).waitFrom = some w ∧ w + ((s.timingOf cv).tmax - (s.timingOf cv).tmin) ≤ (s.now + dt) % 2 ^ 64) ∧ n = (s.rn (Reg.cvFrameCnt cv) + 1) % 2 ^ 32 ∧ (s.cv cv).live = true ∧ (s.cv cv).comp = none ∧ s.latch = {} ∧ s.faults.taking = none ∧ s.keep.move = none ∧ s.keep.emerg = false ∧ s.paceCanvas ≠ some cv.val) ∧
    (∃ (s : State) (cv : Fin 4) (k : Comp), (s.cv cv).comp = some k ∧ k.done = false ∧ (s.cv cv).live = true ∧ s.bit (Reg.cvMode cv) 2 = false ∧ (s.cv cv).deliv.isSome = true ∨ (s.cv cv).primed = false ∧ s.latch.applying = [] ∧ s.keep.fspWait = none) ∧
    (∃ (s u : State) (dt y : Nat) (cv : Fin 4) (k : Comp), u = (s.tick dt).composeDue cv ∧ (u.cv cv).comp = some k ∧ k.done = false ∧ (u.cv cv).live = true ∧ u.bit (Reg.cvMode cv) 2 = true ∧ y < k.bands.length ∧ y < u.fld (Reg.scnLeadLines cv) 10 0 ∧ y < (u.cvSize cv).2 ∧ mfind k.begun y = none ∧ u.latch.applying = []) ∧
    (∃ (s u : State) (dt : Nat) (cv : Fin 4) (k : Comp), u = (s.tick dt).composeDue cv ∧ (u.cv cv).comp = some k ∧ k.dropped = false ∧ (u.cv cv).live = true ∧ u.bit (Reg.cvMode cv) 2 = true ∧ (u.cv cv).deliv = none ∧ k.frame = ((u.cv cv).showFrame + 1) % 2 ^ 32 ∧ (∀ y < min (u.fld (Reg.scnLeadLines cv) 10 0) (u.cvSize cv).2, y ∈ k.composedLines)) ∧
    (∃ (s : State) (dt line x : Nat) (cv : Fin 4) (n : Fin 64) (k : Comp), (s.cv cv).comp = some k ∧ k.done = false ∧ (mfind k.begun line).isSome = true ∧ line ∉ k.composedLines ∧ (s.tick dt).cutoffOf cv k line x ≤ (s.now + dt) % 2 ^ 64 ∧ (s.tick dt).bindMissing k n line x = true) :=
  ⟨⟨{ wr [(Reg.cvTmin 0, 2000000), (Reg.cvTmin 1, 1000000)] with canvases := [(0, { gen := .run, due := some 0 }), (1, { gen := .run })] }, 0, 1, 0, false, [], .compositionStart 0 0 false [], Or.inl ⟨rfl, ⟨0, by decide +kernel, by decide +kernel⟩, by decide +kernel⟩, by decide +kernel, by decide +kernel, by decide +kernel, by decide +kernel, by decide +kernel, by decide +kernel, by decide +kernel, by decide +kernel⟩,
   ⟨cv0 (State.reset) { gen := .run, comp := some { frame := 1, start := 0, bands := [], lanes := [], bank := 0 } }, 0, { frame := 1, start := 0, bands := [], lanes := [], bank := 0 }, by decide +kernel⟩,
   ⟨t2S, (t2S.tick 0).composeDue 0, 0, 0, 0, { frame := 1, start := 0, bands := [⟨0, 0, 0⟩], lanes := [], bank := 0 }, rfl, by decide +kernel, by decide +kernel, by decide +kernel, by decide +kernel, by decide +kernel, by decide +kernel, by decide +kernel, by decide +kernel, by decide +kernel⟩,
   ⟨t3S, (t3S.tick 0).composeDue 0, 0, 0, { frame := 1, start := 0, bands := [], lanes := [], bank := 0, composedLines := [0], linesDone := 1 }, rfl, by decide +kernel, by decide +kernel, by decide +kernel, by decide +kernel, by decide +kernel, by decide +kernel, by decide +kernel⟩,
   ⟨bindS, 20000000, 0, 0, 0, 5, bindK, by decide +kernel⟩⟩

/-- Each clause of `Obligations.HingeRuns` has a state and operands that meet its hypotheses. -/
theorem witness_hingeRuns :
    (∃ (s : State) (cv : Fin 4) (v : Word), v.getLsbD 0 = true ∧ s.hingeBusy cv = false) ∧
    (∃ (s : State) (cv : Fin 4) (v : Word), v.getLsbD 0 = true ∧ s.hingeBusy cv = true) ∧
    (∃ (s : State) (cv : Fin 4) (h : Hinge), (s.cv cv).hinge = some h ∧ (s.cv cv).gen = .reconfig) ∧
    (∃ (s : State) (dt : Nat) (cv : Fin 4) (h : Hinge), (s.cv cv).hinge = some h ∧ (s.cv cv).gen = .priming ∧ h.deadline ≤ (s.now + dt) % 2 ^ 64) ∧
    (∃ (s : State) (dt t0 p tile : Nat) (cv : Fin 4) (body : List Byte), (s.cv cv).holds = [(t0, p, tile, body)] ∧ t0 ≤ (s.now + dt) % 2 ^ 64 ∧ (s.prt p).up = true ∧ s.bit (Reg.prtCtrl p) 0 = true ∧ s.wireBusy p ((s.now + dt) % 2 ^ 64) = true ∧ s.oversize p 7 (max 64 (26 + body.length)) = false) :=
  ⟨⟨State.reset, 0, 1, by decide +kernel⟩,
   ⟨cv0 (State.reset) { hinge := some { seq := 1, groups := 0, fromOff := false, toOff := false, fired := 0, start := true } }, 0, 1, by decide +kernel⟩,
   ⟨cv0 (State.reset) { gen := .reconfig, hinge := some { seq := 1, groups := 0, fromOff := false, toOff := false, fired := 0 } }, 0, { seq := 1, groups := 0, fromOff := false, toOff := false, fired := 0 }, by decide +kernel⟩,
   ⟨cv0 (State.reset) { gen := .priming, hinge := some { seq := 1, groups := 0, fromOff := false, toOff := false, fired := 0 } }, 0, 0, { seq := 1, groups := 0, fromOff := false, toOff := false, fired := 0 }, by decide +kernel⟩,
   ⟨{ portS [] with canvases := [(0, { holds := [(0, 0, 3, [])] })] }, 0, 0, 0, 3, 0, [], by decide +kernel⟩⟩

/-- Each clause of `Obligations.AlphaBecomesUnorm` has a state and operands that meet its hypotheses. -/
theorem witness_alphaBecomesUnorm :
    (∃ (k a : Nat), (k = 2 ∨ k = 8 ∨ k = 16) ∧ a ≤ 65535) ∧
    (∃ (f : Nat), fmtHasAlpha f = false) :=
  ⟨⟨8, 65535, by decide +kernel⟩,
   ⟨3, by decide +kernel⟩⟩

/-- Each clause of `Obligations.TilesAreAssigned` has a state and operands that meet its hypotheses. -/
theorem witness_tilesAreAssigned :
    (∃ (s : State) (p : Fin 64), s.bit (Reg.prtCtrl p) 0 = true ∧ (s.prt p).up = false ∧ (s.prt p).lost = false) ∧
    (∃ (s : State) (p : Fin 64), (s.prt p).up = true ∧ s.loopHead p = none) ∧
    (∃ (s : State) (dt : Nat) (p : Fin 64), s.bit (Reg.prtCtrl p) 1 = true ∧ s.unassignedOn p = true ∧ (s.prt p).lastDisc + 1000000000 ≤ (s.now + dt) % 2 ^ 64 ∧ (s.prt p).up = true ∧ s.bit (Reg.prtCtrl p) 0 = true ∧ s.wireBusy p ((s.now + dt) % 2 ^ 64) = true ∧ (s.prt p).queue 6 = [] ∧ (s.prt p).queue (waitQueue 6) = [] ∧ s.oversize p 6 64 = false) ∧
    (∃ (s : State), s.taccess = none) ∧
    (∃ (s : State) (dt n : Nat) (p : Fin 64) (f : List Byte) (u : Upstream), (s.tick dt).v1Announce p f = none ∧ ((s.tick dt).receive p f).2 = some u ∧ u.type = 2 ∧ (beAt u.body 26 1).testBit 0 = false ∧ s.findId (beAt u.body 8 8) = none ∧ u.hop < 255 ∧ s.assignedCount < 4096 ∧ s.bit (Reg.prtCtrl p) 2 = true ∧ s.lowestFree = some n) ∧
    (∃ (s : State) (dt : Nat) (p : Fin 64) (f : List Byte) (u : Upstream), (s.tick dt).v1Announce p f = none ∧ ((s.tick dt).receive p f).2 = some u ∧ u.type = 2 ∧ (beAt u.body 26 1).testBit 0 = false ∧ s.findId (beAt u.body 8 8) = none ∧ u.hop < 255 ∧ s.assignedCount < 4096 ∧ s.bit (Reg.prtCtrl p) 2 = false ∧ s.announced.length < 64 ∧ (∀ a ∈ s.announced, a.id ≠ beAt u.body 8 8)) ∧
    (∃ (s : State) (dt : Nat) (n : Fin 4096), (s.tile n).state = .assigning ∧ (s.tile n).assignAt + 10000000 ≤ (s.now + dt) % 2 ^ 64) ∧
    (∃ (s : State) (dt : Nat) (n : Fin 4096), (s.tile n).state = .conflict ∧ (s.tile n).heard + 300000000 ≤ (s.now + dt) % 2 ^ 64 ∧ (s.now + dt) % 2 ^ 64 < (s.tile n).heardOther + 300000000) ∧
    (∃ (s : State), s.taccess = none ∧ ((s.tile s.ttblIdx).placed && s.liveCv (s.tile s.ttblIdx).cv) = false) ∧
    (∃ (s : State), s.taccess = none ∧ (s.tile s.ttblIdx).placed = true ∧ s.liveCv (s.tile s.ttblIdx).cv = true) ∧
    (∃ (s : State), s.taccess = none) ∧
    (∃ (s : State), s.taccess = none) ∧
    (∃ (s : State) (id : Nat), s.taccess = none ∧ s.ttblSpace = 0 ∧ (s.tile s.ttblIdx).state = .free ∧ id = s.rn (Reg.ttblData 0) + s.rn (Reg.ttblData 1) * 2 ^ 32 ∧ id ≠ 0 ∧ s.findId id = none) :=
  ⟨⟨wr [(Reg.prtCtrl 0, 1)], 0, by decide +kernel⟩,
   ⟨{ State.reset with ports := [(0, { up := true })] }, 0, by decide +kernel⟩,
   ⟨{ portS [] with announced := [⟨1, 0, 0, 0, 0, 0, 0, 0⟩] }, 1000000000, 0, by decide +kernel⟩,
   ⟨State.reset, by decide +kernel⟩,
   ⟨portS [], 0, 0, 0, up 2 0xFFFF (zeros 40), upOf (portS []) (up 2 0xFFFF (zeros 40)), by decide +kernel⟩,
   ⟨portS [(Reg.prtCtrl 0, 0x01F40803)], 0, 0, up 2 0xFFFF (zeros 40), upOf (portS [(Reg.prtCtrl 0, 0x01F40803)]) (up 2 0xFFFF (zeros 40)), by decide +kernel⟩,
   ⟨{ State.reset with tiles := [(5, { state := .assigning })] }, 10000000, 5, by decide +kernel⟩,
   ⟨{ State.reset with tiles := [(5, { state := .conflict, heardOther := 10 })] }, 300000005, 5, by decide +kernel⟩,
   ⟨State.reset, by decide +kernel⟩,
   ⟨{ State.reset with tiles := [(0, { placed := true, state := .assigned })], canvases := [(0, { gen := .run })] }, by decide +kernel⟩,
   ⟨State.reset, by decide +kernel⟩,
   ⟨State.reset, by decide +kernel⟩,
   ⟨wr [(Reg.ttblData 0, 7)], 7, by decide +kernel⟩⟩

/-- Each clause of `Obligations.TilesAreServed` has a state and operands that meet its hypotheses. -/
theorem witness_tilesAreServed :
    (∃ (s : State) (dt : Nat) (p : Fin 64), s.timePeriod p ≠ 0 ∧ (s.now + dt) % 2 ^ 64 % s.timePeriod p = 0 ∧ s.headOf p = none ∧ s.partner p = none ∧ s.verOf p = 2 ∧ (s.prt p).up = true ∧ s.bit (Reg.prtCtrl p) 0 = true ∧ s.wireBusy p ((s.now + dt) % 2 ^ 64) = true ∧ s.oversize p 7 64 = false) ∧
    (∃ (s : State) (n : Nat) (p : Fin 64), (s.prt p).up = true ∧ (s.tileList.filter fun x => x.2.given && x.2.port = p.val).map (·.1) = [n]) ∧
    (∃ (s : State) (dt p : Nat), s.taccess = none ∧ (s.tile s.ttblIdx).port = p ∧ s.partner p = none ∧ s.verOf p = 2 ∧ (s.prt p).up = true ∧ s.bit (Reg.prtCtrl p) 0 = true ∧ s.wireBusy p ((s.now + dt) % 2 ^ 64) = true ∧ s.oversize p 7 64 = false) ∧
    (∃ (s : State) (dt : Nat) (p : Fin 64) (f : List Byte) (u : Upstream), ((s.tick dt).receive p f).2 = some u ∧ u.type = 0x21 ∧ u.tile < 4096 ∧ (s.tile u.tile).given = true ∧ (s.tile u.tile).port = p) ∧
    (∃ (s : State) (dt : Nat) (p : Fin 64) (f : List Byte) (u : Upstream), ((s.tick dt).receive p f).2 = some u ∧ u.type = 0x30 ∧ u.tile < 4096 ∧ s.adopt.contains (u.tile, beAt u.body 14 2) = false ∧ s.taccess = none ∧ beAt u.body 16 1 = 0) ∧
    (∃ (s : State) (dt : Nat) (p : Fin 64) (f : List Byte) (u : Upstream) (a : TAccess), ((s.tick dt).receive p f).2 = some u ∧ u.type = 0x31 ∧ u.tile < 4096 ∧ s.adopt.contains (u.tile, beAt u.body 14 2) = false ∧ s.taccess = some a ∧ a.tile = u.tile ∧ a.reqId = beAt u.body 14 2 ∧ a.read = true ∧ 1 ≤ a.count ∧ a.count ≤ 14 ∧ beAt u.body 16 1 = 0) ∧
    (∃ (s : State) (dt req : Nat) (rd : Bool) (c : Instr), s.taccess = none ∧ (c = .tread dt req ∧ rd = true ∨ c = .twrite dt req ∧ rd = false)) ∧
    (∃ (s : State) (dt : Nat) (a : TAccess), s.taccess = some a ∧ a.sentAt + 10000000 ≤ (s.now + dt) % 2 ^ 64) ∧
    (∃ (s : State) (dt : Nat) (p : Fin 64) (f : List Byte) (u : Upstream) (c : Instr), ((s.tick dt).receive p f).2 = some u ∧ u.type = 0x40 ∧ (c = .status dt p f ∧ beAt u.body 8 1 = 0 ∨ c = .event dt p f ∧ beAt u.body 8 1 = 2 ∧ s.loopHead p = none) ∧ u.tile < 4096 ∧ (s.tile u.tile).state ≠ .free) ∧
    (∃ (s : State) (dt : Nat) (n : Fin 4096), (s.tile n).state = .assigned ∨ (s.tile n).state = .blanked ∧ (s.tile n).heard + s.telem3 (s.tile n) ≤ (s.now + dt) % 2 ^ 64) ∧
    (∃ (s : State) (dt l q : Nat) (p : Fin 64) (f : List Byte) (u : Upstream) (d : Deliv) (x : Pix), ((s.tick dt).receive p f).2 = some u ∧ u.type = 0x40 ∧ beAt u.body 8 1 = 1 ∧ beAt u.body 9 1 = 1 ∧ u.tile < 4096 ∧ (s.tile u.tile).given = true ∧ s.bit (Reg.scnCtrl (s.tile u.tile).cv) 2 = true ∧ q = s.servePort (s.tile u.tile) ∧ ((s.packetsFor (s.tile u.tile).cv (beAt u.body 12 4) q).filter (fun x => x.tile = u.tile)).find? (fun x => x.line = beAt u.body 16 2 && x.x0 = beAt u.body 18 2) = some x ∧ (s.cv x.cv).deliv = some d ∧ d.resends = [] ∧ 1 ≤ s.fld (Reg.scnCtrl x.cv) 5 3 ∧ s.resendLimit x.cv x.frame = some l ∧ (s.now + dt) % 2 ^ 64 * 10 + wireTime (s.rateOf q) (s.frameBytes (.pix x)) < l * 10 ∧ s.wireBusy q ((s.now + dt) % 2 ^ 64) = true) :=
  ⟨⟨portS [], 0, 0, by decide +kernel⟩,
   ⟨{ State.reset with ports := [(0, { up := true })], tiles := [(5, { state := .assigned })] }, 5, 0, by decide +kernel⟩,
   ⟨portS [], 0, 0, by decide +kernel⟩,
   ⟨{ portS [] with tiles := [(5, { state := .assigned })] }, 0, 0, up 0x21 5 (zeros 40), upOf ({ portS [] with tiles := [(5, { state := .assigned })] }) (up 0x21 5 (zeros 40)), by decide +kernel⟩,
   ⟨{ portS [] with tiles := [(5, { state := .assigned })] }, 0, 0, up 0x30 5 (zeros 40), upOf ({ portS [] with tiles := [(5, { state := .assigned })] }) (up 0x30 5 (zeros 40)), by decide +kernel⟩,
   ⟨{ portS [] with tiles := [(5, { state := .assigned })], taccess := some ⟨5, 0, true, 1, 0⟩ }, 0, 0, up 0x31 5 (zeros 40), upOf ({ portS [] with tiles := [(5, { state := .assigned })], taccess := some ⟨5, 0, true, 1, 0⟩ }) (up 0x31 5 (zeros 40)), ⟨5, 0, true, 1, 0⟩, by decide +kernel⟩,
   ⟨State.reset, 0, 0, true, .tread 0 0, by decide +kernel⟩,
   ⟨{ State.reset with taccess := some ⟨5, 0, true, 1, 0⟩ }, 10000000, ⟨5, 0, true, 1, 0⟩, by decide +kernel⟩,
   ⟨{ portS [] with tiles := [(5, { state := .assigned })] }, 0, 0, up 0x40 5 (zeros 40), upOf ({ portS [] with tiles := [(5, { state := .assigned })] }) (up 0x40 5 (zeros 40)), .status 0 0 (up 0x40 5 (zeros 40)), by decide +kernel⟩,
   ⟨{ portS [] with tiles := [(5, { state := .assigned })] }, 10000000000, 5, by decide +kernel⟩,
   ⟨nackS, 0, (nackS.resendLimit 0 3).getD 0, 0, 0, nackF, upOf nackS nackF, { frame := 3, start := 0, bank := 0 }, ⟨0, 3, 5, 0, 0, 1, false⟩, by decide +kernel⟩⟩

/-- Each clause of `Obligations.LoopsFailOver` has a state and operands that meet its hypotheses. -/
theorem witness_loopsFailOver :
    (∃ (s : State) (dt q : Nat) (h : Fin 64), s.partner h = some q ∧ (s.prt q).headAt + 3 * s.timePeriod h ≤ (s.now + dt) % 2 ^ 64 ∧ (s.prt h).broken = none) ∧
    (∃ (s : State) (q t0 : Nat) (h : Fin 64), s.partner h = some q ∧ (s.prt h).broken = some t0 ∧ (s.prt h).switchAt = none) ∧
    (∃ (s : State) (dt q f : Nat) (h : Fin 64), s.partner h = some q ∧ q ≠ h ∧ (s.prt h).switchAt = some f ∧ f ≤ (s.now + dt) % 2 ^ 64) ∧
    (∃ (s : State) (dt t0 : Nat) (h : Fin 64), (s.prt h).wholeFrom = some t0 ∧ s.bit (Reg.prtLoop h) 10 = true ∧ t0 + 10000000000 ≤ (s.now + dt) % 2 ^ 64 ∧ (∀ n x, (n, x) ∈ s.tileList → x.given = true → x.port = h → x.reach.testBit 0 = true)) ∧
    (∃ (s : State) (cv : Fin 4) (h : Nat), h ∈ s.portsOf cv ∧ (s.prt h).reverting = true) ∧
    (∃ (s : State) (h : Nat) (q : Fin 64) (f : List Byte), s.headOf q = some h ∧ 64 ≤ f.length ∧ ofLe (f.drop (f.length - 4)) = crc32 (f.take (f.length - 4)) ∧ beAt (f.drop 14) 1 1 = 0x20) :=
  ⟨⟨{ wr [(Reg.prtLoop 0, 0x101), (Reg.prtCtrl 0, 0x01F40807)] with ports := [(0, { up := true })] }, 3000000, 1, 0, by decide +kernel⟩,
   ⟨{ wr [(Reg.prtLoop 0, 0x101), (Reg.prtCtrl 0, 0x01F40807)] with ports := [(0, { broken := some 5 })] }, 1, 5, 0, by decide +kernel⟩,
   ⟨{ wr [(Reg.prtLoop 0, 0x101), (Reg.prtCtrl 0, 0x01F40807)] with ports := [(0, { switchAt := some 0 })] }, 0, 1, 0, 0, by decide +kernel⟩,
   ⟨{ wr [(Reg.prtLoop 0, 0x400)] with ports := [(0, { wholeFrom := some 0 })] }, 10000000000, 0, 0, by decide +kernel, by decide +kernel, by decide +kernel, by intro n x hm; have h0 : (n, x) ∈ ([] : List (Nat × Tile)) := hm; cases h0⟩,
   ⟨{ wr [(Reg.scnPortsLo 0, 1)] with ports := [(0, { reverting := true })] }, 0, 0, by decide +kernel⟩,
   ⟨wr [(Reg.prtLoop 0, 0x101)], 0, 1, up 0x20 0 (zeros 40), by decide +kernel⟩⟩

/-- Each clause of `Obligations.LinkSchedulerRuns` has a state and operands that meet its hypotheses. -/
theorem witness_linkSchedulerRuns :
    (∃ (s : State) (dt : Nat) (p : Fin 64) (q : Fin 8) (f : List Byte), q.val ≠ 0 ∧ (s.prt p).queue q = [] ∧ (s.prt p).queue (waitQueue q) = [] ∧ s.wireBusy p ((s.now + dt) % 2 ^ 64) = true ∧ s.oversize p q (max 64 (26 + (f.drop 8).length)) = false) ∧
    (∃ (s : State) (p : Fin 64) (q : Fin 8) (f : List Byte), q.val ≠ 0 ∧ s.oversize p q (max 64 (26 + (f.drop 8).length)) = true) ∧
    (∃ (s : State) (dt d q a : Nat) (df : Sparse Nat) (p : Fin 64) (h : Queued) (r : List Queued) (c : Instr), (c = .gateChange dt p ∨ c = .shaperRefill dt p) ∧ (s.prt p).wire = none ∧ (s.prt p).up = true ∧ (s.prt p).queue 0 = [] ∧ d = (s.tick dt).wordUp p ((s.now + dt) % 2 ^ 64 * 10) ∧ (s.tick dt).pick p d = (some q, a, df) ∧ (s.prt p).queue q = h :: r) ∧
    (∃ (s u : State) (dt : Nat) (p : Fin 64) (c : Instr), (c = .gateChange dt p ∨ c = .shaperRefill dt p) ∧ u = (s.tick dt).headDue p ∧ u.wireBusy p ((s.now + dt) % 2 ^ 64) = true) ∧
    (∃ (s : State) (dt ty n : Nat) (p : Fin 64) (w : Wire) (body : List Byte), (s.prt p).wire = some w ∧ w.frame = .msg ty n body ∧ w.stop ≤ (s.now + dt) % 2 ^ 64 * 10 ∧ (s.prt p).lq = []) ∧
    (∃ (s : State) (p : Fin 64) (v : Word), s.pageHeld (0x0A0 + p) = false ∧ (s.prt p).takeover = none ∧ s.bit (Reg.prtGateIdx p) 8 = false ∧ 16 ≤ bitsOf v.toNat 30 8) ∧
    (∃ (s : State) (p : Fin 64), (s.prt p).takeover.isSome = true) ∧
    (∃ (s : State) (dt at_ b c : Nat) (p : Fin 64), (s.prt p).takeover = some (at_, b, c) ∧ at_ ≤ (s.now + dt) % 2 ^ 64) ∧
    (∃ (s : State) (p : Fin 64), (s.prt p).takeover = none) ∧
    (∃ (s : State) (p : Fin 64), (s.prt p).takeover.isSome = true) ∧
    (∃ (v : Word), v.getLsbD 16 = true) ∧
    (∃ (s : State), s.pageHeld 0x0E0 = false) ∧
    (∃ (s : State), s.pageHeld 0x0E0 = true) :=
  ⟨⟨portS [], 0, 0, 1, [], by decide +kernel⟩,
   ⟨{ State.reset with ports := [(0, { oper := [(0, ⟨3, 20, false⟩), (1, ⟨1, 999980, true⟩)] })] }, 0, 1, [], by decide +kernel⟩,
   ⟨gateS, 0, (gateS.tick 0).wordUp 0 0, 7, (gateS.prt 0).drrAt, (gateS.prt 0).deficit, 0, ⟨.msg 0x20 0xFFFF [], 0⟩, [], .gateChange 0 0, by decide +kernel⟩,
   ⟨portS [], ((portS []).tick 0).headDue 0, 0, 0, .gateChange 0 0, Or.inl rfl, rfl, by decide +kernel⟩,
   ⟨portS [], 1000, 0x20, 0xFFFF, 0, aWire, [], by decide +kernel⟩,
   ⟨State.reset, 0, 0x1000, by decide +kernel⟩,
   ⟨{ State.reset with ports := [(0, { takeover := some (0, 0, 0) })] }, 0, by decide +kernel⟩,
   ⟨{ State.reset with ports := [(0, { takeover := some (0, 0, 0) })] }, 0, 0, 0, 0, 0, by decide +kernel⟩,
   ⟨State.reset, 0, by decide +kernel⟩,
   ⟨{ State.reset with ports := [(0, { takeover := some (0, 0, 0) })] }, 0, by decide +kernel⟩,
   ⟨0x10000, by decide +kernel⟩,
   ⟨State.reset, by decide +kernel⟩,
   ⟨{ State.reset with latch := { accepted := [{ seq := 1, groups := 1, trig := .fire }] } }, by decide +kernel⟩⟩

/-- Each clause of `Obligations.TakeoverInstant` has a state and operands that meet its hypotheses. -/
theorem witness_takeoverInstant :
    (∃ (s : State) (p : Fin 64), s.now + 2000 ≤ s.rn64 (Reg.prtGateBaseLo p)) ∧
    (∃ (s : State) (p : Fin 64), s.rn64 (Reg.prtGateBaseLo p) < s.now + 2000 ∧ 0 < s.fld (Reg.prtGateCycle p) 26 0) ∧
    (∃ (s : State) (req : Nat), s.peerRefused req = false) ∧
    (∃ (s : State) (at_ b c : Nat) (p : Fin 64), (s.prt p).takeover = some (at_, b, c)) :=
  ⟨⟨wr [(Reg.prtGateBaseLo 0, 2000)], 0, by decide +kernel⟩,
   ⟨wr [(Reg.prtGateCycle 0, 1000)], 0, by decide +kernel⟩,
   ⟨State.reset, 0, by decide +kernel⟩,
   ⟨{ State.reset with ports := [(0, { takeover := some (0, 0, 0) })] }, 0, 0, 0, 0, by decide +kernel⟩⟩

/-- Each clause of `Obligations.MemoryServes` has a state and operands that meet its hypotheses. -/
theorem witness_memoryServes :
    (∃ (s : State) (a c r k : Nat) (l : ChanLoc), s.placeFull a = some (c, r, k, l) ∧ (s.srState c = 0 ∨ s.srState c = 3)) ∧
    (∃ (s : State) (a c r k : Nat) (l : ChanLoc), s.placeFull a = some (c, r, k, l) ∧ (s.srState c = 0 ∨ s.srState c = 3) ∧ (s.subChan c l.sub).waiting = [] ∧ (s.subChan c l.sub).writes.length < 48 ∧ s.rankLost c r = false) ∧
    (∃ (s : State) (a : Nat), s.placeFull a = none) ∧
    (∃ (s : State) (c : Fin 8) (k : Fin 2) (q : MemReq), s.bit (Reg.mcCtrl c) 0 = true ∧ s.memStill = false ∧ s.srState c < 2 ∧ (s.subChan c k).reads = [q] ∧ (s.subChan c k).writes = [] ∧ (s.subChan c k).waiting = [] ∧ (s.memChan c).owed = [] ∧ q.port ≤ 4 ∧ q.held = none ∧ q.dma = none ∧ s.burstPoisoned q.addr = false) ∧
    (∃ (s : State) (r n : Nat) (c : Fin 8) (k : Fin 2), s.bit (Reg.mcCtrl c) 0 = true ∧ s.memStill = false ∧ s.srState c < 2 ∧ (s.subChan c k).waiting = [] ∧ (s.memChan c).owed = [(r, n)] ∧ min (s.fld (Reg.mcRefresh c) 5 2) (if s.bit (Reg.mcRefresh c) 0 then 8 else 4) < n) ∧
    (∃ (s : State) (dt : Nat) (c r : Fin 8), s.bit (Reg.mcCtrl c) 0 = true ∧ s.srState c < 2 ∧ r.val < s.logicalRanks c ∧ mget (s.memChan c).refAt r 0 + (if s.bit (Reg.mcRefresh c) 0 then 1950 else 3900) / (if (s.memChan c).hot then 2 else 1) ≤ (s.now + dt) % 2 ^ 64) ∧
    (∃ (s : State) (dt : Nat) (c : Fin 8) (a b : Fin 4 → Nat), s.bit (Reg.mcMigrStat c) 6 = true ∧ (s.tick dt).bgHeld 2 = false ∧ s.memStill = false ∧ s.srState c = 0 ∧ (∀ i, a i = s.rankKey c (s.fld (Reg.mcMigrStat c) 2 0) ((s.memChan c).migPos * 256 + 64 * i)) ∧ (∀ i, b i = s.rankKey c (s.fld (Reg.mcMigrStat c) 5 3) ((s.memChan c).migPos * 256 + 64 * i)) ∧ (∀ i j, (a i + 64 ≤ b j ∨ b j + 64 ≤ a i) ∧ (i ≠ j → b i + 64 ≤ b j ∨ b j + 64 ≤ b i))) ∧
    (∃ (s : State) (dt : Nat), s.bit Reg.memScrub 0 = true ∧ (s.tick dt).bgHeld 4 = false ∧ s.memStill = false ∧ s.mappedBursts ≠ 0) ∧
    (∃ (s : State) (c r : Fin 8), (s.memChan c).zeroing.contains r.val = true) ∧
    (∃ (s : State) (dt : Nat) (k : Fin 4) (v : Word), s.locked 0x108 = false ∧ s.bit (Reg.memIlv k) 31 = false ∧ ((s.tick dt).landAt (Reg.memIlv k) v).1.ilvSound k = true) ∧
    (∃ (s : State) (dt : Nat) (k : Fin 4) (v : Word), s.locked 0x108 = false ∧ ((s.tick dt).landAt (Reg.memIlv k) v).1.ilvSound k = false) ∧
    (∃ (s : State) (c : Fin 8) (v : Word), s.locked (0x100 + c) = false ∧ s.bit Reg.memMap 2 = true ∧ 1 ≤ bitsOf v.toNat 7 4 ∧ (v.getLsbD 3 = false ∨ 2 ≤ s.logicalRanks c)) ∧
    (∃ (s : State) (c : Fin 8) (v : Word), s.locked (0x100 + c) = false ∧ 1 ≤ bitsOf v.toNat 7 4 ∧ s.bit (Reg.mcSpare c) 3 = false ∧ v.getLsbD 3 = true ∧ s.logicalRanks c ≤ 1) :=
  ⟨⟨memS [], 4, pf.1, pf.2.1, pf.2.2.1, pf.2.2.2, by decide +kernel⟩,
   ⟨memS [], 4, pf.1, pf.2.1, pf.2.2.1, pf.2.2.2, by decide +kernel⟩,
   ⟨State.reset, 0, by decide +kernel⟩,
   ⟨{ memS [] with mem := { subs := [(0, { reads := [{ port := 0, addr := 0, rank := 0, bank := 0, row := 0, at_ := 0 }] })] } }, 0, 0, { port := 0, addr := 0, rank := 0, bank := 0, row := 0, at_ := 0 }, by decide +kernel⟩,
   ⟨{ memS [] with mem := { chans := [(0, { owed := [(0, 9)] })] } }, 0, 9, 0, 0, by decide +kernel⟩,
   ⟨memS [], 3900, 0, 0, by decide +kernel⟩,
   ⟨migS, 0, 0, fun i => migS.rankKey 0 0 (64 * i), fun i => migS.rankKey 0 1 (64 * i), by decide +kernel, by decide +kernel, by decide +kernel, by decide +kernel, by decide +kernel, by decide +kernel, by decide +kernel⟩,
   ⟨memS [(Reg.memScrub, 1)], 0, by decide +kernel⟩,
   ⟨{ State.reset with mem := { chans := [(0, { zeroing := [0] })] } }, 0, 0, by decide +kernel⟩,
   ⟨wr [(Reg.mcRanks 0, 0x80001011), (Reg.mcCtrl 0, 0x43081001)], 0, 0, 0x80800001, by decide +kernel⟩,
   ⟨State.reset, 0, 0, 0x80800001, by decide +kernel⟩,
   ⟨wr [(Reg.memMap, 4)], 0, 0x10, by decide +kernel⟩,
   ⟨State.reset, 0, 0x18, by decide +kernel⟩⟩

/-- Each clause of `Obligations.SetPointsTrainAndSleep` has a state and operands that meet its hypotheses. -/
theorem witness_setPointsTrainAndSleep :
    (∃ (s : State) (dt f code : Nat) (v : Word), (∀ g < 4, s.trainedAnywhere g = false) ∧ s.bit Reg.memFspCtrl 2 = false ∧ v.getLsbD 2 = true ∧ f = v.toNat % 4 ∧ code = (((s.tick dt).landAt Reg.memFspCtrl (wput v 2 2 0)).1.publish).fspCode f) ∧
    (∃ (s : State) (f t0 : Nat), s.mem.fsp = some (f, t0) ∧ f < 4 ∧ s.mem.srWait = [] ∧ s.mem.trainWait = false ∧ s.latch.accepted = []) ∧
    (∃ (s : State) (dt req : Nat) (v : Word) (c : Instr), c ∈ [.writeRead dt req v, .trainRead dt req v, .caLoop dt req v, .mrw dt req v, .mrr dt req v] ∧ v.getLsbD 0 = true ∧ bitsOf v.toNat 3 1 ≤ 4 ∧ 1 ≤ bitsOf v.toNat 15 8 ∧ s.mem.training = none ∧ s.mem.trainWait = false ∧ s.mem.fsp = none ∧ ((((s.tick dt).landAt Reg.mtrnCtrl (wput v 0 0 (s.fld Reg.mtrnCtrl 0 0))).1).setBit Reg.mtrnCtrl 0).admittedOn (s.fld Reg.mtrnSel 2 0) = false) ∧
    (∃ (s : State) (op c sub r : Nat), s.mem.training = some (op, c, sub, r) ∧ op ≤ 2) ∧
    (∃ (s : State) (c sub r : Nat), s.mem.training = some (3, c, sub, r)) ∧
    (∃ (s : State), s.locked 0x109 = false ∧ s.bit Reg.mtrnTrained (4 * s.fld Reg.mtrnDlyIdx 2 0 + s.fld Reg.mtrnDlyIdx 5 4) = false) ∧
    (∃ (s : State), s.bit Reg.mtrnTrained (4 * s.fld Reg.mtrnDlyIdx 2 0 + s.fld Reg.mtrnDlyIdx 5 4) = true) ∧
    (∃ (s : State), s.locked 0x109 = false) ∧
    (∃ (s : State) (c : Fin 8) (v : Word), s.bit (Reg.mcSrCtrl c) 0 = false ∧ v.getLsbD 0 = true ∧ 1 ≤ v.toNat / 65536 ∧ s.bit (Reg.mcRanks c) 20 = false ∧ s.fld (Reg.mcSrStat c) 15 8 = 0 ∧ s.srState c = 0 ∧ s.mem.fsp = none) ∧
    (∃ (s : State) (c : Fin 8), s.srState c = 1 ∧ s.memStill = false ∧ s.bit (Reg.mcSrCtrl c) 1 = false ∧ (∀ k : Fin 2, (s.subChan c k).reads = [] ∧ (s.subChan c k).writes = [] ∧ (s.subChan c k).waiting = []) ∧ (s.memChan c).owed = []) ∧
    (∃ (s : State) (c : Fin 8), s.srState c = 3) ∧
    (∃ (s : State) (dt : Nat) (c : Fin 8), s.srState c = 0 ∧ s.bit (Reg.mcSrCtrl c) 0 = true ∧ s.mem.fsp = none ∧ (s.memChan c).last + s.fld (Reg.mcSrCtrl c) 31 16 * 1000 ≤ (s.now + dt) % 2 ^ 64 ∧ (s.tick dt).srAdmitted c = false) :=
  ⟨⟨State.reset, 0, 0, (((State.reset.tick 0).landAt Reg.memFspCtrl (wput 4 2 2 0)).1.publish).fspCode 0, 4, by decide +kernel⟩,
   ⟨{ State.reset with mem := { fsp := some (0, 0) } }, 0, 0, by decide +kernel⟩,
   ⟨State.reset, 0, 0, 0x101, .writeRead 0 0 0x101, by decide +kernel⟩,
   ⟨{ State.reset with mem := { training := some (0, 0, 0, 0) } }, 0, 0, 0, 0, by decide +kernel⟩,
   ⟨{ State.reset with mem := { training := some (3, 0, 0, 0) } }, 0, 0, 0, by decide +kernel⟩,
   ⟨State.reset, by decide +kernel⟩,
   ⟨wr [(Reg.mtrnTrained, 1)], by decide +kernel⟩,
   ⟨State.reset, by decide +kernel⟩,
   ⟨State.reset, 0, 0x10001, by decide +kernel⟩,
   ⟨wr [(Reg.mcSrStat 0, 1)], 0, by decide +kernel⟩,
   ⟨wr [(Reg.mcSrStat 0, 3)], 0, by decide +kernel⟩,
   ⟨wr [(Reg.mcSrCtrl 0, 1)], 0, 0, by decide +kernel⟩⟩

/-- Each clause of `Obligations.ChainsStartAndStop` has a state and operands that meet its hypotheses. -/
theorem witness_chainsStartAndStop :
    (∃ (s : State) (a : Nat) (ch : Fin 64) (r : DmaRun), s.bit (Reg.dmaCtrl ch) 0 = true ∧ s.dmaState ch = 0 ∧ s.dmaLost ch = false ∧ s.bit (Reg.dmaNextValid ch) 0 = false ∧ (s.dmaCh ch).resume = none ∧ s.bit (Reg.dmaDescHi ch) 31 = false ∧ a = s.rn (Reg.dmaDescLo ch) / 64 * 64 + s.fld (Reg.dmaDescHi ch) 30 0 * 2 ^ 32 ∧ s.anyUnmapped a 64 = false ∧ s.anyPoison a 64 = false ∧ r = DmaRun.parse { host := false, addr := a, serial := (s.dmaCh ch).loads + 1 } (s.rdBytes a 64) ∧ r.badFormat = false ∧ r.srcSpace ≠ 2 ∧ r.dstSpace ≠ 2 ∧ r.srcSpace ≠ 4) ∧
    (∃ (s : State) (ch : Fin 64), s.bit (Reg.dmaCtrl ch) 0 = true ∧ s.dmaState ch = 0 ∧ s.dmaLost ch = false ∧ s.bit (Reg.dmaNextValid ch) 0 = true ∧ s.bit (Reg.dmaNextHi ch) 31 = true) ∧
    (∃ (s : State) (ch : Fin 64), s.bit (Reg.dmaCtrl ch) 0 = true ∧ s.dmaState ch = 1 ∧ s.dmaLost ch = false) ∧
    (∃ (s : State) (dt req : Nat) (ch : Fin 64) (c : Instr), (c = .start dt req ch ∨ c = .abort dt req ch) ∧ s.dmaState ch = 3) ∧
    (∃ (s : State) (ch : Fin 64) (r : DmaRun), (s.dmaState ch = 1 ∨ s.dmaState ch = 2) ∧ (s.dmaCh ch).run = some r ∧ r.host = true ∧ (s.dmaCh ch).pend = false ∧ (∀ d < 64, s.triggered 2 ch d = false)) ∧
    (∃ (s : State) (dt : Nat) (tm : Fin 16) (ch : Fin 64), s.bit (Reg.dmagTimer tm) 31 = true ∧ s.fld (Reg.dmagTimer tm) 29 0 ≠ 0 ∧ (s.now + dt) % 2 ^ 64 % (s.fld (Reg.dmagTimer tm) 29 0 * 1000) = 0 ∧ s.dmaState ch ≠ 3 ∧ (∀ d < 64, s.triggered 1 tm d = decide (d = ch.val))) ∧
    (∃ (s : State) (n : Nat) (ch : Fin 64), s.edges.contains n = true ∧ s.dmaState ch ≠ 3 ∧ (∀ d < 64, s.triggered 3 n d = decide (d = ch.val))) ∧
    (∃ (s : State) (ch : Fin 64), s.dmaState ch ≠ 3 ∧ s.bit (Reg.dmaNextValid ch) 0 = false) ∧
    (∃ (s : State) (ch : Fin 64), s.dmaState ch ≠ 3 ∧ s.bit (Reg.dmaNextValid ch) 0 = true) ∧
    (∃ (s : State) (ch : Fin 64) (v : Word), s.dmaState ch ≠ 3 ∧ v.getLsbD 16 = true) :=
  ⟨⟨descS, 0, 0, DmaRun.parse { host := false, addr := 0, serial := 1 } (descS.rdBytes 0 64), by decide +kernel⟩,
   ⟨wr [(Reg.dmaCtrl 0, 1), (Reg.dmaNextValid 0, 1), (Reg.dmaNextHi 0, 0x80000000)], 0, by decide +kernel⟩,
   ⟨wr [(Reg.dmaCtrl 0, 1), (Reg.dmaStat 0, 0x100000)], 0, by decide +kernel⟩,
   ⟨wr [(Reg.dmaStat 0, 0x300000)], 0, 0, 0, .start 0 0 0, by decide +kernel⟩,
   ⟨{ wr [(Reg.dmaStat 0, 0x100000)] with dma := [(0, { run := some { host := true, addr := 0, loaded := true } })] }, 0, { host := true, addr := 0, loaded := true }, by decide +kernel⟩,
   ⟨wr [(Reg.dmagTimer 0, 0x80000001), (Reg.dmaTrig 5, 1)], 0, 0, 5, by decide +kernel⟩,
   ⟨{ wr [(Reg.dmaTrig 60, 0x1B)] with edges := [3] }, 3, 60, by decide +kernel⟩,
   ⟨State.reset, 0, by decide +kernel⟩,
   ⟨wr [(Reg.dmaNextValid 0, 1)], 0, by decide +kernel⟩,
   ⟨State.reset, 0, 0x10000, by decide +kernel⟩⟩

/-- Each clause of `Obligations.DescriptorsRun` has a state and operands that meet its hypotheses. -/
theorem witness_descriptorsRun :
    (∃ (s : State) (ch : Fin 64) (data : List Byte) (r0 r : DmaRun), s.dmaState ch = 1 ∧ (s.dmaCh ch).run = some r0 ∧ r0.loaded = false ∧ r = r0.parse (sliceB data 0 64) ∧ r.badFormat = false ∧ r.srcSpace ≠ 2 ∧ r.dstSpace ≠ 2 ∧ r.srcSpace ≠ 4) ∧
    (∃ (s : State) (ch : Fin 64) (data : List Byte) (r0 : DmaRun), s.dmaState ch = 1 ∧ (s.dmaCh ch).run = some r0 ∧ r0.loaded = false ∧ r0.host = true ∧ (r0.parse (sliceB data 0 64)).badFormat = true ∧ (s.dmaCh ch).pend = false ∧ (∀ d < 64, s.triggered 2 ch d = false)) ∧
    (∃ (s : State) (dt a n : Nat) (ch : Fin 64) (r : DmaRun) (k : Nat → Nat), s.dmaState ch = 1 ∧ (s.dmaCh ch).run = some r ∧ r.loaded = true ∧ r.op = 1 ∧ r.dstSpace = 0 ∧ r.rows ≤ 1 ∧ r.acc < r.len ∧ r.flags.testBit 2 = false ∧ r.flags.testBit 3 = false ∧ r.snext = none ∧ r.dnext = none ∧ (s.tick dt).bgHeld 5 = false ∧ a = r.dst + r.acc ∧ n = min (r.len - r.acc) (256 - a % 256) ∧ s.anyUnmapped a n = false ∧ (∀ (c : Fin 8) (j : Fin 2), (s.subChan c j).waiting = [] ∧ (s.subChan c j).writes.length < 44) ∧ (∀ i < n, ∃ c q, s.place (a + i) = some (c, q, k i) ∧ s.rankLost c q = false) ∧ (∀ i < n, ∀ j < n, k i = k j → i = j)) ∧
    (∃ (s : State) (ch : Fin 64) (r : DmaRun), s.dmaState ch = 1 ∧ (s.dmaCh ch).run = some r ∧ r.tries < s.fld Reg.dmagRetry 3 0) ∧
    (∃ (s : State) (ch : Fin 64) (r : DmaRun), s.dmaState ch = 1 ∧ (s.dmaCh ch).run = some r ∧ r.loaded = true ∧ r.host = true ∧ r.tries = s.fld Reg.dmagRetry 3 0 ∧ (s.dmaCh ch).pend = false ∧ (∀ d < 64, s.triggered 2 ch d = false)) ∧
    (∃ (s : State) (ch : Fin 64) (r : DmaRun), s.dmaState ch = 1 ∧ (s.dmaCh ch).run = some r ∧ r.loaded = true ∧ r.total ≤ r.acc ∧ r.host = true ∧ (∀ cv < 4, (s.cv cv).comp = none) ∧ (s.dmaCh ch).pend = false ∧ (∀ d < 64, s.triggered 2 ch d = false) ∧ s.bit (Reg.dmaNextValid ch) 0 = false) :=
  ⟨⟨{ wr [(Reg.dmaStat 0, 0x100000)] with dma := [(0, { run := some { host := true, addr := 64 } })] }, 0, descG, { host := true, addr := 64 }, DmaRun.parse { host := true, addr := 64 } (sliceB descG 0 64), by decide +kernel⟩,
   ⟨{ wr [(Reg.dmaStat 0, 0x100000)] with dma := [(0, { run := some { host := true, addr := 64 } })] }, 0, zeros 63 ++ [1], { host := true, addr := 64 }, by decide +kernel⟩,
   ⟨{ memS [(Reg.dmaStat 0, 0x100000)] with dma := [(0, { run := some { host := true, addr := 0, loaded := true, flags := 1, dst := 0, len := 4 } })] }, 0, 0, 4, 0, { host := true, addr := 0, loaded := true, flags := 1, dst := 0, len := 4 }, fun i => (((memS []).place (0 + i)).getD (0, 0, 0)).2.2, by decide +kernel, by decide +kernel, by decide +kernel, by decide +kernel, by decide +kernel, by decide +kernel, by decide +kernel, by decide +kernel, by decide +kernel, by decide +kernel, by decide +kernel, by decide +kernel, by decide +kernel, by decide +kernel, by decide +kernel, by decide +kernel, fun i hi => ⟨(((memS []).place (0 + i)).getD (0, 0, 0)).1, (((memS []).place (0 + i)).getD (0, 0, 0)).2.1, by revert i; decide +kernel⟩, by decide +kernel⟩,
   ⟨{ wr [(Reg.dmaStat 0, 0x100000), (Reg.dmagRetry, 3)] with dma := [(0, { run := some { host := true, addr := 0, loaded := true } })] }, 0, { host := true, addr := 0, loaded := true }, by decide +kernel⟩,
   ⟨{ wr [(Reg.dmaStat 0, 0x100000), (Reg.dmagRetry, 0)] with dma := [(0, { run := some { host := true, addr := 0, loaded := true } })] }, 0, { host := true, addr := 0, loaded := true }, by decide +kernel⟩,
   ⟨{ wr [(Reg.dmaStat 0, 0x100000)] with dma := [(0, { run := some { host := true, addr := 0, loaded := true } })] }, 0, { host := true, addr := 0, loaded := true }, by decide +kernel⟩⟩

/-- Each clause of `Obligations.ReservationsAndSpares` has a state and operands that meet its hypotheses. -/
theorem witness_reservationsAndSpares :
    (∃ (s : State) (v : Word), s.bit Reg.dmagRsvBw 31 = false ∧ 1 ≤ bitsOf v.toNat 23 8 ∧ bitsOf v.toNat 25 24 = 1) ∧
    (∃ (s : State) (dt req : Nat) (v : Word) (c : Instr), (c = .reserve dt req v ∨ c = .rsvRelease dt req v) ∧ s.bit Reg.dmagRsvBw 31 = true) ∧
    (∃ (s : State) (ch : Nat) (v : Word), s.bit Reg.dmagRsvBw 31 = false ∧ 1 ≤ bitsOf v.toNat 23 8 ∧ bitsOf v.toNat 25 24 = 2 ∧ ch = v.toNat % 64) ∧
    (∃ (s : State) (dt ch ilv rate code : Nat) (before : List Nat) (st base : State), s.rsvReq = some (ch, ilv, rate, before) ∧ ch < 64 ∧ (∀ c ∈ s.latch.armed, c.seq ∉ before) ∧ st = (s.tick dt).standing ∧ base = (((s.tick dt).candidates st s.latch.accepted).getLast?).getD st ∧ code = (({ base with rsv := addGrant base.rsv (ch, ilv, rate) }).evaluate none (fun _ => 0) (fun _ => false)).code) ∧
    (∃ (s : State) (n : Nat) (v : Word), n = v.toNat % 16 ∧ n ≤ 8 ∧ (∀ k < 8, (s.dmaState (55 - k) = 0 ∨ s.dmaState (55 - k) = 3) ∧ s.servedBy (resKey 5 (55 - k)) = none ∧ s.isRetired (resKey 5 (55 - k)) = false)) ∧
    (∃ (s : State) (v : Word), s.dmaState 55 = 1 ∧ s.fld Reg.dmagCtrl 3 0 = 0 ∧ 1 ≤ v.toNat % 16 ∧ v.toNat % 16 ≤ 8) :=
  ⟨⟨State.reset, 0x01000100, by decide +kernel⟩,
   ⟨wr [(Reg.dmagRsvBw, 0x80000000)], 0, 0, 0, .reserve 0 0 0, by decide +kernel⟩,
   ⟨State.reset, 5, 0x02000105, by decide +kernel⟩,
   ⟨{ State.reset with rsvReq := some (5, 0, 1, []) }, 0, 5, 0, 1, _, [], _, _, by decide +kernel, by decide +kernel, by decide +kernel, rfl, rfl, rfl⟩,
   ⟨State.reset, 2, 2, by decide +kernel⟩,
   ⟨wr [(Reg.dmagCtrl, 0), (Reg.dmaStat 55, 0x100000)], 1, by decide +kernel⟩⟩

/-- Each clause of `Obligations.TurnkeyBringsUp` has a state and operands that meet its hypotheses. -/
theorem witness_turnkeyBringsUp :
    (∃ (s : State), s.phase = 1 ∧ (s.fld Reg.gpioStraps 1 0 = 1 ∨ s.fld Reg.gpioStraps 1 0 = 2)) ∧
    (∃ (s : State) (a b : List Byte), s.phase = 2 ∧ (∀ x ∈ ({ s with turnkey := { s.turnkey with image := imgNewer a b } }).sections, x.type ≠ 1)) ∧
    (∃ (s : State), s.phase = 3 ∧ s.turnkey.cause = 0) ∧
    (∃ (s : State), s.phase = 4 ∧ s.turnkey.cause = 2 ∧ s.turnkey.image = [] ∧ (∀ c < 8, s.bit (Reg.mcCtrl c) 0 = false) ∧ (∀ k < 4, s.rn (Reg.memIlv k) % 256 = 0)) ∧
    (∃ (s : State), s.phase = 5 ∧ s.turnkey.enum = none ∧ s.fld Reg.gpioStraps 1 0 ≠ 2) ∧
    (∃ (s : State), s.phase = 6) ∧
    (∃ (s : State) (dt since : Nat) (p : Fin 64), s.turnkey.enum = some (p.val, since) ∧ s.turnkey.ports = [] ∧ s.turnkey.enumReq = none ∧ (s.prt p).up = true ∧ (s.prt p).quiet + 150000000 ≤ (s.now + dt) % 2 ^ 64) ∧
    (∃ (s : State) (dt since : Nat) (p : Fin 64), s.turnkey.enum = some (p.val, since) ∧ s.turnkey.ports = [] ∧ s.turnkey.enumReq = none ∧ (s.prt p).up = false ∧ since + 50000000 ≤ (s.now + dt) % 2 ^ 64) ∧
    (∃ (s : State) (dt t0 : Nat), s.phase = 6 ∧ s.imgFlags.testBit 1 = true ∧ s.fld Reg.gpioStraps 1 0 ≠ 2 ∧ s.turnkey.rung = false ∧ s.turnkey.waitFrom = some t0 ∧ t0 + s.imgWait * 1000000000 ≤ (s.now + dt) % 2 ^ 64 ∧ s.tiles = []) ∧
    (∃ (s : State) (dt k : Nat) (x : Nat × Nat × Nat), s.turnkey.content[s.turnkey.item]? = some x ∧ s.bit Reg.mboxStat 30 = true ∧ s.turnkey.itemAt + x.2.2 * 1000000 ≤ (s.now + dt) % 2 ^ 64 ∧ s.bit (Reg.latchLt 3) 31 = false ∧ s.heldMask.testBit 15 = false ∧ k = (s.turnkey.item + 1) % s.turnkey.content.length) :=
  ⟨⟨wr [(Reg.gpioStraps, 1)], by decide +kernel⟩,
   ⟨wr [(Reg.mboxStat, 0x20000)], [], [], by decide +kernel⟩,
   ⟨{ wr [(Reg.mboxStat, 0x30000)] with turnkey := { cause := 0 } }, by decide +kernel⟩,
   ⟨{ wr [(Reg.mboxStat, 0x40000)] with turnkey := {  } }, by decide +kernel⟩,
   ⟨{ wr [(Reg.mboxStat, 0x50000)] with turnkey := {  } }, by decide +kernel⟩,
   ⟨{ wr [(Reg.mboxStat, 0x60000)] with turnkey := {  } }, by decide +kernel⟩,
   ⟨{ State.reset with turnkey := { enum := some (0, 0) }, ports := [(0, { up := true })] }, 150000000, 0, 0, by decide +kernel⟩,
   ⟨{ State.reset with turnkey := { enum := some (0, 0) } }, 50000000, 0, 0, by decide +kernel⟩,
   ⟨{ wr [(Reg.mboxStat, 0x60000)] with turnkey := { waitFrom := some 0 } }, 5000000000, 0, by decide +kernel⟩,
   ⟨{ wr [(Reg.mboxStat, 0x40000000)] with turnkey := { content := [(1, 0, 1000)] } }, 1000000000, 0, (1, 0, 1000), by decide +kernel⟩⟩

/-- Each clause of `Obligations.TurnkeyAnswers` has a state and operands that meet its hypotheses. -/
theorem witness_turnkeyAnswers :
    (∃ (s : State), s.mboxCmd 0x01 = true) ∧
    (∃ (s : State), s.mboxCmd 0x02 = true) ∧
    (∃ (s : State), s.mboxCmd 0x10 = true ∧ s.turnkey.enumReq = none ∧ s.turnkey.enum.isSome = true) ∧
    (∃ (s : State) (p : Nat) (l : List Nat), s.mboxCmd 0x10 = true ∧ s.turnkey.enumReq = none ∧ s.turnkey.enum = none ∧ ((List.range 64).filter (s.rn (Reg.mboxReq 1) + s.rn (Reg.mboxReq 2) * 2 ^ 32).testBit) = p :: l) ∧
    (∃ (s : State), s.mboxCmd 0x11 = true ∧ s.tiles = [] ∧ (∀ c ∈ s.latch.armed, c.seq ≠ s.nextSeq)) ∧
    (∃ (s : State), s.mboxCmd 0x20 = true ∧ s.busyMask.testBit 15 = false) ∧
    (∃ (s : State), s.mboxCmd 0x21 = true ∧ s.tiles = []) ∧
    (∃ (s : State), s.mboxCmd 0x30 = true) ∧
    (∃ (s : State) (dt : Nat) (c : Instr × Nat), c ∈ [(.version dt, 0x01), (.bootStatus dt, 0x02), (.enumerate dt, 0x10), (.automap dt, 0x11), (.stopDefault dt, 0x20), (.startDefault dt, 0x21), (.retrain dt [], 0x30)] ∧ s.mboxCmd c.2 = false) :=
  ⟨⟨wr [(Reg.mboxStat, 0x80000000), (Reg.mboxReq 0, 0x1)], by decide +kernel⟩,
   ⟨wr [(Reg.mboxStat, 0x80000000), (Reg.mboxReq 0, 0x2)], by decide +kernel⟩,
   ⟨{ wr [(Reg.mboxStat, 0x80000000), (Reg.mboxReq 0, 0x10)] with turnkey := { enum := some (0, 0) } }, by decide +kernel⟩,
   ⟨wr [(Reg.mboxStat, 0x80000000), (Reg.mboxReq 0, 0x10), (Reg.mboxReq 1, 1), (Reg.mboxReq 2, 0)], 0, [], by decide +kernel⟩,
   ⟨wr [(Reg.mboxStat, 0x80000000), (Reg.mboxReq 0, 0x11)], by decide +kernel⟩,
   ⟨wr [(Reg.mboxStat, 0x80000000), (Reg.mboxReq 0, 0x20)], by decide +kernel⟩,
   ⟨wr [(Reg.mboxStat, 0x80000000), (Reg.mboxReq 0, 0x21)], by decide +kernel⟩,
   ⟨wr [(Reg.mboxStat, 0x80000000), (Reg.mboxReq 0, 0x30)], by decide +kernel⟩,
   ⟨State.reset, 0, (.version 0, 0x01), by decide +kernel⟩⟩

end Sys2Proof.Tests
end

section
/-! Wall time (R8, R354): what the passage of time before a command leaves alone. -/
namespace Sys2Proof.Machine

/-- R8, R354: time that passes is no write to a register and no event of a unit. -/
theorem OnlyRegs.tick (s : State) (dt : Nat) : OnlyRegs s (s.tick dt) [] :=
  OnlyRegs.of_tick (OnlyRegs.refl (s.tick dt) [])

/-- Settles O5: `State.tick_eq` leaves wall time, pulses and what goes out as all that time can change, so the registers,
the rest of the state and the queue stand still. -/
theorem timePassesAlone : Obligations.TimePassesAlone := by
  intro s dt
  exact ⟨s.tick_now dt, OnlyRegs.tick s dt, s.tick_pending dt⟩

end Sys2Proof.Machine
end

section
/-! Outputs (R63, R344): every command ends by bringing them up to date; and what reset leaves (R48, R390, R393). -/
namespace Sys2Proof.Machine

/-- How every meaning ends: it brings the outputs up to date on the state that the command's effect leaves. -/
theorem exec_eq_done (c : Instr) (s : State) : ∃ u, exec c s = done u := by
  cases c <;> exact ⟨_, rfl⟩

/-- R63, R344: whatever command ran, it leaves the outputs as the registers say. -/
theorem exec_settled {c : Instr} {s t : State} (h : exec c s = .next t) : t.Settled := by
  obtain ⟨u, hu⟩ := exec_eq_done c s
  exact done_settled (hu.symm.trans h)

/-- Settles O3: an idle step keeps the state, whose outputs are settled already; a step that runs a command ends in `done`. -/
theorem outputsFollowRegisters : Obligations.OutputsFollowRegisters := by
  intro s t settled ran
  cases waiting : s.pending with
  | nil =>
    rw [step_idle waiting] at ran
    cases ran
    exact settled
  | cons c r =>
    have front : exec c { s with pending := r } = .next t := by simpa [step, waiting] using ran
    exact exec_settled front

/-! ### Reset -/

/-- R44: PG_LOCK is a header register, in no page's own field map. -/
theorem findReg_pgLock (k : PageKind) : findReg (regDefs k) 0x00C = none := by
  cases k <;> rfl

/-- R48: PG_LOCK resets to 0 on every page. -/
theorem resetWord_pgLock (page : Nat) : resetWord (pgLock page) = 0 := by
  have place : pgLock page % 4096 = 0x00C := by unfold pgLock; omega
  unfold resetWord
  split
  · rfl
  · simp [place, findReg_pgLock]

/-- R48: no page is locked after reset. -/
theorem reset_locked (page : Nat) : State.reset.locked page = false := by
  have place : pgLock page % 4096 = 0x00C := by unfold pgLock; omega
  have unlisted : State.reset.reg (pgLock page) = resetWord (pgLock page) := by
    simp only [State.reg, State.reset, mget]
    rw [if_neg (by omega), if_neg (by omega), if_neg (by omega)]
  simp [State.locked, State.bit, State.rn, unlisted, resetWord_pgLock]

/-- Settles O4: every page is unlocked by `resetWord_pgLock`, memory is canonical by `reset_memory_wf`; the rest is read off the
one state after reset. -/
theorem resetLeaves : Obligations.ResetLeaves := by
  refine ⟨?settled, reset_memory_wf, ?phase, rfl, ?pll, ?live, fun page => reset_locked page, fun _ => rfl, ?irq, ?frames, rfl⟩
  case settled => show State.reset.out = State.reset.outputs; decide +kernel
  case phase => decide +kernel
  case pll => decide +kernel
  case live => decide +kernel
  case irq => decide +kernel
  case frames => decide +kernel

end Sys2Proof.Machine
end

section
/-! Register accesses: what the operations that a write or a read of one register ends in do to the registers and to all else. -/
namespace Sys2Proof.Machine

/-! ### Frames -/

/-- A register set to the word it holds reads as before, as does every other. -/
@[simp] theorem State.reg_setReg_self (s : State) (off o : Nat) : (s.setReg off (s.reg off)).reg o = s.reg o := by
  by_cases same : o = off
  · rw [same, State.reg_setReg_same]
  · exact s.reg_setReg_other _ same

theorem OnlyRegs.setReg_self (s : State) (off : Nat) (offs : List Nat) : OnlyRegs s (s.setReg off (s.reg off)) offs :=
  ⟨fun o _ => s.reg_setReg_self off o, rfl⟩

/-- The frame of an access: time passes before it, and the outputs are brought up to date after it. -/
theorem OnlyRegs.of_access {s t : State} {dt : Nat} {offs : List Nat} (h : OnlyRegs (s.tick dt) t offs) : OnlyRegs s t.settle offs :=
  OnlyRegs.of_tick h.settle

/-- DRAM, the vault and the poison marks make the memory's contents. -/
theorem SameMemory.of_eq {s t : State} (dram : t.dram = s.dram) (vault : t.vault = s.vault) (poison : t.poison = s.poison) :
    SameMemory s t :=
  ⟨fun _ => by rw [dram], fun _ => by rw [State.vb, State.vb, vault], poison⟩

theorem SameMemory.trans {s t u : State} (h : SameMemory s t) (k : SameMemory t u) : SameMemory s u := by
  obtain ⟨bytes, vault, poison⟩ := h
  obtain ⟨bytes', vault', poison'⟩ := k
  exact ⟨fun a => (bytes' a).trans (bytes a), fun a => (vault' a).trans (vault a), poison'.trans poison⟩

theorem SameMemory.setFld (s : State) (off hi lo x : Nat) : SameMemory s (s.setFld off hi lo x) := SameMemory.of_eq rfl rfl rfl
theorem SameMemory.setReg (s : State) (off : Nat) (v : Word) : SameMemory s (s.setReg off v) := SameMemory.of_eq rfl rfl rfl

theorem SameMemory.of_access {s t : State} {dt : Nat} (h : SameMemory (s.tick dt) t) : SameMemory s t.settle := by
  obtain ⟨bytes, vault, poison⟩ := h
  exact ⟨fun k => by simpa using bytes k, fun a => by simpa [State.vb] using vault a, by simpa using poison⟩

/-- R46: a refused write leaves its register as it is and reports in the page's header. -/
theorem State.refused_only (s : State) (off kind : Nat) :
    OnlyRegs s ((s.setReg off (s.reg off)).violate off kind) [pgViol (off / 4096), pgStat (off / 4096)] :=
  (OnlyRegs.setReg_self s off _).trans (State.violate_only _ off kind)

theorem SameMemory.violate (s : State) (off kind : Nat) : SameMemory s (s.violate off kind) :=
  (SameMemory.setReg s _ _).trans (SameMemory.setFld _ _ _ _ _)

/-! ### A locked field's refusal (R46, R339, R340, R344) -/

theorem State.flagFault_sameMemory (s : State) (b : Nat) : SameMemory s (s.flagFault b) := by
  unfold State.flagFault
  split <;> exact SameMemory.of_eq rfl rfl rfl

theorem State.reg_flagFault_other (s : State) {off : Nat} (b : Nat) (h : off ≠ Reg.faultStat) :
    (s.flagFault b).reg off = s.reg off := by
  unfold State.flagFault
  split <;> exact s.reg_setBit_other _ h

theorem State.journal_sameMemory (s : State) (cls inst kind count detail : Nat) :
    SameMemory s (s.journal cls inst kind count detail) := by
  dsimp only [State.journal]
  have written : ∀ f, SameMemory s { s with faults := f } := fun _ => SameMemory.of_eq rfl rfl rfl
  split
  · exact ((written _).trans (SameMemory.setFld _ _ _ _ _)).trans (State.flagFault_sameMemory _ 9)
  · exact (written _).trans (SameMemory.setFld _ _ _ _ _)

/-- R339: an entry moves the write pointer, and may report an overwritten one in FAULT.STAT. -/
theorem State.reg_journal_other (s : State) {off : Nat} (cls inst kind count detail : Nat) (index : off ≠ Reg.faultJrnlIdx)
    (stat : off ≠ Reg.faultStat) : (s.journal cls inst kind count detail).reg off = s.reg off := by
  dsimp only [State.journal]
  split
  · rw [State.reg_flagFault_other _ _ stat, State.reg_setFld_other _ _ _ _ index]; rfl
  · rw [State.reg_setFld_other _ _ _ _ index]; rfl

@[simp] theorem State.reg_lifeUp (s : State) (w off : Nat) : (s.lifeUp w).reg off = s.reg off := rfl

theorem State.reg_incr_other (s : State) {a b : Nat} (h : a ≠ b) : (s.incr b).reg a = s.reg a := by
  unfold State.incr
  split
  · rfl
  · exact s.reg_setRn_other _ h

/-- R48: a count goes up by one to its limit. -/
theorem State.rn_incr_same (s : State) (off : Nat) : (s.incr off).rn off = min (s.rn off + 1) 0xFFFFFFFF := by
  have word : s.rn off < 2 ^ 32 := (s.reg off).isLt
  unfold State.incr
  split
  · omega
  · rw [State.rn_setRn_same]; omega

/-- The registers that the report of a locked field's refusal writes. -/
def lockReport : List Nat := [Reg.faultLockViolCount, Reg.devStat, Reg.faultJrnlIdx, Reg.faultStat]

theorem State.reg_lockViolation_other (s : State) {off : Nat} (h : off ∉ lockReport) : s.lockViolation.reg off = s.reg off := by
  simp only [lockReport, List.mem_cons, List.not_mem_nil, or_false, not_or] at h
  obtain ⟨count, stat, index, fault⟩ := h
  unfold State.lockViolation
  rw [State.reg_journal_other _ _ _ _ _ _ index fault, State.reg_lifeUp, State.reg_setBit_other _ _ stat, s.reg_incr_other count]

/-- R46: LOCK_VIOL_COUNT counts the refusal. -/
theorem State.lockViolation_counts (s : State) :
    s.lockViolation.rn Reg.faultLockViolCount = min (s.rn Reg.faultLockViolCount + 1) 0xFFFFFFFF := by
  rw [← s.rn_incr_same, State.rn, State.rn, State.lockViolation, State.reg_journal_other _ _ _ _ _ _ (by decide) (by decide),
    State.reg_lifeUp, State.reg_setBit_other _ _ (by decide)]

/-- R46: DEV.STAT shows the refusal. -/
theorem State.lockViolation_shows (s : State) : s.lockViolation.bit Reg.devStat 0 = true := by
  rw [State.bit, State.rn, State.lockViolation, State.reg_journal_other _ _ _ _ _ _ (by decide) (by decide), State.reg_lifeUp]
  exact State.bit_setBit_same _ _ (by decide)

theorem State.lockViolation_sameMemory (s : State) : SameMemory s s.lockViolation := by
  have counted : SameMemory s (((s.incr Reg.faultLockViolCount).setBit Reg.devStat 0).lifeUp 11) := by
    rw [State.incr_eq]
    exact SameMemory.of_eq rfl rfl rfl
  exact counted.trans (State.journal_sameMemory _ 11 0 0 0 0)

/-! ### A write to a held register (R31, R46) -/

theorem State.refuseHeld_only (s : State) (off : Nat) :
    OnlyRegs s (s.refuseHeld off) [pgViol (off / 4096), pgStat (off / 4096), Reg.wardStat] :=
  OnlyRegs.setReg _ ((s.violate_only off 2).mono (by simp)) (by simp)

theorem State.refuseHeld_shows (s : State) (off : Nat) :
    (s.refuseHeld off).fld (pgViol (off / 4096)) 14 12 = 2 ∧ (s.refuseHeld off).bit Reg.wardStat 4 = true := by
  obtain ⟨-, kind, -, -⟩ := s.violate_shows off (kind := 2) (by decide)
  refine ⟨?_, State.bit_setBit_same _ _ (by decide)⟩
  have apart : pgViol (off / 4096) ≠ Reg.wardStat := by unfold pgViol Reg.wardStat; omega
  rw [← kind]
  simp only [State.refuseHeld, State.fld, State.rn, State.reg_setBit_other _ _ apart]

@[simp] theorem State.tick_pageHeld (s : State) (dt page : Nat) : (s.tick dt).pageHeld page = s.pageHeld page := by
  simp [State.pageHeld, State.pgEn, State.groupOf, State.heldMask]

/-! ### A shadowed register of one field (R46, R50) -/

@[simp] theorem State.sh_setShadow_same (s : State) (off : Nat) (v : Word) : (s.setShadow off v).sh off = v := by
  simp [State.sh, State.setShadow]

@[simp] theorem State.reg_setShadow (s : State) (off o : Nat) (v : Word) : (s.setShadow off v).reg o = s.reg o := rfl

theorem State.sh_setShadow_other (s : State) {a b : Nat} (v : Word) (h : a ≠ b) : (s.setShadow b v).sh a = s.sh a := by
  rw [State.sh, State.sh, State.reg_setShadow, State.setShadow, mget_mset_other _ _ _ _ h]

@[simp] theorem State.sh_setReg_self (s : State) (off o : Nat) : (s.setReg off (s.reg off)).sh o = s.sh o := by
  rw [State.sh, State.sh, State.reg_setReg_self, State.setReg_shadow]

@[simp] theorem State.tick_sh (s : State) (dt off : Nat) : (s.tick dt).sh off = s.sh off := by simp [State.sh]
@[simp] theorem State.settle_sh (s : State) (off : Nat) : s.settle.sh off = s.sh off := rfl
@[simp] theorem State.settle_isPending (s : State) (off : Nat) : s.settle.isPending off = s.isPending off := rfl

theorem State.isPending_setShadow (s : State) (off : Nat) (v : Word) : (s.setShadow off v).isPending off = true := by
  simp [State.isPending, State.setShadow]

/-- R46, R50: a word written to a register whose one field is shadowed goes to its shadow copy, also where it stands there
already. -/
theorem State.land_shadowed (s : State) (off a b c d : Nat) (v : Word) :
    (s.land off ⟨a, b, c, d, [⟨31, 0, .rw, .sf, false, []⟩]⟩ v noExtra).1 = (s.setReg off (s.reg off)).setShadow off v := by
  by_cases same : v.toNat = (s.sh off).toNat
  · have e : v = s.sh off := BitVec.eq_of_toNat_eq same
    simp [State.land, judgeField, writtenValue, bitsOf_all, mixShadow, wput_all, e]
  · simp [State.land, judgeField, writtenValue, bitsOf_all, mixShadow, wput_all, same, accepts, noExtra]

/-! ### Reading (R47, R50) -/

/-- R50: a register without shadowed fields shows its active word, whatever its shadow copy. -/
theorem mixShadow_of_im {d : RegDef} (im : ∀ f ∈ d.fields, f.cls = .im) (act sh : Word) : mixShadow d act sh = act := by
  unfold mixShadow
  refine List.foldlRecOn (motive := (· = act)) _ _ rfl fun w e f mem => ?_
  rw [if_pos (im f mem), e]

theorem State.storedWord_of_im (s : State) (off : Nat) {d : RegDef} (im : ∀ f ∈ d.fields, f.cls = .im) :
    s.storedWord off d = readMask d (s.rn off) := by
  simp only [State.storedWord, mixShadow_of_im im]
  split
  · rfl
  · exact ite_self _

theorem State.clearRc_only (s : State) (off : Nat) (d : RegDef) : OnlyRegs s (s.clearRc off d) [off] := by
  dsimp only [State.clearRc]
  split
  · exact OnlyRegs.refl _ _
  · exact OnlyRegs.setReg _ (OnlyRegs.refl _ _) (by simp)

/-- R47: RC bits that make up the low bits of a register are all clear after the read. -/
theorem State.clearRc_low (s : State) (off : Nat) (d : RegDef) {k : Nat} (rc : rcMask d ≠ 0) (word : k ≤ 32)
    (low : (0xFFFFFFFF ^^^ rcMask d) % 2 ^ k = 0) : (s.clearRc off d).rn off % 2 ^ k = 0 := by
  unfold State.clearRc
  rw [if_neg rc, State.rn_setRn_same, Nat.mod_mod_of_dvd _ (Nat.pow_dvd_pow 2 word), Nat.and_mod_two_pow, low, Nat.and_zero]

/-! ### Accesses by offset (R41-R46) -/

theorem wordOf_of_aligned {off : Nat} (aligned : off % 4 = 0) : wordOf off = off := by unfold wordOf; omega

/-- R41, R44: what an offset names: its page's kind and instance, and the register that covers it there. -/
theorem regAt_parts {off n i : Nat} {k : PageKind} {d : RegDef} (home : regAt off = some (k, n, d, i)) :
    pageKind (off / 4096) = some (k, n) ∧ findReg (regDefs k) (off % 4096) = some (d, i) := by
  unfold regAt at home
  cases page : pageKind (off / 4096) with
  | none => rw [page] at home; cases home
  | some x =>
    obtain ⟨k', n'⟩ := x
    rw [page] at home
    cases found : findReg (regDefs k') (off % 4096) with
    | none => simp only [found, reduceCtorEq] at home
    | some y =>
      obtain ⟨d', i'⟩ := y
      simp only [found, Option.some.injEq, Prod.mk.injEq] at home
      obtain ⟨rfl, rfl, rfl, rfl⟩ := home
      exact ⟨rfl, found⟩

/-- R41, R46: a word written at the offset of a register, past the page's header, is the register's own to judge. -/
theorem State.writeWord_of_regAt {off n i : Nat} {k : PageKind} {d : RegDef} (home : regAt off = some (k, n, d, i))
    (past : 0x040 ≤ off % 4096) (plain : msixIndex off = none) (takes : writable d = true) (s : State) (v : Word) :
    s.writeWord off v =
      if off / 4096 < 0x010 then s.writeLow k off d i v
      else if off / 4096 < 0x100 then s.writeMid k n off d i v
      else s.writeHigh k n off d i v := by
  obtain ⟨page, found⟩ := regAt_parts home
  have header : ¬ off % 4096 < 0x020 := by omega
  have control : ¬ off % 4096 < 0x040 := by omega
  simp only [State.writeWord, page, header, control, plain, found, takes, if_false, Bool.not_true, Bool.false_eq_true]

/-- R42, R46: a narrow write to a register that takes writes is refused. -/
theorem narrowRefused_of_regAt {off n i : Nat} {k : PageKind} {d : RegDef} (home : regAt off = some (k, n, d, i))
    (past : 0x040 ≤ off % 4096) (aligned : off % 4 = 0) (plain : msixIndex off = none) (takes : notReadOnly d = true) :
    narrowRefused off = true := by
  obtain ⟨page, found⟩ := regAt_parts home
  have word : off % 4096 / 4 * 4 = off % 4096 := by omega
  have header : ¬ off % 4096 < 0x020 := by omega
  have control : ¬ off % 4096 < 0x040 := by omega
  simp only [narrowRefused, page, header, control, plain, word, found, takes, if_false, Option.isSome_none, Bool.false_eq_true]

/-- R43, R47: a word read at the offset of a register, where no snapshot of a HI half waits for the requester and the register
begins none. -/
theorem State.readWord_of_regAt {off n i : Nat} {k : PageKind} {d : RegDef} (home : regAt off = some (k, n, d, i))
    (past : 0x040 ≤ off % 4096) (plain : msixIndex off = none) (single : pairLo k (off % 4096) = false) {s : State} {req : Nat}
    (fresh : mget s.hiSnap (snapKey req off) none = none) :
    s.readWord req off = ((s.readValue k n off d i req).1.clearRc off d, (s.readValue k n off d i req).2) := by
  obtain ⟨page, found⟩ := regAt_parts home
  have header : ¬ off % 4096 < 0x040 := by omega
  simp only [State.readWord, page, header, plain, found, fresh, single, if_false, Bool.false_eq_true]

/-! ### The commands -/

/-- R42: a write of 4 bytes by a requester that the endpoint does not refuse. -/
theorem exec_registerWrite_word {s : State} {req : Nat} (admitted : s.peerRefused req = false) (dt off : Nat) (v : BitVec 64) :
    exec (.registerWrite dt req off 4 v) s = .next ((s.tick dt).writeWord (wordOf off) (v.setWidth 32)).settle := by
  have passed : (s.tick dt).peerRefused req = false := by rwa [State.tick_peerRefused]
  show done (State.request _ _ _ _ _) = _
  rw [State.request, passed]
  rfl

/-- R42: a narrow write that is refused. -/
theorem exec_registerWrite_narrow {s : State} {req size : Nat} (admitted : s.peerRefused req = false) (narrow : size = 1 ∨ size = 2)
    (dt : Nat) {off : Nat} (refused : narrowRefused (wordOf off) = true) (v : BitVec 64) :
    exec (.registerWrite dt req off size v) s = .next ((s.tick dt).violate (wordOf off) 4).settle := by
  have passed : (s.tick dt).peerRefused req = false := by rwa [State.tick_peerRefused]
  show done (State.request _ _ _ _ _) = _
  rw [State.request, passed, State.busWrite, refused]
  obtain rfl | rfl := narrow <;> rfl

/-- A word that a command carries in 64 bits. -/
theorem exec_registerWrite_aligned {s : State} {req off : Nat} (admitted : s.peerRefused req = false) (dt : Nat) (v : Word)
    (aligned : off % 4 = 0) :
    exec (.registerWrite dt req off 4 (v.setWidth 64)) s = .next ((s.tick dt).writeWord off v).settle := by
  have word : (v.setWidth 64).setWidth 32 = v := by simp
  rw [exec_registerWrite_word admitted, wordOf_of_aligned aligned, word]

/-- R42, R47: a read of 4 bytes by a requester that the endpoint does not refuse. -/
theorem exec_readClear_word {s : State} {req off : Nat} (admitted : s.peerRefused req = false) (dt : Nat) (aligned : off % 4 = 0) :
    exec (.readClear dt req off 4) s =
      .next { ((s.tick dt).readWord req off).1 with bus := [((s.tick dt).readWord req off).2 % 2 ^ 32] }.settle := by
  have passed : (s.tick dt).peerRefused req = false := by rwa [State.tick_peerRefused]
  show done (State.query _ _ _ _) = _
  rw [State.query, passed]
  simp [State.busRead, lanes, wordOf_of_aligned aligned, aligned, done]

end Sys2Proof.Machine
end

section
/-! The registers and page headers that the statements of R46-R51 name, and those statements. -/
namespace Sys2Proof.Machine

/-! ### Registers as their definitions place them (R62-R64, R194, R252, R282) -/

/-- R46: a write judged field by field, to a register without shadowed fields. -/
theorem State.plainWrite_im {d : RegDef} (im : classOf d = .im) (s : State) (off : Nat) (v : Word) (extra : Nat → Nat → Bool) :
    s.plainWrite off d v extra = (s.land off d v extra).1 := by
  simp [State.plainWrite, State.heldWrite, im]

/-- R43: a register that is no half of a 64-bit quantity is judged by its fields alone. -/
theorem State.writePair_single {k : PageKind} {off : Nat} (lo : pairLo k (off % 4096) = false)
    (hi : pairLo k (off % 4096 - 4) = false) (s : State) (d : RegDef) (v : Word) :
    s.writePair k off d v = s.plainWrite off d v noExtra := by
  simp [State.writePair, lo, hi]

/-- R282: MCn.LAT_TGT. -/
abbrev latTgtDef : RegDef := ⟨0x068, 1, 4, 0xFCA76634, [fi 31 0 .rw]⟩

theorem regAt_mcLatTgt (n : Fin 8) : regAt (Reg.mcLatTgt n) = some (PageKind.mc, n.val, latTgtDef, 0) := by revert n; decide

theorem mcLatTgt_place (n : Fin 8) :
    Reg.mcLatTgt n % 4096 = 0x068 ∧ Reg.mcLatTgt n % 4 = 0 ∧ Reg.mcLatTgt n / 4096 = 0x100 + n ∧
      msixIndex (Reg.mcLatTgt n) = none := by
  revert n; decide

theorem State.writeWord_mcLatTgt (s : State) (n : Fin 8) (v : Word) :
    s.writeWord (Reg.mcLatTgt n) v = s.setReg (Reg.mcLatTgt n) v := by
  obtain ⟨place, -, page, plain⟩ := mcLatTgt_place n
  rw [State.writeWord_of_regAt (regAt_mcLatTgt n) (by omega) plain (by decide), if_neg (by omega), if_neg (by omega)]
  have whole : s.writeHigh .mc n (Reg.mcLatTgt n) latTgtDef 0 v = s.writePair .mc (Reg.mcLatTgt n) latTgtDef v := rfl
  rw [whole, State.writePair_single (by rw [place]; rfl) (by rw [place]; rfl), State.plainWrite_im (by decide)]
  exact s.land_whole _ _ _ _ _ v

/-- R253: SCHED.ETYPE. -/
abbrev etypeDef : RegDef := ⟨0x044, 1, 4, 0x88B5, [fx 15 0 .rw .im true [(1536, 33023), (33025, 34983), (34985, 65535)]]⟩

/-- R253: the values that the field map of ETYPE accepts. -/
theorem accepts_etype (x : Nat) (word : x < 65536) :
    accepts ⟨15, 0, .rw, .im, true, [(1536, 33023), (33025, 34983), (34985, 65535)]⟩ x =
      decide (0x0600 ≤ x ∧ x ≠ 0x8100 ∧ x ≠ 0x88A8) := by
  simp only [accepts, List.isEmpty_cons, Bool.false_or, List.any_cons, List.any_nil, Bool.or_false, ← Bool.decide_and,
    ← Bool.decide_or, decide_eq_decide]
  omega

theorem State.writeWord_schedEtype (s : State) (v : Word) :
    s.writeWord Reg.schedEtype v =
      if v.toNat % 65536 = s.fld Reg.schedEtype 15 0 then s.setReg Reg.schedEtype (s.reg Reg.schedEtype)
      else if s.locked 0x0E0 then ((s.setReg Reg.schedEtype (s.reg Reg.schedEtype)).violate Reg.schedEtype 1).lockViolation
      else if 0x0600 ≤ v.toNat % 65536 ∧ v.toNat % 65536 ≠ 0x8100 ∧ v.toNat % 65536 ≠ 0x88A8 then
        s.setFld Reg.schedEtype 15 0 (v.toNat % 65536)
      else (s.setReg Reg.schedEtype (s.reg Reg.schedEtype)).violate Reg.schedEtype 3 := by
  have page : Reg.schedEtype / 4096 = 0x0E0 := by decide
  have field : bitsOf v.toNat 15 0 = v.toNat % 65536 := by simp [bitsOf]
  have accepted := accepts_etype (v.toNat % 65536) (Nat.mod_lt _ (by decide))
  rw [State.writeWord_of_regAt (k := .sched) (n := 0) (d := etypeDef) (i := 0) (by decide) (by decide) (by decide) (by decide)]
  refine ((s.plainWrite_im (d := etypeDef) (by decide) Reg.schedEtype v noExtra).trans (s.land_one _ _ _ _ _ _ _ _ _ v noExtra)).trans ?_
  rw [field, accepted, page]
  by_cases good : 0x0600 ≤ v.toNat % 65536 ∧ v.toNat % 65536 ≠ 0x8100 ∧ v.toNat % 65536 ≠ 0x88A8
  · simp [good, noExtra, State.setFld]
  · simp [good, noExtra]

/-- R194: SCNn.PORTS_LO. -/
abbrev portsLoDef : RegDef := ⟨0x044, 1, 4, 0x0, [fx 31 0 .rw .sf false []]⟩

theorem regAt_scnPortsLo (n : Fin 4) : regAt (Reg.scnPortsLo n) = some (PageKind.scn, n.val, portsLoDef, 0) := by revert n; decide

theorem scnPortsLo_place (n : Fin 4) :
    Reg.scnPortsLo n % 4096 = 0x044 ∧ Reg.scnPortsLo n % 4 = 0 ∧ Reg.scnPortsLo n / 4096 = 0x90 + n ∧
      msixIndex (Reg.scnPortsLo n) = none := by
  revert n; decide

theorem State.writeWord_scnPortsLo (s : State) (n : Fin 4) (v : Word) :
    s.writeWord (Reg.scnPortsLo n) v =
      if s.pageHeld (0x90 + n) then s.refuseHeld (Reg.scnPortsLo n)
      else (s.setReg (Reg.scnPortsLo n) (s.reg (Reg.scnPortsLo n))).setShadow (Reg.scnPortsLo n) v := by
  obtain ⟨place, -, page, plain⟩ := scnPortsLo_place n
  rw [State.writeWord_of_regAt (regAt_scnPortsLo n) (by omega) plain (by decide), if_neg (by omega), if_pos (by omega)]
  have whole : s.writeMid .scn n (Reg.scnPortsLo n) portsLoDef 0 v = s.writePair .scn (Reg.scnPortsLo n) portsLoDef v := rfl
  have judged : (s.land (Reg.scnPortsLo n) portsLoDef v noExtra).1 = _ := s.land_shadowed _ _ _ _ _ v
  have held : s.heldWrite (Reg.scnPortsLo n) portsLoDef = s.pageHeld (0x90 + n) := by rw [State.heldWrite, page]; rfl
  rw [whole, State.writePair_single (by rw [place]; rfl) (by rw [place]; rfl), State.plainWrite, held,
    judged]

/-! ### Commands on one register -/

/-- Settles O6: LAT_TGT is one RW field, so its word lands; `violate_shows` gives a narrow write's report; a page that is not
implemented has no register. -/
theorem registerWriteLandsOrIsRefused : Obligations.RegisterWriteLandsOrIsRefused := by
  refine ⟨fun s dt req n v admitted => ?whole, fun s dt req size n v admitted narrow => ?narrow,
    fun s dt req off v admitted missing => ?missing⟩
  case whole =>
    obtain ⟨-, aligned, -, -⟩ := mcLatTgt_place n
    refine ⟨_, exec_registerWrite_aligned admitted dt v aligned, ?_, OnlyRegs.of_access (dt := dt) ?_⟩ <;> rw [State.writeWord_mcLatTgt]
    · simp
    · exact OnlyRegs.setReg v (OnlyRegs.refl _ _) (by simp)
  case narrow =>
    obtain ⟨place, aligned, page, plain⟩ := mcLatTgt_place n
    have word := wordOf_of_aligned aligned
    have refused := narrowRefused_of_regAt (regAt_mcLatTgt n) (by omega) aligned plain (by decide)
    obtain ⟨shown, kind, offset, stat⟩ := (s.tick dt).violate_shows (Reg.mcLatTgt n) (kind := 4) (by decide)
    have only := (s.tick dt).violate_only (Reg.mcLatTgt n) 4
    rw [page] at shown kind offset stat only
    refine ⟨_, exec_registerWrite_narrow admitted narrow dt (by rwa [word]) v, ?_⟩
    rw [word, State.settle_bit, State.settle_fld, State.settle_fld, State.settle_bit]
    exact ⟨shown, kind, by rw [offset, place], stat, only.of_access⟩
  case missing =>
    have page : pageKind (wordOf off / 4096) = none := by
      rwa [show wordOf off / 4096 = off / 4096 by unfold wordOf; omega]
    have reported : (s.tick dt).writeWord (wordOf off) (v.setWidth 32) = (s.tick dt).setBit Reg.devStat 1 := by
      unfold State.writeWord
      rw [page]
    refine ⟨_, exec_registerWrite_word admitted dt off v, ?_⟩
    rw [reported, State.settle_bit]
    exact ⟨State.bit_setBit_same _ _ (by decide), (State.setBit_only _ _ _).of_access⟩

/-- Settles O7: the three outcomes of the one field's judgement, `State.writeWord_schedEtype`. -/
theorem lockedFieldKeepsItsValue : Obligations.LockedFieldKeepsItsValue := by
  have page : Reg.schedEtype / 4096 = 0x0E0 := by decide
  have reported := fun u : State => u.refused_only Reg.schedEtype
  rw [page] at reported
  refine ⟨fun s dt req v admitted locked new => ⟨_, exec_registerWrite_aligned admitted dt v (by decide), ?locked⟩,
    fun s dt req v admitted unlocked new bad => ⟨_, exec_registerWrite_aligned admitted dt v (by decide), ?refused⟩,
    fun s dt req v admitted unlocked low notVlan notQinQ => ⟨_, exec_registerWrite_aligned admitted dt v (by decide), ?lands⟩,
    fun s dt req v admitted same => ⟨_, exec_registerWrite_aligned admitted dt v (by decide), ?same⟩⟩ <;>
    rw [State.writeWord_schedEtype, State.tick_fld, State.tick_locked]
  case locked =>
    rw [if_neg new, locked, if_pos rfl]
    obtain ⟨others, -⟩ := reported (s.tick dt) 1
    obtain ⟨-, kind, -, -⟩ := ((s.tick dt).setReg Reg.schedEtype ((s.tick dt).reg Reg.schedEtype)).violate_shows Reg.schedEtype
      (kind := 1) (by decide)
    rw [page] at kind
    refine ⟨?_, ?_, by rw [State.settle_bit]; exact State.lockViolation_shows _, ?_, ?_⟩
    · rw [State.settle_reg, State.reg_lockViolation_other _ (by decide), others _ (by decide), State.tick_reg]
    · rw [State.settle_fld, State.fld, State.rn, State.reg_lockViolation_other _ (by decide)]
      exact kind
    · rw [State.settle_rn, State.lockViolation_counts, State.rn, others _ (by decide), State.tick_reg]
      rfl
    · exact (((SameMemory.setReg (s.tick dt) _ _).trans (SameMemory.violate _ _ _)).trans (State.lockViolation_sameMemory _)).of_access
  case refused =>
    rw [if_neg new, unlocked, if_neg (by decide), if_neg (by omega)]
    obtain ⟨-, kind, -, -⟩ := ((s.tick dt).setReg Reg.schedEtype ((s.tick dt).reg Reg.schedEtype)).violate_shows Reg.schedEtype
      (kind := 3) (by decide)
    obtain ⟨others, -⟩ := reported (s.tick dt) 3
    rw [page] at kind
    refine ⟨?_, by rw [State.settle_fld]; exact kind, (reported (s.tick dt) 3).of_access⟩
    rw [State.settle_reg, others _ (by decide), State.tick_reg]
  case lands =>
    by_cases same : v.toNat % 65536 = s.fld Reg.schedEtype 15 0
    · rw [if_pos same, State.settle_fld]
      refine ⟨?_, (OnlyRegs.setReg_self _ _ _).of_access⟩
      simp [same, State.fld, State.rn]
    · rw [if_neg same, unlocked, if_neg (by decide), if_pos ⟨low, notVlan, notQinQ⟩, State.settle_fld,
        State.fld_setFld_same _ _ _ (by decide) (by decide)]
      exact ⟨by simp, (OnlyRegs.setReg _ (OnlyRegs.refl _ _) (by simp)).of_access⟩
  case same =>
    rw [if_pos same]
    exact (OnlyRegs.setReg_self _ _ _).of_access

/-- Settles O8: on a free page the word waits in the shadow copy, on a held one `refuseHeld` reports it. -/
theorem shadowedWriteWaits : Obligations.ShadowedWriteWaits := by
  refine ⟨fun s dt req n v admitted free => ?waits, fun s dt req n v admitted held => ?refused⟩
  case waits =>
    obtain ⟨-, aligned, -, -⟩ := scnPortsLo_place n
    refine ⟨_, exec_registerWrite_aligned admitted dt v aligned, ?_⟩
    rw [State.writeWord_scnPortsLo, State.tick_pageHeld, free, if_neg (by decide)]
    refine ⟨by rw [State.settle_sh, State.sh_setShadow_same], by rw [State.settle_isPending, State.isPending_setShadow],
      fun off _ => ?_, fun off other => ?_, SameMemory.of_access (dt := dt) (SameMemory.of_eq rfl rfl rfl)⟩
    · rw [State.settle_reg, State.reg_setShadow, State.reg_setReg_self, State.tick_reg]
    · rw [State.settle_sh, State.sh_setShadow_other _ _ other, State.sh_setReg_self, State.tick_sh]
  case refused =>
    obtain ⟨-, aligned, page, -⟩ := scnPortsLo_place n
    refine ⟨_, exec_registerWrite_aligned admitted dt v aligned, ?_⟩
    rw [State.writeWord_scnPortsLo, State.tick_pageHeld, held, if_pos rfl, State.settle_fld, State.settle_bit]
    obtain ⟨kind, shown⟩ := (s.tick dt).refuseHeld_shows (Reg.scnPortsLo n)
    have only := (s.tick dt).refuseHeld_only (Reg.scnPortsLo n)
    rw [page] at kind only
    exact ⟨kind, shown, only.of_access⟩

/-! ### Reads -/

/-- R63: DEV.STAT. -/
abbrev devStatDef : RegDef := ⟨0x050, 1, 4, 0x0, [fi 0 0 .rc, fi 1 1 .rc]⟩

/-- R389: GPIO.IRQ. -/
abbrev gpioIrqDef : RegDef := ⟨0x058, 1, 4, 0x0, [fi 15 0 .rc]⟩

theorem readMask_devStat (w : Nat) : readMask devStatDef w % 2 ^ 32 = w % 4 := by
  simp only [readMask, fi, List.foldl, bitsOf, Nat.shiftRight_eq_div_pow]
  omega

theorem readMask_gpioIrq (w : Nat) : readMask gpioIrqDef w % 2 ^ 32 = w % 65536 := by
  simp only [readMask, fi, List.foldl, bitsOf, Nat.shiftRight_eq_div_pow]
  omega

theorem readMask_latTgt (w : Word) : readMask latTgtDef w.toNat % 2 ^ 32 = w.toNat := by
  simp only [readMask, fi, List.foldl, bitsOf_all]
  omega

/-- R47, R50: a read of a register without shadowed fields, whose value nothing but its home gives, returns that word and clears its
RC bits alone. -/
theorem exec_readClear_home {s : State} {req off n i : Nat} {k : PageKind} {d : RegDef} (admitted : s.peerRefused req = false)
    (fresh : ∀ key, mget s.hiSnap key none = none) (dt : Nat) (defined : regAt off = some (k, n, d, i)) (past : 0x040 ≤ off % 4096)
    (aligned : off % 4 = 0) (plain : msixIndex off = none) (single : pairLo k (off % 4096) = false)
    (home : ∀ u : State, u.readValue k n off d i req = (u, u.storedWord off d)) (im : ∀ f ∈ d.fields, f.cls = .im) :
    ∃ t, exec (.readClear dt req off 4) s = .next t ∧ t.bus = [readMask d (s.rn off) % 2 ^ 32] ∧
      t.rn off = ((s.tick dt).clearRc off d).rn off ∧
      ∀ offs, OnlyRegs (s.tick dt) ((s.tick dt).clearRc off d) offs → OnlyRegs s t offs := by
  have unseen : mget (s.tick dt).hiSnap (snapKey req off) none = none := by rw [State.tick_hiSnap]; exact fresh _
  refine ⟨_, exec_readClear_word admitted dt aligned, ?_⟩
  rw [State.readWord_of_regAt defined past plain single unseen, home, State.storedWord_of_im _ _ im, State.tick_rn]
  exact ⟨rfl, rfl, fun offs only => OnlyRegs.of_access (dt := dt) only⟩

/-- Settles O9: each of the three registers reads as its home holds it, and `State.clearRc` is all that the read does. -/
theorem readClears : Obligations.ReadClears := by
  intro s dt req admitted fresh
  refine ⟨?stat, ?irq, ?plain⟩
  case stat =>
    obtain ⟨t, ran, bus, word, only⟩ := exec_readClear_home admitted fresh dt (k := .dev) (n := 0) (d := devStatDef) (i := 0)
      (off := Reg.devStat) (by decide) (by decide) (by decide) (by decide) (by decide) (fun _ => rfl) (by decide)
    exact ⟨t, ran, by rw [bus, readMask_devStat],
      by rw [word]; exact State.clearRc_low _ _ _ (k := 2) (by decide) (by decide) (by decide), only _ (State.clearRc_only _ _ _)⟩
  case irq =>
    obtain ⟨t, ran, bus, word, only⟩ := exec_readClear_home admitted fresh dt (k := .gpio) (n := 0) (d := gpioIrqDef) (i := 0)
      (off := Reg.gpioIrq) (by decide) (by decide) (by decide) (by decide) (by decide) (fun _ => rfl) (by decide)
    exact ⟨t, ran, by rw [bus, readMask_gpioIrq],
      by rw [word]; exact State.clearRc_low _ _ _ (k := 16) (by decide) (by decide) (by decide), only _ (State.clearRc_only _ _ _)⟩
  case plain =>
    obtain ⟨t, ran, bus, -, only⟩ := exec_readClear_home admitted fresh dt (k := .mc) (n := 0) (d := latTgtDef) (i := 0)
      (off := Reg.mcLatTgt 0) (by decide) (by decide) (by decide) (by decide) (by decide) (fun _ => rfl) (by decide)
    exact ⟨t, ran, by rw [bus, State.rn, readMask_latTgt], only [] (OnlyRegs.refl _ _)⟩

/-! ### Page headers (R44, R51) -/

theorem pgLock_place (page : Nat) : pgLock page / 4096 = page ∧ pgLock page % 4096 = 0x00C := by unfold pgLock; omega
theorem pgLatch_place (page : Nat) : pgLatch page / 4096 = page ∧ pgLatch page % 4096 = 0x018 := by unfold pgLatch; omega

/-- R44: the header of an implemented page takes a write to PG_LOCK. -/
theorem State.writeWord_pgLock {page : Nat} (implemented : (pageKind page).isSome) (s : State) (v : Word) :
    s.writeWord (pgLock page) v = s.writePgLock page v := by
  obtain ⟨⟨k, n⟩, kind⟩ := Option.isSome_iff_exists.mp implemented
  obtain ⟨home, place⟩ := pgLock_place page
  simp [State.writeWord, home, place, kind]

/-- R51: the header of an implemented page takes a write to PG_LATCH. -/
theorem State.writeWord_pgLatch {page : Nat} (implemented : (pageKind page).isSome) (s : State) (v : Word) :
    s.writeWord (pgLatch page) v = s.writePgLatch page v := by
  obtain ⟨⟨k, n⟩, kind⟩ := Option.isSome_iff_exists.mp implemented
  obtain ⟨home, place⟩ := pgLatch_place page
  simp [State.writeWord, home, place, kind]

theorem isSome_of_shadowedPage {page : Nat} (h : shadowedPage page = true) : (pageKind page).isSome := by
  unfold shadowedPage at h
  split at h
  · next kind => simp [kind]
  · cases h

/-- R44, R47: what PG_LOCK says after a write of it. -/
theorem State.locked_writePgLock (s : State) (page : Nat) (v : Word) :
    (s.writePgLock page v).locked page = (s.locked page || v.getLsbD 0) := by
  unfold State.writePgLock
  cases v.getLsbD 0
  · simp [State.setBitIf]
  · rw [Bool.or_true]
    exact State.bit_setBit_same _ _ (by decide)

theorem State.writePgLock_only (s : State) (page : Nat) (v : Word) : OnlyRegs s (s.writePgLock page v) [pgLock page] := by
  unfold State.writePgLock
  cases v.getLsbD 0
  · exact OnlyRegs.refl _ _
  · exact s.setBit_only _ _

@[simp] theorem State.tick_heldMask (s : State) (dt : Nat) : (s.tick dt).heldMask = s.heldMask := by simp [State.heldMask]
@[simp] theorem State.tick_groupOf (s : State) (dt page : Nat) : (s.tick dt).groupOf page = s.groupOf page := by
  simp [State.groupOf]

/-- R51: the group, as the low four bits of PG_LATCH. -/
theorem State.groupOf_eq (s : State) (page : Nat) : s.groupOf page = s.rn (pgLatch page) % 16 := by
  simp [State.groupOf, State.fld, bitsOf]

/-- R51: what PG_LATCH becomes under the write mask of a word. -/
def latchMerge (cur : Nat) (v : Word) : Nat := (v.toNat &&& v.toNat / 65536 % 32) ||| (cur &&& (31 ^^^ v.toNat / 65536 % 32))

theorem State.writePgLatch_eq (s : State) (page : Nat) (v : Word) :
    s.writePgLatch page v =
      if shadowedPage page && (s.heldMask.testBit (s.groupOf page) ||
          s.heldMask.testBit (latchMerge (s.rn (pgLatch page)) v % 16)) then s.violate (pgLatch page) 2
      else s.setRn (pgLatch page) (latchMerge (s.rn (pgLatch page)) v % 32) := by
  rw [State.groupOf_eq]
  rfl

/-- R51: a word whose mask covers group and EN. -/
theorem latchMerge_whole (cur : Nat) {x : Nat} (fits : x < 32) : latchMerge cur (BitVec.ofNat 32 (x + 0x001F0000)) = x := by
  have word : (BitVec.ofNat 32 (x + 0x001F0000)).toNat = x + 0x001F0000 := by rw [BitVec.toNat_ofNat]; omega
  have mask : (x + 0x001F0000) / 65536 % 32 = 2 ^ 5 - 1 := by omega
  have rest : 31 ^^^ (2 ^ 5 - 1) = 0 := by decide
  rw [latchMerge, word, mask, rest, Nat.and_zero, Nat.or_zero, Nat.and_two_pow_sub_one_eq_mod]
  omega

/-- R51: a word whose mask covers the group alone. -/
theorem latchMerge_group (cur : Nat) {g : Nat} (fits : g < 16) : latchMerge cur (BitVec.ofNat 32 (g + 0x000F0000)) % 16 = g := by
  have word : (BitVec.ofNat 32 (g + 0x000F0000)).toNat = g + 0x000F0000 := by rw [BitVec.toNat_ofNat]; omega
  have mask : (g + 0x000F0000) / 65536 % 32 = 2 ^ 4 - 1 := by omega
  have rest : 31 ^^^ (2 ^ 4 - 1) = 16 := by decide
  have kept : (cur &&& 16) % 16 = 0 := by rw [Nat.and_mod_two_pow (n := 4)]; exact Nat.and_zero _
  rw [latchMerge, word, mask, rest, Nat.and_two_pow_sub_one_eq_mod, Nat.or_mod_two_pow (n := 4), kept, Nat.or_zero]
  omega

@[simp] theorem State.settle_locked (s : State) (page : Nat) : s.settle.locked page = s.locked page := rfl
@[simp] theorem State.settle_groupOf (s : State) (page : Nat) : s.settle.groupOf page = s.groupOf page := rfl
@[simp] theorem State.settle_pgEn (s : State) (page : Nat) : s.settle.pgEn page = s.pgEn page := rfl

/-- R51: PG_LATCH once it holds a group and EN. -/
theorem State.latch_setRn (s : State) (page : Nat) {g : Nat} (en : Bool) (fits : g < 16) :
    (s.setRn (pgLatch page) (g + if en then 16 else 0)).groupOf page = g ∧
      (s.setRn (pgLatch page) (g + if en then 16 else 0)).pgEn page = en := by
  rw [State.groupOf_eq, State.pgEn, State.bit, State.rn_setRn_same, Nat.testBit_eq_decide_div_mod_eq]
  cases en
  · rw [if_neg Bool.false_ne_true]
    exact ⟨by omega, decide_eq_false (by omega)⟩
  · rw [if_pos rfl]
    exact ⟨by omega, decide_eq_true (by omega)⟩

/-- Settles O10: a header write is `writePgLock` or `writePgLatch`; what the mask lets through decides the latter, and on
a page without shadowed registers no held group hinders it (notes/assumptions/15). -/
theorem pageHeadersTakeWrites : Obligations.PageHeadersTakeWrites := by
  refine ⟨fun s dt req page v implemented => ⟨_, rfl, ?lock⟩, fun s dt req page g en implemented fits free => ⟨_, rfl, ?latch⟩,
    fun s dt req page g shadowed fits held => ⟨_, rfl, ?refused⟩⟩
  case lock =>
    rw [State.writeWord_pgLock implemented, State.settle_locked, State.locked_writePgLock, State.tick_locked]
    exact ⟨rfl, (State.writePgLock_only _ _ _).of_access⟩
  case latch =>
    have word : g + (if en then 16 else 0) < 32 := by split <;> omega
    rw [State.writeWord_pgLatch implemented, State.writePgLatch_eq, latchMerge_whole _ word, State.tick_heldMask, State.tick_groupOf,
      if_neg ?taken, Nat.mod_eq_of_lt word, State.settle_groupOf, State.settle_pgEn]
    case taken =>
      have low : (g + if en then 16 else 0) % 16 = g := by split <;> omega
      rw [low]
      obtain plain | ⟨old, new⟩ := free
      · simp [plain]
      · simp [old, new]
    obtain ⟨group, enabled⟩ := (s.tick dt).latch_setRn page en fits
    exact ⟨group, enabled, (OnlyRegs.setReg _ (OnlyRegs.refl _ _) (by simp)).of_access⟩
  case refused =>
    have taken : (shadowedPage page && (s.heldMask.testBit (s.groupOf page) || s.heldMask.testBit g)) = true := by
      rw [shadowed, Bool.true_and, Bool.or_eq_true]
      exact held
    rw [State.writeWord_pgLatch (isSome_of_shadowedPage shadowed), State.writePgLatch_eq, latchMerge_group _ fits, State.tick_heldMask,
      State.tick_groupOf, if_pos taken, State.settle_groupOf, State.settle_fld]
    obtain ⟨-, kind, -, -⟩ := (s.tick dt).violate_shows (pgLatch page) (kind := 2) (by decide)
    have only := (s.tick dt).violate_only (pgLatch page) 2
    obtain ⟨home, -⟩ := pgLatch_place page
    rw [home] at kind only
    have apart : pgLatch page ∉ [pgViol page, pgStat page] := by simp [pgLatch, pgViol, pgStat]
    refine ⟨?_, kind, only.of_access⟩
    rw [State.groupOf_eq, State.rn, only.1 _ apart, ← State.rn, ← State.groupOf_eq, State.tick_groupOf]

end Sys2Proof.Machine
end

section
/-! The indirect windows of the coefficient sets, the tone objects and the encode LUTs (R121, R153-R157). -/
namespace Sys2Proof.Machine

/-! ### Time changes nothing that a window looks at -/

@[simp] theorem State.tick_cv (s : State) (dt cv : Nat) : (s.tick dt).cv cv = s.cv cv := by simp [State.cv]

@[simp] theorem State.tick_anyLane (s : State) (dt : Nat) (p : Comp → Lane → Bool) : (s.tick dt).anyLane p = s.anyLane p := by
  simp only [State.anyLane, State.tick_cv]

@[simp] theorem State.tick_frameReg (s : State) (dt : Nat) (k : Comp) (off : Nat) :
    (s.tick dt).frameReg k off = s.frameReg k off := by
  simp only [State.frameReg, State.tick_reg]

@[simp] theorem State.tick_coefInUse (s : State) (dt set bank : Nat) : (s.tick dt).coefInUse set bank = s.coefInUse set bank := by
  simp only [State.coefInUse, State.tick_anyLane, State.tick_frameReg]

@[simp] theorem State.tick_toneInUse (s : State) (dt obj bank : Nat) : (s.tick dt).toneInUse obj bank = s.toneInUse obj bank := by
  simp only [State.toneInUse, State.tick_anyLane, State.tick_frameReg]

@[simp] theorem State.tick_lutInUse (s : State) (dt cv bank : Nat) : (s.tick dt).lutInUse cv bank = s.lutInUse cv bank := by
  simp only [State.lutInUse, State.liveCv, State.tick_cv, State.tick_fld]

@[simp] theorem State.tick_coefData (s : State) (dt set : Nat) : (s.tick dt).coefData set = s.coefData set := by
  simp only [State.coefData, State.coefAt, State.tick_coef, State.tick_fld]

@[simp] theorem State.tick_toneDataWord (s : State) (dt : Nat) : (s.tick dt).toneDataWord = s.toneDataWord := by
  simp only [State.toneDataWord, State.toneAt, State.tick_tone, State.tick_fld]

@[simp] theorem State.tick_lutDataWord (s : State) (dt cv : Nat) : (s.tick dt).lutDataWord cv = s.lutDataWord cv := by
  simp only [State.lutDataWord, State.lutAt, State.tick_lut, State.tick_fld]

/-! ### The index (R46, R121) -/

theorem State.advance_only (s : State) (idx : Nat) : OnlyRegs s (s.advance idx) [idx] := by
  unfold State.advance
  split
  · exact OnlyRegs.setReg _ (OnlyRegs.refl _ _) (by simp)
  · exact OnlyRegs.refl _ _

/-- What ENTRY is once the index has advanced, in a state that has the registers of `s`, whatever its tables. -/
theorem State.advance_entry {s u : State} (regs : u.regs = s.regs) (idx : Nat) :
    (u.advance idx).fld idx 10 0 = if s.bit idx 16 then (s.fld idx 10 0 + 1) % 2048 else s.fld idx 10 0 := by
  have word : u.rn idx = s.rn idx := by rw [State.rn, State.rn, State.reg, State.reg, regs]
  unfold State.advance State.bit State.fld
  rw [word]
  split
  · exact u.fld_setFld_same idx _ (by decide) (by decide)
  · rw [word]

/-- An entry below the last number that the index holds is followed by the next one. -/
theorem State.advance_entry_below {s u : State} (regs : u.regs = s.regs) {idx : Nat} (room : s.fld idx 10 0 < 2047) :
    (u.advance idx).fld idx 10 0 = if s.bit idx 16 then s.fld idx 10 0 + 1 else s.fld idx 10 0 := by
  rw [State.advance_entry regs, Nat.mod_eq_of_lt (by omega)]

@[simp] theorem State.advance_bus (s : State) (idx : Nat) : (s.advance idx).bus = s.bus := by unfold State.advance; split <;> rfl
@[simp] theorem State.advance_coef (s : State) (idx : Nat) : (s.advance idx).coef = s.coef := by unfold State.advance; split <;> rfl
@[simp] theorem State.advance_tone (s : State) (idx : Nat) : (s.advance idx).tone = s.tone := by unfold State.advance; split <;> rfl
@[simp] theorem State.advance_lut (s : State) (idx : Nat) : (s.advance idx).lut = s.lut := by unfold State.advance; split <;> rfl

/-! ### What every window does with a read, a refused write and a write that lands -/

/-- R121: a window's read gives its value and advances the index. -/
theorem State.windowRead_outcome (s : State) (dt idx v : Nat) :
    ((s.tick dt).windowRead idx v).settle.bus = [v] ∧
      ((s.tick dt).windowRead idx v).settle.fld idx 10 0 =
        (if s.bit idx 16 then (s.fld idx 10 0 + 1) % 2048 else s.fld idx 10 0) ∧
      OnlyRegs s ((s.tick dt).windowRead idx v).settle [idx] := by
  have shown : OnlyRegs (s.tick dt) { s.tick dt with bus := [v] } [idx] := ⟨fun _ _ => rfl, rfl⟩
  refine ⟨by rw [State.settle_bus, State.windowRead, State.advance_bus], ?_, (shown.trans (State.advance_only _ idx)).of_access⟩
  rw [State.settle_fld]
  exact State.advance_entry (by exact s.tick_regs dt) idx

/-- R46, R121: a window's refusal shows KIND 3 on its page. -/
theorem State.windowRefusal_outcome (s : State) (dt : Nat) {data page : Nat} (home : data / 4096 = page) :
    ((s.tick dt).violate data 3).settle.fld (pgViol page) 14 12 = 3 ∧
      OnlyRegs s ((s.tick dt).violate data 3).settle [pgViol page, pgStat page] := by
  subst home
  obtain ⟨-, kind, -, -⟩ := (s.tick dt).violate_shows data (kind := 3) (by decide)
  exact ⟨by rw [State.settle_fld, kind], ((s.tick dt).violate_only data 3).of_access⟩

/-- A state whose table is put back has the frame that the change after the write to the table has. -/
theorem OnlyRegs.of_restored {s u t : State} {offs : List Nat} (h : OnlyRegs u t offs) (restore : State → State)
    (regs : ∀ w off, (restore w).reg off = w.reg off) (rest : ∀ w, (restore w).rest = restore w.rest) (back : restore u = s) :
    OnlyRegs s (restore t) offs := by
  obtain ⟨others, unit⟩ := h
  subst back
  exact ⟨fun off new => by rw [regs, regs, others off new], by rw [rest, rest, unit]⟩

theorem OnlyRegs.of_coefStore {s t : State} {dt : Nat} {m : Sparse Nat} {offs : List Nat}
    (h : OnlyRegs { s.tick dt with coef := m } t offs) : OnlyRegs s { t with coef := s.coef } offs := by
  rw [← s.tick_coef dt]
  exact OnlyRegs.of_tick (h.of_restored (fun w => { w with coef := (s.tick dt).coef }) (fun _ _ => rfl) (fun _ => rfl) rfl)

theorem OnlyRegs.of_toneStore {s t : State} {dt : Nat} {m : Sparse Nat} {offs : List Nat}
    (h : OnlyRegs { s.tick dt with tone := m } t offs) : OnlyRegs s { t with tone := s.tone } offs := by
  rw [← s.tick_tone dt]
  exact OnlyRegs.of_tick (h.of_restored (fun w => { w with tone := (s.tick dt).tone }) (fun _ _ => rfl) (fun _ => rfl) rfl)

theorem OnlyRegs.of_lutStore {s t : State} {dt : Nat} {m : Sparse Nat} {offs : List Nat}
    (h : OnlyRegs { s.tick dt with lut := m } t offs) : OnlyRegs s { t with lut := s.lut } offs := by
  rw [← s.tick_lut dt]
  exact OnlyRegs.of_tick (h.of_restored (fun w => { w with lut := (s.tick dt).lut }) (fun _ _ => rfl) (fun _ => rfl) rfl)

/-! ### When a window stores (R121) -/

theorem mayStore_iff {entry limit bank active pending : Nat} {inUse : Bool} :
    mayStore entry limit bank active pending inUse = true ↔
      entry ≤ limit ∧ bank ≠ active ∧ bank ≠ pending ∧ inUse = false := by
  simp [mayStore, and_assoc]

theorem not_mayStore_iff {entry limit bank active pending : Nat} {inUse : Bool} :
    ¬ mayStore entry limit bank active pending inUse = true ↔
      limit < entry ∨ bank = active ∨ bank = pending ∨ inUse = true := by
  simp only [mayStore_iff, ne_eq, Decidable.not_and_iff_not_or_not, Decidable.not_not, Nat.not_le, Bool.not_eq_false]

/-! ### The commands -/

theorem exec_coefDataWrite {s : State} {e b : Nat} {set : Fin 8} (entry : e = s.fld (Reg.coefIdx set) 10 0)
    (bank : b = s.fld (Reg.coefIdx set) 11 11) (dt req : Nat) (v : Word) :
    exec (.coefDataWrite dt req set v) s = .next
      (if mayStore e 1791 b (s.fld (Reg.coefCtrl set) 0 0) ((s.sh (Reg.coefCtrl set)).toNat % 2) (s.coefInUse set b) then
        { s.tick dt with coef := mset s.coef ((set * 2 + b) * 1792 + e) (coefDefault e) (v.toNat % 4096) }.advance (Reg.coefIdx set)
      else (s.tick dt).violate (Reg.coefData set) 3).settle := by
  subst entry bank
  show done ((s.tick dt).writeCoef set v) = _
  simp only [State.writeCoef, State.tick_fld, State.tick_sh, State.tick_coefInUse, State.tick_coef, done]

theorem exec_toneDataWrite {s : State} {j e b : Nat} (object : j = s.fld Reg.toneSel 4 0) (entry : e = s.fld Reg.toneIdx 10 0)
    (bank : b = s.fld Reg.toneIdx 11 11) (dt req : Nat) (v : Word) :
    exec (.toneDataWrite dt req v) s = .next
      (if mayStore e (toneLimit j) b (s.fld Reg.toneBank j j) (bitsOf (s.sh Reg.toneBank).toNat j j) (s.toneInUse j b) then
        { s.tick dt with tone := mset s.tone ((j * 2 + b) * 2048 + e) (toneDefault j e) (v.toNat % 2 ^ 20) }.advance Reg.toneIdx
      else (s.tick dt).violate Reg.toneData 3).settle := by
  subst object entry bank
  show done ((s.tick dt).writeTone v) = _
  simp only [State.writeTone, State.tick_fld, State.tick_sh, State.tick_toneInUse, State.tick_tone, done]

theorem exec_lutDataWrite {s : State} {e b : Nat} {cv : Fin 4} (entry : e = s.fld (Reg.cvcLutIdx cv) 10 0)
    (bank : b = s.fld (Reg.cvcLutIdx cv) 11 11) (dt req : Nat) (v : Word) :
    exec (.lutDataWrite dt req cv v) s = .next
      (if mayStore e 1024 b (s.fld (Reg.cvcLutSel cv) 0 0) ((s.sh (Reg.cvcLutSel cv)).toNat % 2) (s.lutInUse cv b) then
        { s.tick dt with lut := mset s.lut ((cv * 2 + b) * 2048 + e) (lutRamp e) (v.toNat % 65536) }.advance (Reg.cvcLutIdx cv)
      else (s.tick dt).violate (Reg.cvcLutData cv) 3).settle := by
  subst entry bank
  show done ((s.tick dt).writeLut cv v) = _
  simp only [State.writeLut, State.tick_fld, State.tick_sh, State.tick_lutInUse, State.tick_lut, done]

/-- R154: no object has as many entries as the index can number. -/
theorem toneLimit_lt (j : Nat) : toneLimit j < 2047 := by
  unfold toneLimit
  split <;> decide

/-- Settles O35: `mayStore_iff` parts the writes that land from those refused. One that lands is a sparse table written at one
entry, which keeps the others, and an index that advances; `State.windowRefusal_outcome` and `State.windowRead_outcome` say what
becomes of the rest. -/
theorem tablesStoreAndRead : Obligations.TablesStoreAndRead := by
  refine ⟨?coefStores, ?coefRefuses, ?coefReads, ?toneStores, ?toneRefuses, ?toneReads, ?lutStores, ?lutRefuses, ?lutReads⟩
  case coefStores =>
    intro s dt req e b set v entry bank inside inactive unawaited unused
    rw [exec_coefDataWrite entry bank, if_pos (mayStore_iff.2 ⟨inside, inactive, unawaited, unused⟩)]
    refine ⟨_, rfl, ?_, fun k d other => ?_, ?_, (State.advance_only _ _).settle.of_coefStore⟩
    · rw [State.coefAt, State.settle_coef, State.advance_coef, mget_mset_same]
      simp [signedOf]
    · rw [State.settle_coef, State.advance_coef, mget_mset_other _ _ _ _ other]
    · rw [State.settle_fld, entry]
      exact State.advance_entry_below (by exact s.tick_regs dt) (by omega)
  case coefRefuses =>
    intro s dt req e b set v entry bank refused
    rw [exec_coefDataWrite entry bank, if_neg (not_mayStore_iff.2 refused)]
    exact ⟨_, rfl, s.windowRefusal_outcome dt (by unfold Reg.coefData; omega)⟩
  case coefReads =>
    rintro s dt req e set rfl
    refine ⟨_, rfl, ?_⟩
    rw [State.tick_coefData]
    exact s.windowRead_outcome dt _ _
  case toneStores =>
    intro s dt req j e b v object entry bank inside inactive unawaited unused
    rw [exec_toneDataWrite object entry bank, if_pos (mayStore_iff.2 ⟨inside, inactive, unawaited, unused⟩)]
    refine ⟨_, rfl, ?_, fun k d other => ?_, ?_, (State.advance_only _ _).settle.of_toneStore⟩
    · rw [State.toneAt, State.settle_tone, State.advance_tone, mget_mset_same]
    · rw [State.settle_tone, State.advance_tone, mget_mset_other _ _ _ _ other]
    · rw [State.settle_fld, entry]
      exact State.advance_entry_below (by exact s.tick_regs dt) (by have last := toneLimit_lt j; omega)
  case toneRefuses =>
    intro s dt req j e b v object entry bank refused
    rw [exec_toneDataWrite object entry bank, if_neg (not_mayStore_iff.2 refused)]
    exact ⟨_, rfl, s.windowRefusal_outcome dt (by decide)⟩
  case toneReads =>
    rintro s dt req j e rfl rfl
    refine ⟨_, rfl, ?_⟩
    rw [State.tick_toneDataWord]
    exact s.windowRead_outcome dt _ _
  case lutStores =>
    intro s dt req e b cv v entry bank inside inactive unawaited unused
    rw [exec_lutDataWrite entry bank, if_pos (mayStore_iff.2 ⟨inside, inactive, unawaited, unused⟩)]
    refine ⟨_, rfl, ?_, fun k d other => ?_, ?_, (State.advance_only _ _).settle.of_lutStore⟩
    · rw [State.lutAt, State.settle_lut, State.advance_lut, mget_mset_same]
    · rw [State.settle_lut, State.advance_lut, mget_mset_other _ _ _ _ other]
    · rw [State.settle_fld, entry]
      exact State.advance_entry_below (by exact s.tick_regs dt) (by omega)
  case lutRefuses =>
    intro s dt req e b cv v entry bank refused
    rw [exec_lutDataWrite entry bank, if_neg (not_mayStore_iff.2 refused)]
    exact ⟨_, rfl, s.windowRefusal_outcome dt (by unfold Reg.cvcLutData; omega)⟩
  case lutReads =>
    rintro s dt req e cv rfl
    refine ⟨_, rfl, ?_⟩
    rw [State.tick_lutDataWord]
    exact s.windowRead_outcome dt _ _

end Sys2Proof.Machine
end

section
/-! Alpha of a container value as a 16-bit unorm (R135). -/
namespace Sys2Proof.Machine

/-- A quotient cut off at `top` is `a` when it is at least `a` and, short of `top`, below `a + 1`. -/
theorem min_div_eq_iff {n d top a : Nat} (pos : 0 < d) (within : a ≤ top) :
    min top (n / d) = a ↔ a * d ≤ n ∧ (a < top → n < (a + 1) * d) := by
  rw [← Nat.le_div_iff_mul_le pos, ← Nat.div_lt_iff_lt_mul pos]
  omega

/-- R135 divides by its full scale F, which is 0 for an alpha depth of 0 only. -/
theorem alphaScale_pos {k : Nat} (depth : 0 < k) : 0 < (2 ^ k - 1) * 2 ^ (16 - k) :=
  Nat.mul_pos (Nat.sub_pos_of_lt (Nat.one_lt_two_pow (Nat.ne_of_gt depth))) (Nat.two_pow_pos _)

/-- R135 at every alpha depth but 0: `alphaOf` rounds its quotient by adding half a step, so ties go upward. -/
theorem alphaOf_eq_iff {k v a : Nat} (depth : 0 < k) (within : a ≤ 65535) :
    alphaOf k v = a ↔
      2 * a * ((2 ^ k - 1) * 2 ^ (16 - k)) ≤ 2 * v * 65535 + (2 ^ k - 1) * 2 ^ (16 - k) ∧
      (a < 65535 → 2 * v * 65535 + (2 ^ k - 1) * 2 ^ (16 - k) < 2 * (a + 1) * ((2 ^ k - 1) * 2 ^ (16 - k))) := by
  have scale := alphaScale_pos depth
  rw [alphaOf, min_div_eq_iff (by omega) within]
  simp only [Nat.mul_left_comm _ 2, Nat.mul_assoc 2]

theorem alphaOf_le (k v : Nat) : alphaOf k v ≤ 65535 := Nat.min_le_left _ _

theorem fmtAlpha_of_noAlpha {f : Nat} (noAlpha : fmtHasAlpha f = false) : fmtAlpha f = 16 := by
  unfold fmtAlpha
  split
  case h_5 => rfl
  all_goals exact absurd noAlpha (by decide)

/-- Settles O48: `alphaOf_eq_iff` says the rounding at every depth in use, and at depth 16 that V = 65,535 stays 65,535, which is
what `fmtAlpha_of_noAlpha` leaves to show of a format without alpha. -/
theorem alphaBecomesUnorm : Obligations.AlphaBecomesUnorm := by
  refine ⟨?nearest, alphaOf_le, ?depths, ?withoutAlpha⟩
  case nearest =>
    intro k v a depth within
    exact alphaOf_eq_iff (by omega) within
  case depths => rfl
  case withoutAlpha =>
    intro f noAlpha
    have depth : fmtAlpha f = 16 := fmtAlpha_of_noAlpha noAlpha
    refine ⟨depth, ?_⟩
    rw [depth, alphaOf_eq_iff (k := 16) (by decide) (Nat.le_refl _)]
    decide

end Sys2Proof.Machine
end

section
/-! The wear sweep (R151, R164-R167, R279): what a visit credits, and the visit at which O36 fails. -/
namespace Sys2Proof.Machine

/-! ### Credits (R164, R167) -/

/-- A field put back as it reads changes nothing. -/
theorem putBits_bitsOf (w : Nat) {hi lo : Nat} (h : lo ≤ hi) : putBits w hi lo (bitsOf w hi lo) = w := by
  have width : (2 : Nat) ^ (hi + 1) = 2 ^ lo * 2 ^ (hi + 1 - lo) := by rw [← Nat.pow_add]; congr 1; omega
  have upper : w / 2 ^ (hi + 1) = w / 2 ^ lo / 2 ^ (hi + 1 - lo) := by rw [width, Nat.div_div_eq_div_mul]
  have low := Nat.mod_add_div w (2 ^ lo)
  have high := Nat.mod_add_div (w / 2 ^ lo) (2 ^ (hi + 1 - lo))
  rw [putBits, bitsOf, Nat.mod_mod, Nat.shiftRight_eq_div_pow, Nat.shiftRight_eq_div_pow, upper]
  calc w % 2 ^ lo + w / 2 ^ lo % 2 ^ (hi + 1 - lo) * 2 ^ lo + w / 2 ^ lo / 2 ^ (hi + 1 - lo) * 2 ^ (hi + 1)
      = w % 2 ^ lo + 2 ^ lo * (w / 2 ^ lo % 2 ^ (hi + 1 - lo) + 2 ^ (hi + 1 - lo) * (w / 2 ^ lo / 2 ^ (hi + 1 - lo))) := by
        rw [width, Nat.mul_add, Nat.add_assoc, Nat.mul_comm (2 ^ lo) (w / 2 ^ lo % _), Nat.mul_comm (w / 2 ^ lo / _), Nat.mul_assoc]
    _ = w := by rw [high, low]

/-- R167: an interval that divides without remainder is credited as it is, whatever the threshold. -/
theorem wearCredit_of_dvd {q d delta : Nat} (whole : q * delta % ((2 ^ d - 1) * 225000) = 0) (h : Nat) :
    wearCredit q d delta h = q * delta / ((2 ^ d - 1) * 225000) := by
  simp [wearCredit, whole]

/-- R167: a lamp that shows nothing earns no credit. -/
theorem wearCredit_dark (d delta h : Nat) : wearCredit 0 d delta h = 0 := by
  rw [wearCredit_of_dvd] <;> simp

/-- R164, R167: a wear entry with `n` added to the credit of lamp `c`. -/
def creditLamp (e c n : Nat) : Nat :=
  let w := min (bitsOf e (20 * c + 19) (20 * c) + n) 0xFFFFF
  let e2 := putBits e (20 * c + 19) (20 * c) w
  if w = 0xFFFFF then e2 ||| 2 ^ 60 else e2

/-- R164, R167: a visit credits the three lamps in turn, except in an entry that is frozen or earns no credit. -/
theorem wearEntry_sound (e : Nat) (credit : Bool) (q : Nat → Nat × Nat) (p delta v seed : Nat) :
    wearEntry e false credit q p delta v seed =
      if e.testBit 62 || !credit then e
      else (List.range 3).foldl (fun e c => creditLamp e c (wearCredit (q c).1 (q c).2 delta (wearHash p c v seed))) e := rfl

theorem creditLamps_eq (e : Nat) (n : Nat → Nat) :
    (List.range 3).foldl (fun e c => creditLamp e c (n c)) e = creditLamp (creditLamp (creditLamp e 0 (n 0)) 1 (n 1)) 2 (n 2) := rfl

/-- R167: a credit below the top to which nothing is added stands. -/
theorem creditLamp_zero {e c : Nat} (below : bitsOf e (20 * c + 19) (20 * c) < 0xFFFFF) : creditLamp e c 0 = e := by
  simp only [creditLamp, Nat.add_zero]
  rw [Nat.min_eq_left (Nat.le_of_lt below), putBits_bitsOf e (by omega), if_neg (Nat.ne_of_lt below)]

/-- R167: an entry whose credits are below the top stands where no lamp shows anything. -/
theorem wearEntry_dark {e : Nat} {q : Nat → Nat × Nat} (credit : Bool) (dark : ∀ c < 3, (q c).1 = 0)
    (below : ∀ c < 3, bitsOf e (20 * c + 19) (20 * c) < 0xFFFFF) (p delta v seed : Nat) :
    wearEntry e false credit q p delta v seed = e := by
  rw [wearEntry_sound]
  split
  · rfl
  · refine List.foldlRecOn (motive := (· = e)) _ _ rfl fun w same c mem => ?_
    have lamp := List.mem_range.1 mem
    rw [same, dark c lamp, wearCredit_dark, creditLamp_zero (below c lamp)]

/-! ### A visit (R162, R165-R167) -/

/-- R162, R166: a burst is read with the first entry of a region in it. -/
def State.readFirst (s : State) (i a : Nat) : State := if i = 0 || a % 64 = 0 then s.reportRead a 8 else s

/-- R167: an entry that keeps its value is not written, and shows no lamp that has just reached the top. -/
theorem State.wearWrite_same (s : State) (a e : Nat) :
    (if e = e then s else s.wrBytes a (leBytes 8 e)).setBitIf (e.testBit 60 && !e.testBit 60) lampFlag 11 = s := by
  rw [if_pos rfl, Bool.and_not_self]
  rfl

/-- R165-R167: a visit of an entry in no poisoned burst reads the wear and the calibration burst; where the lamps then show
nothing, it writes nothing and moves on by one entry. -/
theorem State.wearVisit_of_dark {s u : State} {n i p a cal : Nat} (entry : p = (s.tile n).pixBase + i)
    (wear : a = s.lamp.base + 8 * p) (table : cal = s.rn64 Reg.lampCalLo % 2 ^ 41)
    (read : u = (s.readFirst i a).readFirst i (cal + 8 * p))
    (active : s.lamp.active = true) (free : s.bgHeld 1 = false) (moving : s.memStill = false)
    (next : s.sweepNext s.lamp.tile s.lamp.idx = some (n, i)) (samples : s.canSample (s.tile n) = true)
    (clean : s.burstPoisoned a = false) (sound : (u.calEntry cal p).testBit 63 = false)
    (dark : ∀ c < 3, (u.lampCode (s.tile n) i c).1 = 0)
    (below : ∀ c < 3, bitsOf (ofLe (u.rdBytes a 8)) (20 * c + 19) (20 * c) < 0xFFFFF) (newest other : Option (List Byte)) :
    s.wearVisit newest other = u.sweepStep n i := by
  subst entry wear table
  unfold State.readFirst at read
  simp only [State.wearVisit, active, free, moving, next, samples, clean, Bool.not_true, Bool.or_self, Bool.false_eq_true, if_false]
  rw [← read, sound, wearEntry_dark _ dark below, State.wearWrite_same]

/-! ### A tile on a canvas that does not exist (R151, R229, R279)

A tile's entry names its canvas in two bits (R229), but O36 ranges over every state, and so over tiles whose canvas has any number.
DITHER of a canvas numbered 232 would be the word that holds STAT of MC0, which the visit's own reads can change. -/

theorem cvcDither_232 : Reg.cvcDither 232 = Reg.mcStat 0 := rfl

/-- MC0 has one rank, interleaved alone at address 0, and is entering self-refresh. A pass is under way that visits tile 1 next,
whose one pixel shows code 1 of 16 bits on canvas 232; the interval makes the credit of that code a whole number, which no
threshold of R167 changes. -/
def strayTile : State :=
  { (((State.reset.setReg (Reg.mcRanks 0) 0x80001011).setReg (Reg.mcCtrl 0) 0x43081001).setReg (Reg.memIlv 0) 0x80800001).setReg
      (Reg.mcSrStat 0) 1 with
    lamp := { active := true, delta := 65535 * 225000 }
    tiles := [(1, { cv := 232, state := .assigned, placed := true, w := 1, h := 1 })]
    canvases := [(232, { gen := .run, deliv := some { frame := 0, start := 0, bank := 0, done := some 0 } })]
    vault := { bytes := [(0x01F00000, 1)], banks := [(232, { w := 1, h := 1, bpp := 1 })] } }

/-- The state once the visit has read both bursts, which both lie at address 0. -/
def strayTileRead : State := ((strayTile.tick 0).readFirst 0 0).readFirst 0 0

/-- R151, R166: before the reads the first lamp shows code 1 of 16 bits. -/
theorem strayTile_lampCode : ∀ c < 3, strayTile.lampCode (strayTile.tile 1) 0 c = (if c = 0 then 1 else 0, 16) := by
  decide +kernel

/-- R151, R166, R279: after them, bit 4 of STAT of MC0 is set and the depth is 15, in which that code is 0. -/
theorem strayTileRead_dark : ∀ c < 3, (strayTileRead.lampCode (strayTile.tile 1) 0 c).1 = 0 := by
  decide +kernel

/-- R167: what the lamps showed before the reads earns the first one a credit of 1. -/
theorem wearEntry_strayTile (v seed : Nat) :
    wearEntry 0 false true (strayTile.lampCode (strayTile.tile 1) 0) 0 strayTile.lamp.delta v seed = 1 := by
  have first : ∀ h, wearCredit 1 16 strayTile.lamp.delta h = 1 := wearCredit_of_dvd (by decide)
  have earned : ∀ c < 3, ∀ h, wearCredit (strayTile.lampCode (strayTile.tile 1) 0 c).1
      (strayTile.lampCode (strayTile.tile 1) 0 c).2 strayTile.lamp.delta h = if c = 0 then 1 else 0 := by
    intro c lamp h
    rw [strayTile_lampCode c lamp]
    by_cases zero : c = 0
    · rw [if_pos zero, first]
    · rw [if_neg zero, wearCredit_dark]
  rw [wearEntry_sound, if_neg (by decide), creditLamps_eq, earned 0 (by decide), earned 1 (by decide), earned 2 (by decide)]
  decide

/-- The visit finds the lamps dark and writes nothing. -/
theorem strayTile_visit (newest other : Option (List Byte)) :
    (strayTile.tick 0).wearVisit newest other = strayTileRead.sweepStep 1 0 := by
  refine State.wearVisit_of_dark (p := 0) (a := 0) (cal := 0) ?_ ?_ ?_ rfl ?_ ?_ ?_ ?_ ?_ ?_ ?_ strayTileRead_dark ?_ newest other <;>
    decide +kernel

/-- Refutes O36: the fourth clause fails at `strayTile`. It computes the entry from what the lamps showed in the state before the
visit, where tile 1 earns a credit of 1. The visit reads memory first, which ends MC0's entry into self-refresh and so sets the bit
of STAT that is DROP of canvas 232, and credits nothing. -/
theorem not_sweepCreditsWear : ¬ Obligations.SweepCreditsWear := by
  intro holds
  obtain ⟨-, -, -, credits, -⟩ := holds
  obtain ⟨t, ran, -, -, worn, -⟩ := credits strayTile 0 1 0 0 0 0 (fun j => j) none none (by decide +kernel) (by decide +kernel)
    (by decide +kernel) (by decide +kernel) (by decide +kernel) (by decide +kernel) (by decide +kernel) (by decide +kernel)
    (fun _ _ => Fin.ext) (by decide +kernel) (by decide +kernel) (by decide +kernel) (by decide +kernel)
  have ended : t = (strayTileRead.sweepStep 1 0).settle := by
    rw [← strayTile_visit none none]
    exact (Host.Outcome.next.inj ran).symm
  have before : ofLe (strayTile.rdBytes 0 8) = 0 := by decide +kernel
  have after : ofLe (t.rdBytes 0 8) = 0 := by
    rw [ended]
    decide +kernel
  have place : (strayTile.tile 1).pixBase + 0 = 0 := by decide +kernel
  rw [after, before, place, wearEntry_strayTile] at worn
  exact absurd worn (by decide)

end Sys2Proof.Machine
end

section
/-! The lifetime write that waits for the checkpoint writer (R172, R173, R341), and the frame of O37 that leaves it out. -/
namespace Sys2Proof.Machine

/-- R341: the lifetime writer is enabled and free, a write is wanted, and slot 0, where it would go, has no good block. -/
def State.ltStuck (s : State) : Prop :=
  s.bit Reg.faultCtrl 11 = true ∧ s.faults.ltFrom.isSome = true ∧ s.faults.ltSlot = none ∧ s.faults.ltNewest = none ∧
    s.ltBlocks 0 = []

/-- What the lifetime writer looks at: FAULT.CTRL, its own state, and the blocks marked bad. -/
theorem State.ltStuck.congr {s u : State} (stuck : s.ltStuck) (ctrl : u.reg Reg.faultCtrl = s.reg Reg.faultCtrl)
    (faults : u.faults = s.faults) (bad : u.lamp.badBlocks = s.lamp.badBlocks) : u.ltStuck := by
  simpa only [State.ltStuck, State.ltBlocks, State.bit, State.fld, State.rn, ctrl, faults, bad] using stuck

theorem State.ltStuck.tick {s : State} (stuck : s.ltStuck) (dt : Nat) : (s.tick dt).ltStuck :=
  stuck.congr (s.tick_reg dt _) (s.tick_faults dt) (by rw [State.tick_lamp])

@[simp] theorem State.flagFault_lamp (s : State) (b : Nat) : (s.flagFault b).lamp = s.lamp := by
  unfold State.flagFault
  split <;> rfl

/-- R344: an event of the fault manager shows in its status. -/
theorem State.flagFault_shows (s : State) {b : Nat} (word : b < 32) : (s.flagFault b).bit Reg.faultStat b = true := by
  have shown := s.bit_setBit_same Reg.faultStat word
  unfold State.flagFault
  split <;> exact shown

/-- R341: the write that is wanted fails for want of a block. -/
theorem State.ltStuck.ltNext_eq {s : State} (stuck : s.ltStuck) (idle : s.lamp.ckpt = 0) (unrestored : s.lamp.restoring = false) :
    s.ltNext = ({ s with faults := { s.faults with ltFrom := none } }.clrBit Reg.faultCtrl 12).flagFault 6 := by
  obtain ⟨enabled, wanted, free, first, full⟩ := stuck
  simp [State.ltNext, State.ltWrite, enabled, wanted, idle, unrestored, free, first, full]

/-- R172, R341: where no checkpoint waits, the flash that the checkpoint writer leaves goes to that write. -/
theorem State.ltStuck.ckptNext_eq {s : State} (stuck : s.ltStuck) (idle : s.lamp.ckpt = 0) (unrestored : s.lamp.restoring = false)
    (last : s.lamp.waits = false) : s.ckptNext = s.ltNext := by
  have kept : s.ltNext.lamp = s.lamp := by rw [stuck.ltNext_eq idle unrestored, State.flagFault_lamp]; rfl
  simp [State.ckptNext, kept, last]

/-- Bits set and cleared in one register change the register homes alone. -/
theorem State.setBits_eq (s : State) (off a b c : Nat) (second : Bool) :
    ((s.setBit off a).setBitIf second off b).clrBit off c =
      { s with regs := (((s.setBit off a).setBitIf second off b).clrBit off c).regs } := by
  rw [State.setBitIf_eq]
  rfl

/-- The checkpoint writer of a state that differs from another in its registers alone goes idle. -/
theorem State.idle_eq {s t : State} (h : t = { s with regs := t.regs }) :
    { t with lamp := { t.lamp with ckpt := 0 } } = { s with regs := t.regs, lamp := { s.lamp with ckpt := 0 } } := by
  rw [h]

/-- R173: what a checkpoint that fails changes. -/
theorem State.ckptFail_eq (s : State) (noSpace : Bool) :
    s.ckptFail noSpace = { s with regs := (s.ckptFail noSpace).regs, lamp := { s.lamp with ckpt := 0 } } :=
  State.idle_eq (s.setBits_eq Reg.lampCkptStat 1 2 29 noSpace)

theorem State.ckptFail_lamp (s : State) (noSpace : Bool) : (s.ckptFail noSpace).lamp = { s.lamp with ckpt := 0 } :=
  congrArg (·.lamp) (s.ckptFail_eq noSpace)

theorem State.ckptFail_faults (s : State) (noSpace : Bool) : (s.ckptFail noSpace).faults = s.faults :=
  congrArg (·.faults) (s.ckptFail_eq noSpace)

theorem State.ckptFail_regs (s : State) (noSpace : Bool) : (s.ckptFail noSpace).regs =
    (((s.setBit Reg.lampCkptStat 1).setBitIf noSpace Reg.lampCkptStat 2).clrBit Reg.lampCkptStat 29).regs := rfl

/-- R173: a checkpoint that fails shows it in CKPT_STAT alone. -/
theorem State.reg_ckptFail_other (s : State) (noSpace : Bool) {off : Nat} (other : off ≠ Reg.lampCkptStat) :
    (s.ckptFail noSpace).reg off = s.reg off := by
  rw [State.reg, State.ckptFail_regs, ← State.reg, State.reg_clrBit_other _ _ other]
  cases noSpace
  case false => exact State.reg_setBit_other _ _ other
  case true => exact (State.reg_setBit_other _ _ other).trans (State.reg_setBit_other _ _ other)

/-- R173: a record that does not read back ends the checkpoint, and its slot holds no valid copy. -/
theorem State.ckptReadback_fails (s : State) (reading : s.lamp.ckpt = 3) :
    ∃ u : State, s.ckptReadback false = u.ckptNext ∧ u.reg Reg.faultCtrl = s.reg Reg.faultCtrl ∧ u.faults = s.faults ∧
      u.lamp = { s.lamp with ckpt := 0, copies := mset s.lamp.copies s.lamp.slot none none } := by
  refine ⟨({ s with lamp := { s.lamp with copies := mset s.lamp.copies s.lamp.slot none none } } : State).ckptFail false, ?_,
    State.reg_ckptFail_other (off := Reg.faultCtrl) _ _ (by decide), State.ckptFail_faults _ _, State.ckptFail_lamp _ _⟩
  rw [State.ckptReadback, if_neg (fun other => other reading), if_neg (by decide)]

/-- R173, R341: a checkpoint whose record does not read back ends; the write that waited for it fails in turn and shows
LT_FAIL. -/
theorem State.ltStuck.readback_shows {s : State} (stuck : s.ltStuck) (reading : s.lamp.ckpt = 3)
    (unrestored : s.lamp.restoring = false) (last : s.lamp.waits = false) :
    (s.ckptReadback false).bit Reg.faultStat 6 = true := by
  obtain ⟨u, ended, ctrl, faults, lamp⟩ := s.ckptReadback_fails reading
  have still : u.ltStuck := stuck.congr ctrl faults (by rw [lamp])
  have idle : u.lamp.ckpt = 0 := by rw [lamp]
  have quiet : u.lamp.restoring = false := by rwa [lamp]
  rw [ended, still.ckptNext_eq idle quiet (by rwa [lamp]), still.ltNext_eq idle quiet]
  exact State.flagFault_shows _ (by decide)

/-- A checkpoint's record is being read back; a lifetime write waits for the flash, and the blocks of its slot are bad. -/
def stuckBehindCheckpoint : State :=
  { State.reset.setBit Reg.faultCtrl 11 with
    lamp := { ckpt := 3, badBlocks := [0, 1, 2, 3] }
    faults := { ltFrom := some 0 } }

theorem stuckBehindCheckpoint_ltStuck : stuckBehindCheckpoint.ltStuck := by
  refine ⟨?_, ?_, ?_, ?_, ?_⟩ <;> decide +kernel

/-- Refutes O37: the ninth clause fails at `stuckBehindCheckpoint`. It says that a record that does not read back changes no
register but CKPT_STAT; but the flash then goes to the lifetime write that waited (R341), which finds no good block and sets
LT_FAIL in FAULT.STAT. -/
theorem not_checkpointsSaveAndRestoreWear : ¬ Obligations.CheckpointsSaveAndRestoreWear := by
  intro holds
  obtain ⟨-, -, -, -, -, -, -, -, unread, -⟩ := holds
  obtain ⟨t, ran, -, -, -, -, -, regs, -⟩ := unread stuckBehindCheckpoint 0 rfl rfl
  have ended : t = ((stuckBehindCheckpoint.tick 0).ckptReadback false).settle := (Host.Outcome.next.inj ran).symm
  have before : stuckBehindCheckpoint.bit Reg.faultStat 6 = false := by decide +kernel
  have after : t.bit Reg.faultStat 6 = true := by
    rw [ended, State.settle_bit]
    exact (stuckBehindCheckpoint_ltStuck.tick 0).readback_shows rfl rfl rfl
  have same : t.bit Reg.faultStat 6 = stuckBehindCheckpoint.bit Reg.faultStat 6 := by
    rw [State.bit, State.bit, State.rn, State.rn, regs Reg.faultStat (by decide)]
  rw [same, before] at after
  exact absurd after (by decide)

end Sys2Proof.Machine
end

section
/-! The frame vault's bytes and maps (R177, R178): what reads after a run of bytes is written, and a granule's move. -/
namespace Sys2Proof.Machine

/-! ### Reading after a run of bytes -/

/-- A key that the first table does not list reads in the second. -/
theorem mget_append_right {α : Type} {m : Sparse α} {k : Nat} (absent : ∀ x ∈ m, x.1 ≠ k) (r : Sparse α) (d : α) :
    mget (m ++ r) k d = mget r k d := by
  induction m with
  | nil => rfl
  | cons x m ih =>
    rw [List.forall_mem_cons] at absent
    rw [List.cons_append, mget, if_neg absent.1, ih absent.2]

/-- A key that no entry lists reads the default. -/
theorem mget_absent {α : Type} {m : Sparse α} {k : Nat} (absent : ∀ x ∈ m, x.1 ≠ k) (d : α) : mget m k d = d := by
  simpa [mget] using mget_append_right absent [] d

/-- A key that the second table does not list reads in the first. -/
theorem mget_append_left {α : Type} (m : Sparse α) {r : Sparse α} {k : Nat} (absent : ∀ x ∈ r, x.1 ≠ k) (d : α) :
    mget (m ++ r) k d = mget m k d := by
  induction m with
  | nil => exact mget_absent absent d
  | cons x m ih => simp only [List.cons_append, mget, ih]

/-- Leaving out entries under other keys changes no read of a key. -/
theorem mget_filter {α : Type} (m : Sparse α) {p : Nat × α → Bool} {k : Nat} (kept : ∀ x, x.1 = k → p x = true) (d : α) :
    mget (m.filter p) k d = mget m k d := by
  induction m with
  | nil => rfl
  | cons x m ih =>
    by_cases here : x.1 = k
    · rw [List.filter_cons_of_pos (kept x here), mget, mget, if_pos here, if_pos here]
    · by_cases stays : p x = true
      · rw [List.filter_cons_of_pos stays, mget, mget, if_neg here, if_neg here, ih]
      · rw [List.filter_cons_of_neg stays, mget, if_neg here, ih]

/-- The entries that a run of bytes from address `a` up leaves in a table: a byte of 0 is unlisted. -/
def byteRun (l : List Byte) (a : Nat) : List Host.Cell := (l.zipIdx a).filterMap fun x => if x.1 = 0 then none else some (x.2, x.1)

theorem mrun_eq (m : List Host.Cell) (a : Nat) (l : List Byte) :
    mrun m a l = m.filter (fun c => c.1 < a) ++ byteRun l a ++ m.filter (fun c => a + l.length ≤ c.1) := rfl

theorem byteRun_cons (b : Byte) (r : List Byte) (a : Nat) :
    byteRun (b :: r) a = if b = 0 then byteRun r (a + 1) else (a, b) :: byteRun r (a + 1) := by
  unfold byteRun
  rw [List.zipIdx_cons, List.filterMap_cons]
  by_cases zero : b = 0
  · simp only [if_pos zero]
  · simp only [if_neg zero]

/-- A run lists no address below its first and none past its last. -/
theorem byteRun_absent {l : List Byte} {a k : Nat} (outside : k < a ∨ a + l.length ≤ k) : ∀ x ∈ byteRun l a, x.1 ≠ k := by
  intro x listed
  have place := run_mem listed
  omega

/-- A run reads as its bytes. -/
theorem mget_byteRun (l : List Byte) (a : Nat) {i : Nat} (within : i < l.length) : mget (byteRun l a) (a + i) 0 = l[i] := by
  induction l generalizing a i with
  | nil => exact absurd within (Nat.not_lt_zero i)
  | cons b r ih =>
    rw [byteRun_cons]
    cases i with
    | zero =>
      by_cases zero : b = 0
      · rw [if_pos zero]
        exact (mget_absent (byteRun_absent (.inl (Nat.lt_succ_self a))) 0).trans zero.symm
      · rw [if_neg zero]
        exact if_pos rfl
    | succ i =>
      have later := ih (a + 1) (i := i) (by simpa using within)
      rw [Nat.add_right_comm] at later
      by_cases zero : b = 0
      · rw [if_pos zero]
        exact later
      · rw [if_neg zero]
        exact (if_neg (by omega)).trans later

/-- What is kept of a table beside a run lists no address of the run. -/
theorem filter_absent {m : List Host.Cell} {p : Host.Cell → Bool} {k : Nat} (out : ∀ b, p (k, b) = false) :
    ∀ x ∈ m.filter p, x.1 ≠ k := by
  rintro ⟨j, b⟩ listed rfl
  exact absurd ((out b).symm.trans (List.mem_filter.1 listed).2) (by decide)

/-- A run that was written reads back. -/
theorem mget_mrun_inside (m : List Host.Cell) (a : Nat) (l : List Byte) {i : Nat} (within : i < l.length) :
    mget (mrun m a l) (a + i) 0 = l[i] := by
  rw [mrun_eq, mget_append_left _ (filter_absent fun _ => decide_eq_false (by simp only; omega)),
    mget_append_right (filter_absent fun _ => decide_eq_false (by simp only; omega)), mget_byteRun l a within]

/-- A run that is written leaves every byte below and above it alone. -/
theorem mget_mrun_outside (m : List Host.Cell) (a : Nat) (l : List Byte) {k : Nat} (outside : k < a ∨ a + l.length ≤ k) :
    mget (mrun m a l) k 0 = mget m k 0 := by
  rw [mrun_eq]
  rcases outside with below | above
  · rw [mget_append_left _ (filter_absent fun _ => decide_eq_false (by simp only; omega)),
      mget_append_left _ (byteRun_absent (.inl below)), mget_filter _ (fun x here => by simp [here, below])]
  · rw [List.append_assoc, mget_append_right (filter_absent fun _ => decide_eq_false (by simp only; omega)),
      mget_append_right (byteRun_absent (.inr above)), mget_filter _ (fun x here => by simp [here, above])]

/-! ### A granule's move (R178) -/

/-- R178: a granule that was copied reads where it now lies as it read before. -/
theorem State.vb_copyGranule_inside (s : State) (g n : Nat) {i : Nat} (within : i < 65536) :
    (s.copyGranule g n).vb (granAddr n + i) = s.vb (granAddr g + i) := by
  refine (mget_mrun_inside _ _ _ (by simpa using within)).trans ?_
  simp

/-- R178: a granule's copy changes no byte beyond the granule that it fills. -/
theorem State.vb_copyGranule_outside (s : State) (g n : Nat) {a : Nat} (outside : a < granAddr n ∨ granAddr n + 65536 ≤ a) :
    (s.copyGranule g n).vb a = s.vb a :=
  mget_mrun_outside _ _ _ (by simpa using outside)

/-- R178: the map of a bank with one granule in place of another. -/
def Bank.moveGranule (b : Bank) (bk g n : Nat) : Bank :=
  if bk = 1 then { b with granB := b.granB.map fun x => if x = g then n else x }
  else { b with granA := b.granA.map fun x => if x = g then n else x }

theorem Bank.map_moveGranule (b : Bank) (bk g n : Nat) :
    (if bk = 1 then (b.moveGranule bk g n).granB else (b.moveGranule bk g n).granA) =
      (if bk = 1 then b.granB else b.granA).map fun x => if x = g then n else x := by
  unfold Bank.moveGranule
  split <;> rfl

/-- R178: a move strikes the granule off the list, shows the end of the list, switches the map and copies the bytes. -/
theorem State.relocate_eq {s : State} {cv bk g n : Nat} (running : s.bgHeld 4 = false)
    (next : s.vault.moves.find? (fun m => !s.bankWritten m.1 m.2.1) = some (cv, bk, g)) (room : s.freeGranules.find? (· < g) = some n) :
    s.relocate = ((({ s with vault := { s.vault with moves := s.vault.moves.filter (· ≠ (cv, bk, g)) } } : State).setBitIf
      (s.vault.moves.filter (· ≠ (cv, bk, g))).isEmpty Reg.vaultStat 5).setBank cv ((s.bank cv).moveGranule bk g n)).copyGranule g n := by
  simp only [State.relocate, running, next, room, Bank.moveGranule]
  rfl

/-! ### A bank of the vault -/

@[simp] theorem State.bank_setBank_same (s : State) (cv : Nat) (b : Bank) : (s.setBank cv b).bank cv = b := mget_mset_same ..
@[simp] theorem State.setBank_bytes (s : State) (cv : Nat) (b : Bank) : (s.setBank cv b).vault.bytes = s.vault.bytes := rfl
@[simp] theorem State.setBank_moves (s : State) (cv : Nat) (b : Bank) : (s.setBank cv b).vault.moves = s.vault.moves := rfl
@[simp] theorem State.reg_setBank (s : State) (cv off : Nat) (b : Bank) : (s.setBank cv b).reg off = s.reg off := rfl
@[simp] theorem State.bank_copyGranule (s : State) (g n cv : Nat) : (s.copyGranule g n).bank cv = s.bank cv := rfl
@[simp] theorem State.copyGranule_moves (s : State) (g n : Nat) : (s.copyGranule g n).vault.moves = s.vault.moves := rfl
@[simp] theorem State.copyGranule_dram (s : State) (g n : Nat) : (s.copyGranule g n).dram = s.dram := rfl
@[simp] theorem State.reg_copyGranule (s : State) (g n off : Nat) : (s.copyGranule g n).reg off = s.reg off := rfl
@[simp] theorem State.settle_bank (s : State) (cv : Nat) : s.settle.bank cv = s.bank cv := rfl

theorem State.reg_setBitIf_other (s : State) (c : Bool) {a b : Nat} (k : Nat) (h : a ≠ b) : (s.setBitIf c b k).reg a = s.reg a := by
  cases c
  case false => rfl
  case true => exact s.reg_setBit_other k h

@[simp] theorem State.tick_bankWritten (s : State) (dt cv bk : Nat) : (s.tick dt).bankWritten cv bk = s.bankWritten cv bk := by
  simp only [State.bankWritten, State.tick_cv]

@[simp] theorem State.tick_freeGranules (s : State) (dt : Nat) : (s.tick dt).freeGranules = s.freeGranules := by
  simp only [State.freeGranules, State.granulesUsed, State.tick_vault]

@[simp] theorem State.tick_vb (s : State) (dt a : Nat) : (s.tick dt).vb a = s.vb a := by simp only [State.vb, State.tick_vault]
@[simp] theorem State.settle_vb (s : State) (a : Nat) : s.settle.vb a = s.vb a := rfl
@[simp] theorem State.tick_bank (s : State) (dt cv : Nat) : (s.tick dt).bank cv = s.bank cv := by
  simp only [State.bank, State.tick_vault]

/-- The frame of a command in its registers: time passes before it, and the outputs are brought up to date after it. -/
theorem SameRegs.of_access {s t : State} {dt : Nat} {offs : List Nat} (h : SameRegs (s.tick dt) t offs) : SameRegs s t.settle offs := by
  simpa [SameRegs] using h

theorem SameRegs.of_regs {s t : State} (offs : List Nat) (regs : t.regs = s.regs) : SameRegs s t offs :=
  fun _ _ => by rw [State.reg, State.reg, regs]

/-- R178: what a command that moves a granule leaves. -/
theorem exec_granuleRelocation {s : State} {dt cv bk g n : Nat} (running : (s.tick dt).bgHeld 4 = false)
    (next : s.vault.moves.find? (fun m => !s.bankWritten m.1 m.2.1) = some (cv, bk, g)) (room : s.freeGranules.find? (· < g) = some n) :
    ∃ t, exec (.granuleRelocation dt) s = .next t ∧
      (∀ i, i < 65536 → t.vb (granAddr n + i) = s.vb (granAddr g + i)) ∧
      (∀ a, a < granAddr n ∨ granAddr n + 65536 ≤ a → t.vb a = s.vb a) ∧
      (if bk = 1 then (t.bank cv).granB else (t.bank cv).granA) =
        (if bk = 1 then (s.bank cv).granB else (s.bank cv).granA).map (fun x => if x = g then n else x) ∧
      t.vault.moves = s.vault.moves.filter (· ≠ (cv, bk, g)) ∧ t.dram = s.dram ∧ SameRegs s t [Reg.vaultStat] := by
  have moved := State.relocate_eq (s := s.tick dt) running (by simpa using next) (by simpa using room)
  refine ⟨_, rfl, ?_⟩
  rw [moved]
  refine ⟨fun i within => ?copied, fun a outside => ?kept, ?map, ?moves, ?dram, ?regs⟩
  case copied =>
    rw [State.settle_vb, State.vb_copyGranule_inside _ g n within]
    simp [State.vb]
  case kept =>
    rw [State.settle_vb, State.vb_copyGranule_outside _ g n outside]
    simp [State.vb]
  case map =>
    rw [State.settle_bank, State.bank_copyGranule, State.bank_setBank_same, State.tick_bank, Bank.map_moveGranule]
  case moves => simp
  case dram => simp
  case regs =>
    intro off other
    rw [State.settle_reg, State.reg_copyGranule, State.reg_setBank]
    exact (State.reg_setBitIf_other _ _ _ (by simpa using other)).trans (s.tick_reg dt off)

end Sys2Proof.Machine
end

section
/-! Errors in the frame vault (R182, R327-R330): what the report of one leaves alone, and a section that is retired. -/
namespace Sys2Proof.Machine

/-! ### Bits of VAULT.STAT -/

/-- Setting a bit of a number keeps every bit that is set. -/
theorem testBit_putBits_one {w k : Nat} (b : Nat) (set : w.testBit k = true) : (putBits w b b 1).testBit k = true := by
  have parts : putBits w b b 1 = 2 ^ b * (2 * (w >>> (b + 1)) + 1) + w % 2 ^ b := by
    have upper : w >>> (b + 1) * 2 ^ (b + 1) = 2 ^ b * (2 * (w >>> (b + 1))) := by
      rw [Nat.pow_succ, Nat.mul_comm, Nat.mul_assoc]
    rw [putBits, upper, Nat.add_sub_cancel_left, Nat.mul_add]
    omega
  rw [parts, Nat.testBit_two_pow_mul_add _ (Nat.mod_lt _ (Nat.two_pow_pos b))]
  by_cases below : k < b
  · rw [if_pos below, Nat.testBit_mod_two_pow, set, decide_eq_true below, Bool.and_self]
  · rw [if_neg below]
    obtain ⟨i, rfl⟩ := Nat.exists_eq_add_of_le (Nat.not_lt.1 below)
    rw [Nat.add_sub_cancel_left]
    cases i with
    | zero => simp
    | succ i =>
      rw [Nat.testBit_add_one, Nat.mul_add_div (by decide), show 1 / 2 = 0 from rfl, Nat.add_zero, Nat.testBit_shiftRight,
        Nat.add_right_comm]
      exact set

theorem State.bit_setBit_of_bit {s : State} {off k : Nat} (set : s.bit off k = true) (o b : Nat) :
    (s.setBit o b).bit off k = true := by
  by_cases same : off = o
  · subst same
    have word : k < 32 := by
      refine Nat.lt_of_not_le fun beyond => ?_
      have clear := Nat.testBit_lt_two_pow (Nat.lt_of_lt_of_le (s.reg off).isLt (Nat.pow_le_pow_right (by decide) beyond))
      exact absurd (set.symm.trans clear) (by decide)
    have kept : (putBits (s.reg off).toNat b b 1).testBit k = true := testBit_putBits_one b set
    rw [State.bit, State.rn, State.setBit, State.setFld, State.reg_setReg_same, wput, BitVec.toNat_ofNat, Nat.testBit_mod_two_pow,
      kept, decide_eq_true word, Bool.and_self]
  · rw [State.bit, State.rn, State.reg_setBit_other _ _ same]
    exact set

/-! ### What a report leaves alone -/

/-- R182, R327: what the report of an error leaves as it is: DRAM, the vault, the resources that are retired, lost and served, and
the events that VAULT.STAT shows. -/
structure KeepsFrames (s t : State) : Prop where
  dram : t.dram = s.dram
  vault : t.vault = s.vault
  retired : t.faults.retired = s.faults.retired
  lost : t.faults.lost = s.faults.lost
  serving : t.faults.serving = s.faults.serving
  shown : ∀ k, s.bit Reg.vaultStat k = true → t.bit Reg.vaultStat k = true

theorem KeepsFrames.refl (s : State) : KeepsFrames s s := ⟨rfl, rfl, rfl, rfl, rfl, fun _ shown => shown⟩

theorem KeepsFrames.trans {s t u : State} (h : KeepsFrames s t) (k : KeepsFrames t u) : KeepsFrames s u :=
  ⟨k.dram.trans h.dram, k.vault.trans h.vault, k.retired.trans h.retired, k.lost.trans h.lost, k.serving.trans h.serving,
    fun b shown => k.shown b (h.shown b shown)⟩

theorem KeepsFrames.setBit (s : State) (off b : Nat) : KeepsFrames s (s.setBit off b) :=
  ⟨rfl, rfl, rfl, rfl, rfl, fun _ shown => State.bit_setBit_of_bit shown off b⟩

/-- A command's part that writes registers but VAULT.STAT. -/
theorem KeepsFrames.of_reg {s t : State} (dram : t.dram = s.dram) (vault : t.vault = s.vault)
    (retired : t.faults.retired = s.faults.retired) (lost : t.faults.lost = s.faults.lost)
    (serving : t.faults.serving = s.faults.serving) (stat : t.reg Reg.vaultStat = s.reg Reg.vaultStat) : KeepsFrames s t :=
  ⟨dram, vault, retired, lost, serving, fun _ shown => by rwa [State.bit, State.rn, stat]⟩

theorem KeepsFrames.incr (s : State) {off : Nat} (other : Reg.vaultStat ≠ off) : KeepsFrames s (s.incr off) :=
  .of_reg (by simp) (by simp) (by simp) (by simp) (by simp) (s.reg_incr_other other)

theorem KeepsFrames.setFld (s : State) {off : Nat} (hi lo x : Nat) (other : Reg.vaultStat ≠ off) : KeepsFrames s (s.setFld off hi lo x) :=
  .of_reg rfl rfl rfl rfl rfl (s.reg_setFld_other hi lo x other)

theorem KeepsFrames.setPrt (s : State) (p : Nat) (pt : Port) : KeepsFrames s (s.setPrt p pt) := .of_reg rfl rfl rfl rfl rfl rfl
theorem KeepsFrames.setCv (s : State) (n : Nat) (c : Canvas) : KeepsFrames s (s.setCv n c) := .of_reg rfl rfl rfl rfl rfl rfl

/-- What the fault manager keeps beside the resources that are retired, lost and served. -/
theorem KeepsFrames.setFaults (s : State) {f : Faults} (retired : f.retired = s.faults.retired) (lost : f.lost = s.faults.lost)
    (serving : f.serving = s.faults.serving) : KeepsFrames s { s with faults := f } :=
  .of_reg rfl rfl retired lost serving rfl

theorem KeepsFrames.setLife (s : State) (w v : Nat) : KeepsFrames s (s.setLife w v) := KeepsFrames.setFaults s rfl rfl rfl
theorem KeepsFrames.lifeUp (s : State) (w : Nat) : KeepsFrames s (s.lifeUp w) := KeepsFrames.setLife s w _
theorem KeepsFrames.lifeAdd64 (s : State) (w n : Nat) : KeepsFrames s (s.lifeAdd64 w n) :=
  (KeepsFrames.setLife s w _).trans (KeepsFrames.setLife _ (w + 1) _)

theorem KeepsFrames.flagFault (s : State) (b : Nat) : KeepsFrames s (s.flagFault b) := by
  unfold State.flagFault
  split
  · exact (KeepsFrames.setBit s _ _).trans (KeepsFrames.setFaults _ rfl rfl rfl)
  · exact KeepsFrames.setBit s _ _

theorem KeepsFrames.journal (s : State) (cls inst kind count detail : Nat) :
    KeepsFrames s (s.journal cls inst kind count detail) := by
  dsimp only [State.journal]
  split
  · refine KeepsFrames.trans (KeepsFrames.trans ?_ (KeepsFrames.setFld _ 31 24 _ (by decide))) (KeepsFrames.flagFault _ 9)
    exact KeepsFrames.setFaults s rfl rfl rfl
  · refine KeepsFrames.trans ?_ (KeepsFrames.setFld _ 31 24 _ (by decide))
    exact KeepsFrames.setFaults s rfl rfl rfl

theorem KeepsFrames.ltWanted (s : State) : KeepsFrames s s.ltWanted := by
  unfold State.ltWanted
  split
  · exact KeepsFrames.setFaults s rfl rfl rfl
  · exact KeepsFrames.refl s

theorem KeepsFrames.spareLow (s : State) (cls : Nat) : KeepsFrames s (s.spareLow cls) := by
  dsimp only [State.spareLow]
  split
  · exact KeepsFrames.flagFault s 4
  · exact (KeepsFrames.flagFault s 4).trans (KeepsFrames.setFaults _ rfl rfl rfl)

theorem KeepsFrames.countDegraded (s : State) (cv frame : Nat) : KeepsFrames s (s.countDegraded cv frame) := by
  dsimp only [State.countDegraded]
  split
  · exact KeepsFrames.refl s
  · exact (((KeepsFrames.setCv s _ _).trans (KeepsFrames.incr _ (by decide))).trans (KeepsFrames.lifeAdd64 _ _ _)).trans
      (KeepsFrames.journal _ _ _ _ _ _)

/-- R13, R182: a packet that is withheld leaves its queue; what the vault holds stands. -/
theorem KeepsFrames.withholdPix (s : State) (p : Nat) (x : Pix) : KeepsFrames s (s.withholdPix p x) := by
  have queued : ∀ pt, KeepsFrames s ((s.setPrt p pt).setBit (Reg.scnStat x.cv) 4) := fun pt =>
    (KeepsFrames.setPrt s p pt).trans (KeepsFrames.setBit _ _ _)
  dsimp only [State.withholdPix]
  split
  · exact ((queued _).trans (KeepsFrames.setCv _ _ _)).trans (KeepsFrames.countDegraded _ _ _)
  · exact queued _

theorem KeepsFrames.withhold (s : State) (p word : Nat) : KeepsFrames s (s.withhold p word) := by
  dsimp only [State.withhold]
  split
  · exact KeepsFrames.withholdPix s p _
  · exact KeepsFrames.refl s

theorem KeepsFrames.setPoison (s : State) (a : Nat) (p : Bool) : KeepsFrames s (s.setPoison a p) := by
  unfold State.setPoison
  split
  · exact KeepsFrames.refl s
  · exact .of_reg rfl rfl rfl rfl rfl rfl

/-- R182: capture marks a burst of the capture buffer as poisoned. -/
theorem KeepsFrames.captBad (s : State) (cv word : Nat) : KeepsFrames s (s.captBad cv word) := by
  unfold State.captBad
  split
  · split
    · dsimp only
      split
      · exact KeepsFrames.setPoison s _ _
      · exact KeepsFrames.refl s
    · exact KeepsFrames.refl s
  · exact KeepsFrames.refl s

theorem KeepsFrames.each {f : Nat → State → State} (step : ∀ k t, KeepsFrames t (f k t)) (l : List Nat) (s : State) :
    KeepsFrames s (s.each l f) :=
  List.foldlRecOn (motive := KeepsFrames s) _ _ (KeepsFrames.refl s) fun t kept k _ => kept.trans (step k t)

/-! ### An event counted (R327 steps 1 and 2) -/

/-- R327: the state once an event of a section has been counted, its count now `new`, and reported. -/
def State.sectionCounted (s : State) (sec new detail : Nat) : State :=
  let s1 := { s with faults := { s.faults with counts := mset s.faults.counts (resKey 2 sec) 0 new } }.flagFault 0
  if (s.resCount (resKey 2 sec) = 0 && new = 1) || s.bit Reg.faultCtrl 10 then s1.journal 2 sec 0 new detail else s1

theorem KeepsFrames.sectionCounted (s : State) (sec new detail : Nat) : KeepsFrames s (s.sectionCounted sec new detail) := by
  have flagged := (KeepsFrames.setFaults s (f := { s.faults with counts := mset s.faults.counts (resKey 2 sec) 0 new }) rfl rfl rfl).trans
    (KeepsFrames.flagFault _ 0)
  dsimp only [State.sectionCounted]
  split
  · exact flagged.trans (KeepsFrames.journal _ _ _ _ _ _)
  · exact flagged

theorem State.flagFault_counts (s : State) (b : Nat) : (s.flagFault b).faults.counts = s.faults.counts := by
  unfold State.flagFault
  split <;> rfl

/-- R339: an entry in the journal is no event of a resource. -/
theorem State.journal_counts (s : State) (cls inst kind count detail : Nat) :
    (s.journal cls inst kind count detail).faults.counts = s.faults.counts := by
  dsimp only [State.journal]
  split
  · rw [State.flagFault_counts, State.setFld_faults]
  · rw [State.setFld_faults]

theorem State.resCount_sectionCounted (s : State) (sec new detail : Nat) :
    (s.sectionCounted sec new detail).resCount (resKey 2 sec) = new := by
  have counted : (s.sectionCounted sec new detail).faults.counts = mset s.faults.counts (resKey 2 sec) 0 new := by
    dsimp only [State.sectionCounted]
    split
    · rw [State.journal_counts, State.flagFault_counts]
    · rw [State.flagFault_counts]
  rw [State.resCount, counted, mget_mset_same]

/-- R327, R339: an event of a section shows in FAULT.STAT and may move the journal's write pointer. -/
theorem State.reg_sectionCounted (s : State) (sec new detail : Nat) {off : Nat} (stat : off ≠ Reg.faultStat)
    (index : off ≠ Reg.faultJrnlIdx) : (s.sectionCounted sec new detail).reg off = s.reg off := by
  dsimp only [State.sectionCounted]
  split
  · exact (State.reg_journal_other _ _ _ _ _ _ index stat).trans (State.reg_flagFault_other _ 0 stat)
  · exact State.reg_flagFault_other _ 0 stat

/-- R327: an event of a section in service is counted and, where it crosses the budget, retires the section. -/
theorem State.faultEvent_section {s : State} {sec : Nat} (there : sec < 128) (inService : s.isRetired (resKey 2 sec) = false)
    (found : s.isLost (resKey 2 sec) = false) (crossing : Bool) (detail : Nat) {new : Nat}
    (counts : new = min 65535 (if crossing then max (s.resCount (resKey 2 sec)) (s.resBudget 2 + 1) else s.resCount (resKey 2 sec) + 1)) :
    s.faultEvent 2 sec crossing detail =
      if crossing || s.resBudget 2 < new then ((s.sectionCounted sec new detail).retire 2 sec detail).lifeUp 14
      else s.sectionCounted sec new detail := by
  have kept := KeepsFrames.sectionCounted s sec new detail
  have notLost : (s.sectionCounted sec new detail).isLost (resKey 2 sec) = false := by rw [State.isLost, kept.lost]; exact found
  have notRetired : (s.sectionCounted sec new detail).isRetired (resKey 2 sec) = false := by
    rw [State.isRetired, kept.retired]; exact inService
  have unfolded : s.faultEvent 2 sec crossing detail =
      if resInstances 2 ≤ sec then s
      else if (s.sectionCounted sec new detail).isLost (resKey 2 sec) then s.sectionCounted sec new detail
      else if !(s.sectionCounted sec new detail).isRetired (resKey 2 sec) then
        if crossing || s.resBudget 2 < new then ((s.sectionCounted sec new detail).retire 2 sec detail).lifeUp 14
        else s.sectionCounted sec new detail
      else if 2 = 2 && (crossing || (s.resCount (resKey 2 sec) ≤ s.resBudget 2 && s.resBudget 2 < new)) then
        (s.sectionCounted sec new detail).lose 2 sec detail
      else s.sectionCounted sec new detail := by
    rw [counts]
    rfl
  rw [unfolded, if_neg (show ¬resInstances 2 ≤ sec from Nat.not_le.2 there), if_neg (by rw [notLost]; decide),
    if_pos (by rw [notRetired]; rfl)]

/-- R327: a correctable error that leaves the count of its section within the budget is counted, and nothing more. -/
theorem State.faultEvent_within {s : State} {sec : Nat} (there : sec < 128) (inService : s.isRetired (resKey 2 sec) = false)
    (found : s.isLost (resKey 2 sec) = false) (budget : s.resCount (resKey 2 sec) + 1 ≤ min 65535 (s.resBudget 2)) (detail : Nat) :
    s.faultEvent 2 sec false detail = s.sectionCounted sec (s.resCount (resKey 2 sec) + 1) detail := by
  obtain ⟨most, within⟩ := Nat.le_min.1 budget
  rw [State.faultEvent_section there inService found false detail (Nat.min_eq_right most).symm, Bool.false_or,
    decide_eq_false (Nat.not_lt.2 within)]
  rfl

/-- R327: an uncorrectable error retires its section. -/
theorem State.faultEvent_crosses {s : State} {sec : Nat} (there : sec < 128) (inService : s.isRetired (resKey 2 sec) = false)
    (found : s.isLost (resKey 2 sec) = false) (detail : Nat) :
    ∃ new, s.faultEvent 2 sec true detail = ((s.sectionCounted sec new detail).retire 2 sec detail).lifeUp 14 :=
  ⟨_, State.faultEvent_section there inService found true detail rfl⟩

/-- R302: with no resource lost no channel has stopped for good. -/
theorem State.haltLost_of_whole {s : State} (whole : s.faults.lost = []) : s.haltLost = s := by
  have running : (List.range 64).filter (fun c => s.dmaLost c) = [] :=
    List.filter_eq_nil_iff.2 fun c _ => by simp [State.dmaLost, State.isLost, whole]
  rw [State.haltLost, running]
  rfl

/-! ### A section retired (R182, R327 steps 3 and 4) -/

/-- R327 step 3: the state once a section has been noted as retired. -/
def State.retirementNoted (s : State) (sec detail : Nat) : State :=
  (({ s with faults := { s.faults with retired := s.faults.retired ++ [resKey 2 sec] } }.flagFault 1).journal 2 sec 1
    (s.resCount (resKey 2 sec)) detail).ltWanted

/-- R182: where no spare serves, a section that is retired takes its own spare row group. -/
theorem State.retire_section {s : State} (unserved : s.faults.serving = []) (sec detail : Nat) :
    s.retire 2 sec detail = (s.retirementNoted sec detail).bringIn 2 sec sec detail := by
  have idle : s.isServing 2 sec = false := by simp [State.isServing, State.servedBy, unserved]
  have unfolded : s.retire 2 sec detail = if s.isServing 2 sec then (s.retirementNoted sec detail).lose 2 sec detail
      else (s.retirementNoted sec detail).bringIn 2 sec sec detail := rfl
  rw [unfolded, idle]
  rfl

theorem KeepsFrames.retirementNoted (s : State) (sec detail : Nat) :
    KeepsFrames { s with faults := { s.faults with retired := s.faults.retired ++ [resKey 2 sec] } } (s.retirementNoted sec detail) :=
  ((KeepsFrames.flagFault _ 1).trans (KeepsFrames.journal _ _ _ _ _ _)).trans (KeepsFrames.ltWanted _)

/-- R182, R327 step 4: a spare row group that comes in is shown and reported. -/
theorem KeepsFrames.bringIn_section (s : State) (sec detail : Nat) :
    KeepsFrames (s.engage 2 sec sec) (s.bringIn 2 sec sec detail) :=
  (((KeepsFrames.flagFault _ 2).trans (KeepsFrames.journal _ _ _ _ _ _)).trans (KeepsFrames.spareLow _ 2)).trans
    (KeepsFrames.ltWanted _)

/-- R182, R327: what the retirement of a section does to the vault, to what the fault manager knows, and to VAULT.STAT. -/
theorem State.retire_section_outcome {s : State} (unserved : s.faults.serving = []) (sec detail : Nat) :
    (s.retire 2 sec detail).dram = s.dram ∧
    (s.retire 2 sec detail).vault = { s.vault with used := s.vault.used ++ [sec], copying := s.vault.copying ++ [sec] } ∧
    (s.retire 2 sec detail).faults.retired = s.faults.retired ++ [resKey 2 sec] ∧
    (s.retire 2 sec detail).faults.lost = s.faults.lost ∧
    (s.retire 2 sec detail).bit Reg.vaultStat 2 = true ∧
    ∀ k, s.bit Reg.vaultStat k = true → (s.retire 2 sec detail).bit Reg.vaultStat k = true := by
  rw [State.retire_section unserved]
  have noted := KeepsFrames.retirementNoted s sec detail
  have engaged := KeepsFrames.bringIn_section (s.retirementNoted sec detail) sec detail
  refine ⟨engaged.dram.trans noted.dram, engaged.vault.trans ?vault, engaged.retired.trans noted.retired, engaged.lost.trans noted.lost,
    engaged.shown 2 (State.bit_setBit_same _ _ (by decide)), fun k shown => engaged.shown k ?shown⟩
  case vault =>
    show { (s.retirementNoted sec detail).vault with
      used := (s.retirementNoted sec detail).vault.used ++ [sec]
      copying := (s.retirementNoted sec detail).vault.copying ++ [sec] } = _
    rw [noted.vault]
  case shown => exact State.bit_setBit_of_bit (noted.shown k shown) Reg.vaultStat 2

/-! ### An error met by scan-out (R182) -/

theorem sectionOf_lt {a : Nat} (address : a < 2 ^ 29) : sectionOf a < 128 := by
  unfold sectionOf
  omega

/-- R182: an error in a vault word is counted and shown. -/
def State.vaultErrorShown (s : State) (b : Nat) : State := (s.incr Reg.vaultErrCnt).setBit Reg.vaultStat b

@[simp] theorem State.vaultErrorShown_faults (s : State) (b : Nat) : (s.vaultErrorShown b).faults = s.faults := by
  simp [State.vaultErrorShown]
@[simp] theorem State.vaultErrorShown_vault (s : State) (b : Nat) : (s.vaultErrorShown b).vault = s.vault := by
  simp [State.vaultErrorShown]
@[simp] theorem State.vaultErrorShown_dram (s : State) (b : Nat) : (s.vaultErrorShown b).dram = s.dram := by
  simp [State.vaultErrorShown]

theorem State.bit_vaultErrorShown (s : State) {b : Nat} (word : b < 32) : (s.vaultErrorShown b).bit Reg.vaultStat b = true :=
  State.bit_setBit_same _ _ word

theorem State.reg_vaultErrorShown_other (s : State) (b : Nat) {off : Nat} (stat : off ≠ Reg.vaultStat) (count : off ≠ Reg.vaultErrCnt) :
    (s.vaultErrorShown b).reg off = s.reg off :=
  (State.reg_setBit_other _ _ stat).trans (s.reg_incr_other count)

theorem State.rn_vaultErrorShown (s : State) (b : Nat) :
    (s.vaultErrorShown b).rn Reg.vaultErrCnt = min (s.rn Reg.vaultErrCnt + 1) 0xFFFFFFFF := by
  rw [← s.rn_incr_same, State.rn, State.rn, State.vaultErrorShown, State.reg_setBit_other _ _ (by decide)]

/-- R182: a corrected word within its section's budget is counted. -/
theorem State.vaultError_corrected {s : State} {a : Nat} (address : a < 2 ^ 29) (whole : s.faults.lost = [])
    (inService : s.isRetired (resKey 2 (sectionOf a)) = false)
    (budget : s.resCount (resKey 2 (sectionOf a)) + 1 ≤ min 65535 (s.resBudget 2)) (p : Nat) :
    s.vaultError a false p =
      (s.vaultErrorShown 0).sectionCounted (sectionOf a) (s.resCount (resKey 2 (sectionOf a)) + 1) (a / 8) := by
  have seen := s.vaultErrorShown_faults 0
  have same : (s.vaultErrorShown 0).resCount (resKey 2 (sectionOf a)) = s.resCount (resKey 2 (sectionOf a)) := by
    rw [State.resCount, seen, State.resCount]
  have counted := State.faultEvent_within (s := s.vaultErrorShown 0) (sectionOf_lt address) (by rwa [State.isRetired, seen])
    (by rw [State.isLost, seen, whole]; rfl) (by rwa [same, State.resBudget, seen]) (a / 8)
  rw [same] at counted
  have unfolded : s.vaultError a false p = ((s.vaultErrorShown 0).faultEvent 2 (sectionOf a) false (a / 8)).haltLost := rfl
  rw [unfolded, counted, State.haltLost_of_whole]
  rw [(KeepsFrames.sectionCounted _ _ _ _).lost, seen, whole]

/-- R182: the word of an address is remembered as one that reads uncorrectable. -/
def Vault.markBad (v : Vault) (a : Nat) : Vault :=
  { v with bad := if v.bad.contains (a / 8) then v.bad else v.bad ++ [a / 8] }

theorem Vault.mem_markBad (v : Vault) (a : Nat) : a / 8 ∈ (v.markBad a).bad := by
  unfold Vault.markBad
  by_cases known : v.bad.contains (a / 8)
  · rw [if_pos known]
    exact List.contains_iff_mem.1 known
  · rw [if_neg known]
    exact List.mem_append_right _ (List.mem_singleton_self _)

def State.markBad (s : State) (a : Nat) : State := { s with vault := s.vault.markBad a }

@[simp] theorem State.markBad_vault (s : State) (a : Nat) : (s.markBad a).vault = s.vault.markBad a := rfl
@[simp] theorem State.markBad_faults (s : State) (a : Nat) : (s.markBad a).faults = s.faults := rfl
@[simp] theorem State.markBad_dram (s : State) (a : Nat) : (s.markBad a).dram = s.dram := rfl
@[simp] theorem State.bit_markBad (s : State) (a off b : Nat) : (s.markBad a).bit off b = s.bit off b := rfl

/-- R13, R182: those who would read an uncorrectable word are told: scan-out withholds a packet, captures mark a burst. -/
def State.tellReaders (s : State) (p word : Nat) : State := (s.withhold p word).each [0, 1, 2, 3] fun cv s => s.captBad cv word

theorem KeepsFrames.tellReaders (s : State) (p word : Nat) : KeepsFrames s (s.tellReaders p word) :=
  (KeepsFrames.withhold s p word).trans (KeepsFrames.each (fun cv t => KeepsFrames.captBad t cv word) _ _)

/-- R182, R327: an uncorrectable word is shown and remembered, its readers are told, and its section is retired. -/
theorem State.vaultError_uncorrectable {s : State} {a : Nat} (address : a < 2 ^ 29) (whole : s.faults.lost = [])
    (unserved : s.faults.serving = []) (inService : s.isRetired (resKey 2 (sectionOf a)) = false) (p : Nat) :
    ∃ u, KeepsFrames ((s.vaultErrorShown 1).markBad a) u ∧ s.vaultError a true p = (u.retire 2 (sectionOf a) (a / 8)).lifeUp 14 := by
  have same : ((s.vaultErrorShown 1).markBad a).faults = s.faults := by simp
  have told := KeepsFrames.tellReaders ((s.vaultErrorShown 1).markBad a) p (a / 8)
  obtain ⟨new, crosses⟩ := State.faultEvent_crosses (sectionOf_lt address) (by rwa [State.isRetired, told.retired, same])
    (by rw [State.isLost, told.lost, same, whole]; rfl) (a / 8)
  have counted := told.trans (KeepsFrames.sectionCounted _ (sectionOf a) new (a / 8))
  obtain ⟨-, -, -, lost, -⟩ := State.retire_section_outcome (by rw [counted.serving, same, unserved]) (sectionOf a) (a / 8)
  have unfolded : s.vaultError a true p =
      ((((s.vaultErrorShown 1).markBad a).tellReaders p (a / 8)).faultEvent 2 (sectionOf a) true (a / 8)).haltLost := rfl
  refine ⟨_, counted, ?_⟩
  rw [unfolded, crosses, State.haltLost_of_whole]
  rw [(KeepsFrames.lifeUp _ 14).lost, lost, counted.lost, same, whole]

end Sys2Proof.Machine
end

section
/-! What the vault's commands leave (R178, R182, R184, R191). -/
namespace Sys2Proof.Machine

/-- R182: what a corrected word within its section's budget leaves. -/
theorem exec_vaultError_corrected {s : State} {a : Nat} (dt : Nat) (p : Fin 64) (address : a < 2 ^ 29) (whole : s.faults.lost = [])
    (inService : s.isRetired (resKey 2 (sectionOf a)) = false)
    (budget : s.resCount (resKey 2 (sectionOf a)) + 1 ≤ min 65535 (s.resBudget 2)) :
    ∃ t, exec (.vaultError dt a false p) s = .next t ∧ t.bit Reg.vaultStat 0 = true ∧
      t.rn Reg.vaultErrCnt = min (s.rn Reg.vaultErrCnt + 1) 0xFFFFFFFF ∧
      t.resCount (resKey 2 (sectionOf a)) = s.resCount (resKey 2 (sectionOf a)) + 1 ∧ t.vault = s.vault ∧ t.dram = s.dram ∧
      SameRegs s t [Reg.vaultStat, Reg.vaultErrCnt, Reg.faultStat, Reg.faultJrnlIdx] := by
  have same := s.tick_faults dt
  have counts : (s.tick dt).resCount (resKey 2 (sectionOf a)) = s.resCount (resKey 2 (sectionOf a)) := by
    rw [State.resCount, same, State.resCount]
  have met := State.vaultError_corrected (s := s.tick dt) address (same ▸ whole) (by rwa [State.isRetired, same])
    (by rwa [counts, State.resBudget, same]) p
  rw [counts] at met
  have kept := KeepsFrames.sectionCounted ((s.tick dt).vaultErrorShown 0) (sectionOf a) (s.resCount (resKey 2 (sectionOf a)) + 1) (a / 8)
  refine ⟨_, rfl, ?_⟩
  rw [met]
  refine ⟨?shown, ?count, ?event, ?vault, ?dram, SameRegs.of_access (dt := dt) fun off other => ?regs⟩
  case shown =>
    rw [State.settle_bit]
    exact kept.shown 0 (State.bit_vaultErrorShown _ (by decide))
  case count =>
    rw [State.settle_rn, State.rn, State.reg_sectionCounted _ _ _ _ (by decide) (by decide), ← State.rn, State.rn_vaultErrorShown,
      State.tick_rn]
  case event => exact (congrArg (fun f : Faults => mget f.counts _ 0) (State.settle_faults _)).trans (State.resCount_sectionCounted _ _ _ _)
  case vault => rw [State.settle_vault, kept.vault, State.vaultErrorShown_vault, State.tick_vault]
  case dram => rw [State.settle_dram, kept.dram, State.vaultErrorShown_dram, State.tick_dram]
  case regs =>
    simp only [List.mem_cons, List.not_mem_nil, or_false, not_or] at other
    obtain ⟨stat, count, fault, index⟩ := other
    rw [State.reg_sectionCounted _ _ _ _ fault index, State.reg_vaultErrorShown_other _ _ stat count]

/-- R182: what an uncorrectable word in a section in service leaves. -/
theorem exec_vaultError_uncorrectable {s : State} {a : Nat} (dt : Nat) (p : Fin 64) (address : a < 2 ^ 29) (whole : s.faults.lost = [])
    (unserved : s.faults.serving = []) (inService : s.isRetired (resKey 2 (sectionOf a)) = false) :
    ∃ t, exec (.vaultError dt a true p) s = .next t ∧ t.bit Reg.vaultStat 1 = true ∧ a / 8 ∈ t.vault.bad ∧
      t.isRetired (resKey 2 (sectionOf a)) = true ∧ sectionOf a ∈ t.vault.copying ∧ t.bit Reg.vaultStat 2 = true ∧
      t.vault.bytes = s.vault.bytes ∧ t.dram = s.dram := by
  have same := s.tick_faults dt
  obtain ⟨u, kept, met⟩ := State.vaultError_uncorrectable (s := s.tick dt) address (same ▸ whole) (same ▸ unserved)
    (by rwa [State.isRetired, same]) p
  have unserved' : u.faults.serving = [] := by rw [kept.serving, State.markBad_faults, State.vaultErrorShown_faults, same, unserved]
  obtain ⟨dram, vault, retired, -, taken, shown⟩ := State.retire_section_outcome unserved' (sectionOf a) (a / 8)
  rw [kept.vault, State.markBad_vault, State.vaultErrorShown_vault, s.tick_vault] at vault
  rw [kept.dram, State.markBad_dram, State.vaultErrorShown_dram, s.tick_dram] at dram
  have seen := shown 1 (kept.shown 1 (State.bit_vaultErrorShown (s.tick dt) (by decide)))
  have counted := KeepsFrames.lifeUp (u.retire 2 (sectionOf a) (a / 8)) 14
  refine ⟨_, rfl, ?_⟩
  rw [met, State.isRetired, State.settle_bit, State.settle_bit, State.settle_vault, State.settle_faults, State.settle_dram, counted.vault,
    counted.retired, counted.dram, vault, retired, dram]
  exact ⟨counted.shown 1 seen, s.vault.mem_markBad a, by simp, by simp, counted.shown 2 taken, rfl, rfl⟩

/-! ### A section's copy and the scrub (R182) -/

@[simp] theorem State.tick_sectionWritten (s : State) (dt sec : Nat) : (s.tick dt).sectionWritten sec = s.sectionWritten sec := by
  simp only [State.sectionWritten, State.tick_cv, State.tick_bank]

/-- R182: a section none of which is being written is copied: its spare row group serves from now on. -/
theorem exec_sectionSpareCopy_idle {s : State} {sec : Fin 128} (dt : Nat) (waits : s.vault.copying.contains sec.val = true)
    (idle : s.sectionWritten sec = false) :
    ∃ t, exec (.sectionSpareCopy dt sec) s = .next t ∧ sec.val ∈ t.vault.spared ∧ sec.val ∉ t.vault.copying ∧
      SameRegs s t [] ∧ SameMemory s t := by
  have copied : (s.tick dt).sectionCopy sec = { s.tick dt with vault := { s.vault with
      copying := s.vault.copying.filter (· ≠ sec.val), spared := s.vault.spared ++ [sec.val] } } := by
    rw [State.sectionCopy, State.tick_vault, State.tick_sectionWritten, waits, idle]
    rfl
  refine ⟨_, rfl, ?_⟩
  rw [copied]
  refine ⟨?spared, ?copying, SameRegs.of_access (SameRegs.of_regs [] rfl), SameMemory.of_access ⟨fun _ => rfl, fun _ => ?_, rfl⟩⟩
  case spared => simp
  case copying => simp
  rw [State.tick_vb]
  rfl

/-- R182: a section that is being written waits. -/
theorem exec_sectionSpareCopy_written {s : State} {sec : Fin 128} (dt : Nat) (written : s.sectionWritten sec = true) :
    ∃ t, exec (.sectionSpareCopy dt sec) s = .next t ∧ OnlyRegs s t [] := by
  have waits : (s.tick dt).sectionCopy sec = s.tick dt := by
    rw [State.sectionCopy, State.tick_sectionWritten, written, Bool.not_true, Bool.and_false]
    rfl
  exact ⟨_, rfl, by rw [waits]; exact (OnlyRegs.tick s dt).settle⟩

/-- R182: a scrub that meets no error moves on to the next section. -/
theorem State.vaultScrub_clean {s : State} {errors : List Nat} (on : s.bit Reg.vaultPart 1 = true) (running : s.bgHeld 4 = false)
    (whole : s.faults.lost = []) (sound : ∀ a ∈ errors, sectionOf a ≠ s.vault.scrub)
    (readable : ∀ w ∈ s.vault.bad, sectionOf (8 * w) ≠ s.vault.scrub) :
    s.vaultScrub errors = { s with vault := { s.vault with scrub := (s.vault.scrub + 1) % 128 } } := by
  have noneCorrected : (errors.filter fun a => sectionOf a = s.vault.scrub && !s.vault.bad.contains (a / 8)) = [] :=
    List.filter_eq_nil_iff.2 fun a met => by simp [sound a met]
  have noneBad : (s.vault.bad.filter fun w => sectionOf (8 * w) = s.vault.scrub) = [] :=
    List.filter_eq_nil_iff.2 fun w met => by simp [readable w met]
  simp only [State.vaultScrub, on, running, noneCorrected, noneBad, List.foldl_nil]
  exact State.haltLost_of_whole whole

theorem exec_vaultScrub_clean {s : State} {dt : Nat} {errors : List Nat} (on : s.bit Reg.vaultPart 1 = true)
    (running : (s.tick dt).bgHeld 4 = false) (whole : s.faults.lost = []) (sound : ∀ a ∈ errors, sectionOf a ≠ s.vault.scrub)
    (readable : ∀ w ∈ s.vault.bad, sectionOf (8 * w) ≠ s.vault.scrub) :
    ∃ t, exec (.vaultScrub dt errors) s = .next t ∧ t.vault = { s.vault with scrub := (s.vault.scrub + 1) % 128 } ∧
      SameRegs s t [] ∧ SameMemory s t := by
  have scrubbed := State.vaultScrub_clean (s := s.tick dt) (errors := errors) (by simpa using on) running (by simpa using whole)
    (by simpa using sound) (by simpa using readable)
  rw [s.tick_vault] at scrubbed
  refine ⟨_, rfl, ?_⟩
  rw [scrubbed]
  refine ⟨rfl, SameRegs.of_access (SameRegs.of_regs [] rfl), SameMemory.of_access ⟨fun _ => rfl, fun _ => ?_, rfl⟩⟩
  rw [State.tick_vb]
  rfl

/-! ### The window and the read-back (R184, R191) -/

/-- R184: the window's flat view. -/
theorem State.bar4Byte_flat {s : State} (shown : s.bit Reg.vaultPart 16 = true) (flat : s.bit Reg.vaultBar4Base 0 = false) (o : Nat) :
    s.bar4Byte o = (s.vb (o % 2 ^ 29)).toNat := by
  simp only [State.bar4Byte, shown, flat]
  rfl

theorem exec_bar4Read_flat {s : State} {req : Nat} (dt off len : Nat) (admitted : s.peerRefused req = false)
    (shown : s.bit Reg.vaultPart 16 = true) (flat : s.bit Reg.vaultBar4Base 0 = false) :
    ∃ t, exec (.bar4Read dt req off len) s = .next t ∧
      t.bus = (List.range len).map (fun i => (s.vb ((off + i) % 2 ^ 29)).toNat) ∧ OnlyRegs s t [] := by
  have ran : exec (.bar4Read dt req off len) s = done ((s.tick dt).bar4Read off len) :=
    congrArg done (if_neg (by rw [admitted]; decide))
  refine ⟨_, ran, List.map_congr_left fun i _ => ?_, OnlyRegs.of_access ⟨fun _ _ => rfl, rfl⟩⟩
  rw [State.bar4Byte_flat (by simpa using shown) (by simpa using flat), State.tick_vb]

theorem exec_bar4Write {s : State} {req : Nat} (dt off : Nat) (data : List Byte) (admitted : s.peerRefused req = false) :
    ∃ t, exec (.bar4Write dt req off data) s = .next t ∧ t.bit Reg.vaultStat 4 = true ∧ OnlyRegs s t [Reg.vaultStat] := by
  have ran : exec (.bar4Write dt req off data) s = done ((s.tick dt).setBit Reg.vaultStat 4) :=
    congrArg done (if_neg (by rw [admitted]; decide))
  refine ⟨_, ran, ?_, OnlyRegs.of_access (State.setBit_only _ _ 4)⟩
  rw [State.settle_bit]
  exact State.bit_setBit_same _ _ (by decide)

@[simp] theorem State.prt_setPrt_same (s : State) (p : Nat) (pt : Port) : (s.setPrt p pt).prt p = pt := mget_mset_same ..
@[simp] theorem State.settle_prt (s : State) (p : Nat) : s.settle.prt p = s.prt p := rfl

/-- R191: a read-back with a good FCS and the packet's CRC ends the check of that packet. -/
theorem State.readbackVerdict_good {s : State} {p crc : Nat} {x : Pix} {r : List (Pix × Nat)} {echo : List Byte}
    (oldest : (s.prt p).readback = (x, crc) :: r) (length : 64 ≤ echo.length)
    (fcs : ofLe (echo.drop (echo.length - 4)) = crc32 (echo.take (echo.length - 4)))
    (payload : crc32c ((echo.drop 38).take (echo.length - 42)) = crc) :
    s.readbackVerdict p echo = s.setPrt p { (s.prt p) with readback := r } := by
  simp [State.readbackVerdict, oldest, length, fcs, payload]

theorem exec_readbackVerdict_good {s : State} {crc : Nat} {p : Fin 64} {x : Pix} {r : List (Pix × Nat)} {echo : List Byte} (dt : Nat)
    (oldest : (s.prt p).readback = (x, crc) :: r) (length : 64 ≤ echo.length)
    (fcs : ofLe (echo.drop (echo.length - 4)) = crc32 (echo.take (echo.length - 4)))
    (payload : crc32c ((echo.drop 38).take (echo.length - 42)) = crc) :
    ∃ t, exec (.readbackVerdict dt p echo) s = .next t ∧ (t.prt p).readback = r ∧ SameRegs s t [] ∧ SameMemory s t := by
  have agreed := State.readbackVerdict_good (s := s.tick dt) (p := p) (by rwa [State.prt, s.tick_ports]) length fcs payload
  refine ⟨_, rfl, ?_⟩
  rw [agreed]
  refine ⟨?_, SameRegs.of_access (SameRegs.of_regs [] rfl), SameMemory.of_access (SameMemory.of_eq rfl rfl rfl)⟩
  rw [State.settle_prt, State.prt_setPrt_same]

/-- Settles O38, clause by clause: each is what one command leaves. -/
theorem vaultKeepsFrames : Obligations.VaultKeepsFrames := by
  refine ⟨?granule, ?corrected, ?uncorrectable, ?copy, ?written, ?scrub, ?read, ?write, ?readback⟩
  case granule => exact fun _ _ _ _ _ _ running next room => exec_granuleRelocation running next room
  case corrected => exact fun _ dt _ p address whole inService budget => exec_vaultError_corrected dt p address whole inService budget
  case uncorrectable =>
    exact fun _ dt _ p address whole unserved inService => exec_vaultError_uncorrectable dt p address whole unserved inService
  case copy => exact fun _ dt _ waits idle => exec_sectionSpareCopy_idle dt waits idle
  case written => exact fun _ dt _ written => exec_sectionSpareCopy_written dt written
  case scrub => exact fun _ _ _ on running whole sound readable => exec_vaultScrub_clean on running whole sound readable
  case read => exact fun _ dt _ off len admitted shown flat => exec_bar4Read_flat dt off len admitted shown flat
  case write => exact fun _ dt _ off data admitted => exec_bar4Write dt off data admitted
  case readback => exact fun _ dt _ _ _ _ _ oldest length fcs payload => exec_readbackVerdict_good dt oldest length fcs payload

end Sys2Proof.Machine
end
